-- ==== Sys2Proof/Word.lean ====
section
/-! DEFINITION. The machine's words (00_scope.md R3): 20-bit device words, bytes, quints and decas. -/

namespace Sys2Proof

/-- A device word of 20 bits, numbered 19 down to 0 (R3). -/
abbrev Word := BitVec 20

/-- A byte (R3). -/
abbrev Byte := BitVec 8

/-- A pair of 40 bits: the lower address holds [19:0] (R3). -/
abbrev Pair := BitVec 40

/-- The device word that holds the low 20 bits of a number. -/
abbrev word (n : Nat) : Word := BitVec.ofNat 20 n

end Sys2Proof
end

