-- ==== Sys2Proof/Types.lean ====
section
/-! DEFINITION. The small types that commands and the state share: who makes an access, and the numbers of the
engine's indexed items (00_scope.md R1, 01_architecture.md R17). -/

namespace Sys2Proof

/-- Who reads or writes a device register (R11, R249, R499): a thread, the host's target port, the TAP path of the
Hide's own block, or the Hide's access unit (R504). -/
inductive Acc where
  | thread (t : Fin 64)
  | host
  | tap
  | hide
  deriving DecidableEq, Repr

/-- A thread number; 0 means "no thread" (R1). -/
abbrev Tid := Fin 64
/-- A link, L0 to L23 (R1). -/
abbrev LinkId := Fin 24
/-- A reed, REED0 to REED47 (R1). -/
abbrev ReedId := Fin 48
/-- A timer unit, TMR0 to TMR23 (R1). -/
abbrev TmrId := Fin 24
/-- A Causeway channel, CH0 to CH127 (R1). -/
abbrev Chan := Fin 128
/-- A pavilion, PAV0 to PAV2 (R17). -/
abbrev Pav := Fin 3

/-- A clock of a link that stops (04_link_ports.md R85, R89): `tx`, it is TX_CLK or REF_CLK, not RX_CLK alone. -/
structure ClockStop where
  link : LinkId
  tx : Bool
  deriving DecidableEq, Repr

/-- The place of a received frame's start-of-frame edge (04_link_ports.md R66, R96): cycles before the present one, phase. -/
structure SofEdge where
  back : BitVec 16
  phase : Fin 16
  deriving DecidableEq, Repr

/-- A port that begins a transmission (04_link_ports.md R93; 07_basin_switching.md R178), with the phase of the transmit clock edge in the cycle. -/
structure TxEdge where
  port : Fin 25
  phase : Fin 16
  deriving DecidableEq, Repr

/-- A prefix of a thread instruction (10_isa_encoding.md R271), with the byte that follows it. -/
inductive Prefix where
  /-- bytes 0xF0 to 0xF9: BYTE0, BYTE1, QUINT0 to QUINT3, DECA0, DECA1, WORD, PAIR -/
  | width (k : Fin 10)
  /-- byte 0xFA with its condition byte -/
  | pred (cond : Byte)
  /-- byte 0xFB -/
  | lock
  /-- byte 0xFC with its pair byte -/
  | atPair (pair : Byte)
  /-- byte 0xFD -/
  | ext
  /-- bytes 0xFE and 0xFF, which are ILLEGAL -/
  | undef
  deriving DecidableEq, Repr

/-- The operand bytes of an ALU operation: register form (RB), imm8 form (RB, imm8), imm20 form (RB, three bytes) (R273). -/
inductive AluOperand where
  | reg (rb : Byte)
  | imm8 (rb imm : Byte)
  | imm20 (rb : Byte) (imm : BitVec 24)
  deriving DecidableEq, Repr

/-- The mode bits of a format M opcode with the bytes after RB (R276). -/
inductive MemMode where
  | reg
  | d8 (d : Byte)
  | d16 (d : BitVec 16)
  | post
  | pre
  | idx (x : Byte)
  | abs (a : BitVec 24)
  /-- m = 7, which is ILLEGAL -/
  | m7
  deriving DecidableEq, Repr

/-- A relative target, format B8 or B16 (R273). -/
inductive RelTarget where
  | b8 (rel : Byte)
  | b16 (rel : BitVec 16)
  deriving DecidableEq, Repr

/-- A jump target, format J or A20 (R273). -/
inductive JumpTarget where
  | reg (rb : Byte)
  | abs (a : BitVec 24)
  deriving DecidableEq, Repr

/-- A request at the host's target port (16_host_rings.md R398, R400, R401): byte address bits [21:0], LEN, byte enables, data. -/
structure HostReq where
  addr : BitVec 22
  len : BitVec 4
  be : BitVec 8
  data : BitVec 64
  deriving DecidableEq, Repr

/-- The number of an accessor's own copy of a banked register and of its reader latches: threads 1 to 63, host 64,
TAP path 65, Hide 66 (R11). -/
def Acc.key : Acc → Nat
  | .thread t => t.val
  | .host => 64
  | .tap => 65
  | .hide => 66

/-- Is the accessor a path of the Hide? -/
def Acc.isHide : Acc → Bool
  | .tap => true
  | .hide => true
  | _ => false

end Sys2Proof
end

