-- ==== Sys2Proof/Syntax.lean ====
section
/-! DEFINITION. The commands of the block: one constructor per row of spec/opcode_table.json, in its order, with the row's
rule. A thread instruction carries its thread, its prefixes and its operand bytes (10_isa_encoding.md R270 to R276);
a register action carries who writes and the word written; an event carries the unit it happens to. -/

namespace Sys2Proof

/-- A read of a device register: by an accessor at a word address, or a request at the target port (R400, R401). -/
inductive ReadReq where
  | reg (who : Acc) (addr : Word)
  | target (r : HostReq)
  deriving DecidableEq, Repr

/-- A write of a device register: by an accessor, or a request at the target port (R400, R401). -/
inductive WriteReq where
  | reg (who : Acc) (addr v : Word)
  | target (r : HostReq)
  deriving DecidableEq, Repr

/-- The commands. -/
inductive Instr where
  /-- NOP (R301): Thread instruction that does nothing for one issue. -/
  | nop (t : Tid) (p : List Prefix)
  /-- WTK (R303): Thread waits for the first tick launch after its issue cycle. -/
  | wtk (t : Tid) (p : List Prefix)
  /-- RET (R301): Jumps to the address held in G14. -/
  | ret (t : Tid) (p : List Prefix)
  /-- RETI (R301): Returns to IPC and restores FLAGS from IFLAGS. -/
  | reti (t : Tid) (p : List Prefix)
  /-- EI (R301): Sets FLAGS.IE. -/
  | ei (t : Tid) (p : List Prefix)
  /-- DI (R301): Clears FLAGS.IE from its own issue. -/
  | di (t : Tid) (p : List Prefix)
  /-- MOV (R294): ALU op 0: writes the second operand into D at the operand width. -/
  | mov (t : Tid) (p : List Prefix) (o : AluOperand)
  /-- ADD (R294): ALU op 1: adds, setting Z N C V. -/
  | add (t : Tid) (p : List Prefix) (o : AluOperand)
  /-- ADC (R294): ALU op 2: adds with carry. -/
  | adc (t : Tid) (p : List Prefix) (o : AluOperand)
  /-- SUB (R294): ALU op 3: subtracts, C meaning no borrow. -/
  | sub (t : Tid) (p : List Prefix) (o : AluOperand)
  /-- SBC (R294): ALU op 4: subtracts with borrow. -/
  | sbc (t : Tid) (p : List Prefix) (o : AluOperand)
  /-- AND (R294): ALU op 5: bitwise AND, setting Z N. -/
  | and (t : Tid) (p : List Prefix) (o : AluOperand)
  /-- OR (R294): ALU op 6: bitwise OR, setting Z N. -/
  | or (t : Tid) (p : List Prefix) (o : AluOperand)
  /-- XOR (R294): ALU op 7: bitwise XOR, setting Z N. -/
  | xor (t : Tid) (p : List Prefix) (o : AluOperand)
  /-- CMP (R294): ALU op 8: subtracts for flags only. -/
  | cmp (t : Tid) (p : List Prefix) (o : AluOperand)
  /-- TST (R294): ALU op 9: ANDs for flags only. -/
  | tst (t : Tid) (p : List Prefix) (o : AluOperand)
  /-- SHL (R295): ALU op 10: shifts left by a 6-bit count. -/
  | shl (t : Tid) (p : List Prefix) (o : AluOperand)
  /-- SHR (R295): ALU op 11: shifts right logically. -/
  | shr (t : Tid) (p : List Prefix) (o : AluOperand)
  /-- SAR (R295): ALU op 12: shifts right arithmetically. -/
  | sar (t : Tid) (p : List Prefix) (o : AluOperand)
  /-- ROL (R295): ALU op 13: rotates left by the count modulo the width. -/
  | rol (t : Tid) (p : List Prefix) (o : AluOperand)
  /-- MUL (R294): ALU op 14: writes the low half of the unsigned product. -/
  | mul (t : Tid) (p : List Prefix) (o : AluOperand)
  /-- MULH (R294): ALU op 15: writes the high half of the unsigned product. -/
  | mulh (t : Tid) (p : List Prefix) (o : AluOperand)
  /-- LD (R300): Loads an element, word or pair from the effective address. -/
  | ld (t : Tid) (p : List Prefix) (rb : Byte) (m : MemMode)
  /-- ST (R300): Stores an element, word or pair in its access cycle. -/
  | st (t : Tid) (p : List Prefix) (rb : Byte) (m : MemMode)
  /-- LEA (R300): Writes the effective address into R without any access. -/
  | lea (t : Tid) (p : List Prefix) (rb : Byte) (m : MemMode)
  /-- XCH (R300): Atomically exchanges a register with memory. -/
  | xch (t : Tid) (p : List Prefix) (rb : Byte) (m : MemMode)
  /-- ADDM (R300): Atomically adds a register to memory and returns the old value. -/
  | addm (t : Tid) (p : List Prefix) (rb : Byte) (m : MemMode)
  /-- LOCK_TRY_ACQUIRE (R306): A word LD from the lock aperture that takes the lock if HELD is clear and never waits. -/
  | lockTryAcquire (t : Tid) (p : List Prefix) (rb : Byte) (m : MemMode)
  /-- LKW (R307): Acquires a lock word or joins its waiters. -/
  | lkw (t : Tid) (p : List Prefix) (rb : Byte) (m : MemMode)
  /-- LKR (R308): Releases an owned lock, handing it to the first waiter if any. -/
  | lkr (t : Tid) (p : List Prefix) (rb : Byte) (m : MemMode)
  /-- BCC (R301): Branches relative if the condition holds. -/
  | bcc (t : Tid) (p : List Prefix) (c : Fin 14) (rel : RelTarget)
  /-- BRA (R301): Branches relative unconditionally. -/
  | bra (t : Tid) (p : List Prefix) (rel : RelTarget)
  /-- BSR (R301): Branches relative and saves the return address in G14. -/
  | bsr (t : Tid) (p : List Prefix) (rel : RelTarget)
  /-- JMP (R301): Jumps to a register or absolute address. -/
  | jmp (t : Tid) (p : List Prefix) (j : JumpTarget)
  /-- JSR (R301): Jumps to a register or absolute address and saves the return address. -/
  | jsr (t : Tid) (p : List Prefix) (j : JumpTarget)
  /-- NOT (R296): Writes the complement of S. -/
  | not (t : Tid) (p : List Prefix) (rb : Byte)
  /-- NEG (R296): Writes 0 minus S. -/
  | neg (t : Tid) (p : List Prefix) (rb : Byte)
  /-- CLZ (R296): Counts the leading zeros of S. -/
  | clz (t : Tid) (p : List Prefix) (rb : Byte)
  /-- WEV (R304): Waits until a masked event input has a count above 0. -/
  | wev (t : Tid) (p : List Prefix) (mask : Byte)
  /-- WEVR (R304): Waits on a mask in a register and reports the input taken. -/
  | wevr (t : Tid) (p : List Prefix) (rb : Byte)
  /-- CSND (R310): Appends a word to the writer's open conduit message. -/
  | csnd (t : Tid) (p : List Prefix) (rb cd : Byte)
  /-- CSNC (R310): Appends a word and closes the conduit message. -/
  | csnc (t : Tid) (p : List Prefix) (rb cd : Byte)
  /-- CRCV (R311): Takes the next word of the oldest closed conduit message. -/
  | crcv (t : Tid) (p : List Prefix) (rb cd : Byte)
  /-- CABT (R312): Discards the writer's open conduit message. -/
  | cabt (t : Tid) (p : List Prefix) (rb cd : Byte)
  /-- BFX (R298): Extracts a bit field. -/
  | bfx (t : Tid) (p : List Prefix) (rb : Byte) (f : BitVec 16)
  /-- BFI (R298): Inserts a bit field. -/
  | bfi (t : Tid) (p : List Prefix) (rb : Byte) (f : BitVec 16)
  /-- QPERM (R299): Permutes the quints of a word. -/
  | qperm (t : Tid) (p : List Prefix) (rb sel : Byte)
  /-- BPERM (R299): Permutes the bytes of a pair, keeping tags. -/
  | bperm (t : Tid) (p : List Prefix) (rb sel : Byte)
  /-- SXT (R297): Sign-extends a narrow element to 20 bits. -/
  | sxt (t : Tid) (p : List Prefix) (rb : Byte)
  /-- MFS (R297): Reads a special register. -/
  | mfs (t : Tid) (p : List Prefix) (rb num : Byte)
  /-- MTS (R297): Writes a special register. -/
  | mts (t : Tid) (p : List Prefix) (rb num : Byte)
  /-- EMULATION_TRAP (R289): A reserved opcode captures its bytes and enters THR_EMVEC. -/
  | emulationTrap (t : Tid) (p : List Prefix) (n : Fin 16) (ops : List Byte)
  /-- WEV_WAIT_END (R304): A WEV or WEVR wait ends when a masked input count rises. -/
  | wevWaitEnd (t : Tid)
  /-- LKW_WAIT_END (R309): A granted waiter's LKW wait ends one or two cycles after the grant. -/
  | lkwWaitEnd (t : Tid)
  /-- CRCV_WAIT_END (R311): A waiting CRCV ends when a closed message becomes visible. -/
  | crcvWaitEnd (t : Tid)
  /-- SEND_OPEN_WAIT_END (R310): An opening send ends its wait when a conduit buffer frees. -/
  | sendOpenWaitEnd (t : Tid)
  /-- AT_RELEASE (R72): An AT-prefixed instruction issues after Sundial reaches its target. -/
  | atRelease (t : Tid)
  /-- INTERRUPT_ENTRY (R254): A due interrupt is taken at the thread's next issue and enters THR_IVEC. -/
  | interruptEntry (t : Tid)
  /-- BANK_HOLD_RELEASE (R330): Accesses held behind a locked sequence take effect after it closes. -/
  | bankHoldRelease (bank : Fin 20)
  /-- HOST_WINDOW_RESPONSE (R293): A host response completes a host-window access or faults the thread. -/
  | hostWindowResponse (p : Pav) (code : BitVec 2) (data : BitVec 64)
  /-- THREAD_HOLD (R247): A master's HOLD stops a thread's issue. -/
  | threadHold (who : Acc) (v : Word)
  /-- THREAD_HELD (R247): The held thread becomes HELD once its last instruction completes. -/
  | threadHeld (t : Tid)
  /-- THREAD_RELEASE (R245): A master's RELEASE moves a HELD or FAULTED thread to RUN. -/
  | threadRelease (who : Acc) (v : Word)
  /-- THREAD_RESET (R248): The Keeper resets one thread to HELD with cleared registers. -/
  | threadReset (who : Acc) (v : Word)
  /-- CONTEXT_WRITE (R250): A master writes a register of a HELD or FAULTED thread through THR_CDATA. -/
  | contextWrite (who : Acc) (v : Word)
  /-- STILL_WATER_WAKE (R261): After the dwell the detector force-wakes the Keeper at THR_SWVEC. -/
  | stillWaterWake
  /-- STILL_WATER_ACK (R262): THR_SWCTL.ACK clears PEND and restarts the dwell count. -/
  | stillWaterAck (who : Acc) (v : Word)
  /-- SLOT_ENTRY_WRITE (R239): A BRLp_SENT write stages an entry and advances ADDR. -/
  | slotEntryWrite (who : Acc) (p : Pav) (v : Word)
  /-- SLOT_TABLE_COPY (R239): BRLp_CTL.COPY copies the table in force into staging. -/
  | slotTableCopy (who : Acc) (p : Pav) (v : Word)
  /-- SLOT_TABLE_APPLY (R239): BRLp_CTL.APPLY starts the checks of the staged table. -/
  | slotTableApply (who : Acc) (p : Pav) (v : Word)
  /-- SLOT_CHECKS_END (R239): After 140 cycles the checks end, pending the table or recording the failure. -/
  | slotChecksEnd (p : Pav)
  /-- SLOT_TABLE_CANCEL (R240): BRLp_CTL.CANCEL discards the pending table. -/
  | slotTableCancel (who : Acc) (p : Pav) (v : Word)
  /-- SLOT_TABLE_TAKE_EFFECT (R240): A pending slot table comes into force at its boundary. -/
  | slotTableTakeEffect (p : Pav)
  /-- TICK_APPLY (R42): TIK_CTL.APPLY checks the staged tick settings and makes them pending. -/
  | tickApply (who : Acc) (v : Word)
  /-- TICK_CANCEL (R44): TIK_CTL.CANCEL discards the pending tick settings. -/
  | tickCancel (who : Acc) (v : Word)
  /-- TICK_RUN_SET (R46): A write of 1 to TIK_CTL.RUN arms the tick sequencer. -/
  | tickRunSet (who : Acc) (v : Word)
  /-- TICK_RUN_CLEAR (R46): A write of 0 to TIK_CTL.RUN stops launches. -/
  | tickRunClear (who : Acc) (v : Word)
  /-- TICK_LAUNCH (R27): The sequencer decides a launch and performs the boundary-cycle actions. -/
  | tickLaunch
  /-- SUNDIAL_STEP (R61): SUN_CTL.OP STEP adds the staged signed amount to Sundial. -/
  | sundialStep (who : Acc) (v : Word)
  /-- SUNDIAL_LOAD (R61): SUN_CTL.OP LOAD sets Sundial to the staged value. -/
  | sundialLoad (who : Acc) (v : Word)
  /-- SUNDIAL_RATE (R61): SUN_CTL.OP RATE puts the staged rate trim in force. -/
  | sundialRate (who : Acc) (v : Word)
  /-- T80_READ (R57): A read of T80 word 0 latches words 1 to 3 for the reader. -/
  | t80Read (who : Acc) (addr : Word)
  /-- COUNT_LATCH_READ (R11): A read of the low word of a two-word value latches its high word. -/
  | countLatchRead (who : Acc) (addr : Word)
  /-- COUNTER_WINDOW_READ (R98): A counter window read latches the high word and clears a narrow counter. -/
  | counterWindowRead (who : Acc) (addr : Word)
  /-- READ_CLEAR (R6): A read of an RC field returns and clears it. -/
  | readClear (q : ReadReq)
  /-- ECAP_READ (R68): A read of SUN_ECAPn_T0 latches the capture and clears FRESH. -/
  | ecapRead (who : Acc) (n : Fin 4)
  /-- REGISTER_WRITE (R7): A write to a register with no row of its own, with its legality checks. -/
  | registerWrite (q : WriteReq)
  /-- LINK_EN_SET (R85): LNKn_CTL.EN set to 1 moves a DOWN link to TRAINING. -/
  | linkEnSet (who : Acc) (n : LinkId) (v : Word)
  /-- LINK_EN_CLEAR (R85): LNKn_CTL.EN set to 0 closes the movers, flushes and moves the link to DOWN. -/
  | linkEnClear (who : Acc) (n : LinkId) (v : Word)
  /-- UP_REQUEST (R85): LNKn_CTL.UP_REQ moves TRAINING or FLAP_HOLD to UP. -/
  | upRequest (who : Acc) (n : LinkId) (v : Word)
  /-- LINK_LOSS_WRITE (R85): LNKn_CTL.LOSS signals a WRITE loss. -/
  | linkLossWrite (who : Acc) (n : LinkId) (v : Word)
  /-- LINK_LOSS_CLOCK (R85): 512 cycles without a clock edge make a CLOCK loss; `tx`: it is the transmit clock that stopped (R89). -/
  | linkLossClock (c : ClockStop)
  /-- TRAINING_TIMEOUT (R85): TRAIN.TICKS launches without UP_REQ set TRAIN_TO and restart the training timer. -/
  | trainingTimeout (n : LinkId)
  /-- FLAP_HOLD_EXPIRY (R90): The flap hold expires, flushes the link and enters TRAINING. -/
  | flapHoldExpiry (n : LinkId)
  /-- FLUSH_RELEASE (R92): A flush releases the next queued frame 8 cycles after the last. -/
  | flushRelease (n : LinkId)
  /-- TS_POP_INGRESS (R97): LNKn_TSCTL.POP_I pops the ingress timestamp record. -/
  | tsPopIngress (who : Acc) (n : LinkId) (v : Word)
  /-- TS_POP_EGRESS (R97): LNKn_TSCTL.POP_E pops the egress timestamp record. -/
  | tsPopEgress (who : Acc) (n : LinkId) (v : Word)
  /-- FRAME_START (R165): A frame's first word reaches the ingress mover, takes a cell and a SEQ. -/
  | frameStart (n : LinkId) (w : Word) (sof : SofEdge)
  /-- DISCARD_RUN (R544): Words arriving with no frame open are discarded as one counted run. -/
  | discardRun (n : LinkId) (w : Word)
  /-- LOOKUP (R172): The word with the last lookup byte arrives and the hardware lookup runs. -/
  | lookup (n : LinkId) (w : Word)
  /-- VERDICT_COMMIT (R172): The verdict commits 160 cycles after the last lookup byte. -/
  | verdictCommit (seq : Word)
  /-- FRAME_END (R544): A frame's last word reaches the ingress mover, ending it good or bad. -/
  | frameEnd (n : LinkId) (w : Word)
  /-- BEAT_WRITE (R94): The ingress mover writes one beat to the Basin in its write slot. -/
  | beatWrite (n : LinkId)
  /-- BEAT_READ (R94): The egress mover reads one beat from the Basin in its read slot. -/
  | beatRead (n : LinkId)
  /-- FRAME_TX_START (R178): A free egress port chooses and starts its next eligible frame. -/
  | frameTxStart (x : TxEdge)
  /-- FRAME_TX_END (R97): A frame's transmission ends and is counted and recorded. -/
  | frameTxEnd (port : Fin 25)
  /-- BAD_TAIL (R184): An egress port learns that a cut-through frame ended bad. -/
  | badTail (port : Fin 25)
  /-- LAUNCH_DEADLINE (R93): A timed frame that cannot start by its deadline is dropped. -/
  | launchDeadline (port : Fin 25)
  /-- CELL_CHAIN_RELEASE (R163): A frame's cells return to the free list one per cycle. -/
  | cellChainRelease (seq : Word)
  /-- TOKEN_REFILL (R187): Each enabled Sluice bucket gains RATE/256 bytes per round. -/
  | tokenRefill
  /-- BSN_ALLOC (R197): A thread requests a chain of N Basin cells. -/
  | bsnAlloc (who : Acc) (v : Word)
  /-- ALLOC_DONE (R197): After N+2 cycles BSN_AHEAD shows the chain head or refusal. -/
  | allocDone (t : Tid)
  /-- CHAIN_RELINK (R197): A BSN_CHAIN1 write relinks a held cell. -/
  | chainRelink (who : Acc) (v : Word)
  /-- BSN_RELEASE (R194): A thread frees its held chain from a cell. -/
  | bsnRelease (who : Acc) (v : Word)
  /-- FRAME_INJECT (R198): BSN_INJGO commits a thread-built frame as a stored frame. -/
  | frameInject (who : Acc) (v : Word)
  /-- TRAP_POP (R199): The trap thread's read of BSN_TRAP0 pops the head record. -/
  | trapPop (who : Acc)
  /-- FWD_INSERT (R173): FWD_OP INSERT writes the staged entry into the table. -/
  | fwdInsert (who : Acc) (v : Word)
  /-- FWD_DELETE (R173): FWD_OP DELETE invalidates the entry with an equal key. -/
  | fwdDelete (who : Acc) (v : Word)
  /-- FWD_FIND (R173): FWD_OP FIND copies the entry with an equal key. -/
  | fwdFind (who : Acc) (v : Word)
  /-- FWD_READ (R173): FWD_OP READ copies entry FWD_IDX. -/
  | fwdRead (who : Acc) (v : Word)
  /-- FWD_OP_RESULT (R173): After 16 cycles the table operation takes effect and writes its result. -/
  | fwdOpResult
  /-- NOTICE_POP (R174): The classifier's read of FWD_NOTE0 pops a notice. -/
  | noticePop (who : Acc)
  /-- OVERRIDE_KEEP (R175): An override commit with KEEP leaves the hardware verdict. -/
  | overrideKeep (who : Acc) (v : Word)
  /-- OVERRIDE_DROP (R175): An override commit with DROP drops the frame. -/
  | overrideDrop (who : Acc) (v : Word)
  /-- OVERRIDE_PORTS (R175): An override commit with PORTS replaces mask and class. -/
  | overridePorts (who : Acc) (v : Word)
  /-- OVERRIDE_TRAP (R175): An override commit with TRAP traps the frame. -/
  | overrideTrap (who : Acc) (v : Word)
  /-- WARDEN_NOW (R191): WRD_CTL.NOW starts an audit. -/
  | wardenNow (who : Acc) (v : Word)
  /-- AUDIT_TIMEOUT (R191): An audit starts 65,536 cycles after the last start. -/
  | auditTimeout
  /-- AUDIT_PASS_END (R195): An audit pass ends and reports its findings. -/
  | auditPassEnd
  /-- WINDOW_CHECK (R207): The schedule layer checks a window at its check time. -/
  | windowCheck (n : LinkId)
  /-- ROW_SET_APPLY (R209): SCH_LCTL.APPLY starts the checks of a staged row set. -/
  | rowSetApply (who : Acc) (v : Word)
  /-- ROW_SET_CHECKS_END (R209): The row-set checks end, pending the set or setting APPLY_ERR. -/
  | rowSetChecksEnd (n : LinkId)
  /-- ROW_SET_TAKE_EFFECT (R209): A pending row set comes into force. -/
  | rowSetTakeEffect (n : LinkId)
  /-- ROW_SET_CANCEL (R209): SCH_LCTL.CANCEL discards a pending row set. -/
  | rowSetCancel (who : Acc) (v : Word)
  /-- SCHEDULE_EN_SET (R222): SCH_LCTL.EN set to 1 enters LISTEN or LOCAL. -/
  | scheduleEnSet (who : Acc) (v : Word)
  /-- SCHEDULE_EN_CLEAR (R222): SCH_LCTL.EN set to 0 returns the layer to OFF. -/
  | scheduleEnClear (who : Acc) (v : Word)
  /-- SCH_ENTRY_WRITE (R229): SCH_EOP 1 writes the staged words to a store entry. -/
  | schEntryWrite (who : Acc) (v : Word)
  /-- SCH_ENTRY_READ (R229): SCH_EOP 2 reads a store entry into the staged words. -/
  | schEntryRead (who : Acc) (v : Word)
  /-- BUFFER_COMMIT (R213): SCH_BCTL.COMMIT places a frame in an exclusive buffer. -/
  | bufferCommit (who : Acc) (v : Word)
  /-- BUFFER_CLEAR (R213): SCH_BCTL.CLEAR clears READY and releases the frame. -/
  | bufferClear (who : Acc) (v : Word)
  /-- REFERENCE_RECEIVE (R221): A received reference is processed for offset and synchronisation. -/
  | referenceReceive (n : LinkId)
  /-- LISTEN_TIMER_EXPIRY (R222): The listen timer expires and the link becomes master or listens again. -/
  | listenTimerExpiry (n : LinkId)
  /-- REF_WINDOW_MISS (R222): A REF window ends with no accepted reference and counts a miss. -/
  | refWindowMiss (n : LinkId)
  /-- SOFTWARE_FIRE (R368): A write to CWY_FIRE fires a channel. -/
  | softwareFire (who : Acc) (v : Word)
  /-- CHANNEL_DELIVERY (R364): A firing reaches its subscribers two or three cycles later. -/
  | channelDelivery (ch : Chan)
  /-- UNMUTE (R373): A W1C write to CWY_MUTEw unmutes a channel. -/
  | unmute (who : Acc) (w : Fin 7) (v : Word)
  /-- FLOOD_COUNT_RESET (R372): Flood counts return to 0 every 131,072 cycles while ticks do not run. -/
  | floodCountReset
  /-- TIMER_INCREMENT (R378): A running timer unit increments from its source. -/
  | timerIncrement (u : TmrId)
  /-- TIMER_START (R384): TMR_CTL.START loads OFS and runs. -/
  | timerStart (who : Acc) (u : TmrId) (v : Word)
  /-- TIMER_STOP (R384): TMR_CTL.STOP holds the count. -/
  | timerStop (who : Acc) (u : TmrId) (v : Word)
  /-- TIMER_CONT (R384): TMR_CTL.CONT runs on from the held count. -/
  | timerCont (who : Acc) (u : TmrId) (v : Word)
  /-- TIMER_CAPTURE_NOW (R391): TMR_CTL.CAP captures the count. -/
  | timerCaptureNow (who : Acc) (u : TmrId) (v : Word)
  /-- TIMER_COUNT_WRITE (R386): A write to TMR_CNT sets the count and loses the cycle's increment. -/
  | timerCountWrite (who : Acc) (u : TmrId) (v : Word)
  /-- TIMER_COUNT_READ (R390): A read of TMR_CNT latches the two units above. -/
  | timerCountRead (who : Acc) (u : TmrId)
  /-- TIMER_CAPTURE_READ (R392): A read of TMR_CAP removes the oldest capture. -/
  | timerCaptureRead (who : Acc) (u : TmrId)
  /-- GLOBAL_START (R385): TMR_GSTART.GO starts the lead timers and their linked units. -/
  | globalStart (who : Acc) (v : Word)
  /-- REED_START (R125): REEDk_CTL.START runs the reed from ENTRY. -/
  | reedStart (who : Acc) (k : ReedId) (v : Word)
  /-- REED_ARM (R125): REEDk_CTL.ARM makes the reed wait for a sync event. -/
  | reedArm (who : Acc) (k : ReedId) (v : Word)
  /-- REED_HALT (R125): REEDk_CTL.HALT stops the reed with cause HALT. -/
  | reedHalt (who : Acc) (k : ReedId) (v : Word)
  /-- REED_SWAP (R130): REEDk_CTL.SWAP swaps banks at once when stopped or at the next wrap. -/
  | reedSwap (who : Acc) (k : ReedId) (v : Word)
  /-- REED_FORCE (R131): REEDk_CTL.FORCE swaps at the next instruction boundary. -/
  | reedForce (who : Acc) (k : ReedId) (v : Word)
  /-- REED_SYNC_GO (R126): REEDk_SYNC.GO is a sync event for the pavilion. -/
  | reedSyncGo (who : Acc) (p : Pav) (v : Word)
  /-- REED_MBX_WRITE (R123): A write fills the reed mailbox or is lost. -/
  | reedMbxWrite (who : Acc) (k : ReedId) (v : Word)
  /-- REED_FIFO_READ (R122): An owner read of REEDk_FIFO pops the head word. -/
  | reedFifoRead (who : Acc) (k : ReedId)
  /-- PROGRAM_WRITE (R128): A REEDk_PDATA write fills a shadow word and advances ADDR. -/
  | programWrite (who : Acc) (k : ReedId) (v : Word)
  /-- TSET_COMMIT (R133): A REEDk_TSET0 write commits the staged time. -/
  | tsetCommit (who : Acc) (k : ReedId) (v : Word)
  /-- INPUT_TICK (R109): An input tick samples W signals into the input stage. -/
  | inputTick (k : ReedId) (pins : BitVec 16) (phase : Fin 16)
  /-- OUTPUT_TICK (R111): An output tick drives the next W bits from the output stage. -/
  | outputTick (k : ReedId) (phase : Fin 16)
  /-- REED_WAIT_END (R110): A waiting reed instruction completes when its condition is met. -/
  | reedWaitEnd (k : ReedId) (pins : BitVec 16) (phase : Fin 16)
  /-- REED_ACTION_EXECUTE (R70): A posted timed action executes at its Sundial placement. -/
  | reedActionExecute (k : ReedId)
  /-- TRACKER_CORRECTION (R153): A qualifying edge moves later ticks by a clamped correction. -/
  | trackerCorrection (k : ReedId) (pins : BitVec 16) (phase : Fin 16)
  /-- REED_NOP (R113): Reed waits D+1 cycles. -/
  | reedNop (k : ReedId)
  /-- REED_SIN (R110): Reed takes n bits from the input stage into RXW. -/
  | reedSin (k : ReedId)
  /-- REED_SOUT (R110): Reed places n bits of TXW in the output stage. -/
  | reedSout (k : ReedId)
  /-- REED_MOV (R113): Reed copies S to D. -/
  | reedMov (k : ReedId)
  /-- REED_LDI (R113): Reed loads a zero-extended immediate. -/
  | reedLdi (k : ReedId)
  /-- REED_LDH (R113): Reed loads D[19:13] from an immediate. -/
  | reedLdh (k : ReedId)
  /-- REED_AND (R113): Reed ALU OP 0. -/
  | reedAnd (k : ReedId)
  /-- REED_OR (R113): Reed ALU OP 1. -/
  | reedOr (k : ReedId)
  /-- REED_XOR (R113): Reed ALU OP 2. -/
  | reedXor (k : ReedId)
  /-- REED_ADD (R113): Reed ALU OP 3. -/
  | reedAdd (k : ReedId)
  /-- REED_SUB (R113): Reed ALU OP 4. -/
  | reedSub (k : ReedId)
  /-- REED_SHL (R113): Reed ALU OP 5, shift left by S. -/
  | reedShl (k : ReedId)
  /-- REED_SHR (R113): Reed ALU OP 6, logical shift right by S. -/
  | reedShr (k : ReedId)
  /-- REED_NOT (R113): Reed ALU OP 7, D = not S. -/
  | reedNot (k : ReedId)
  /-- REED_SHI (R113): Reed shifts D by an immediate count. -/
  | reedShi (k : ReedId)
  /-- REED_JMP (R115): Reed jumps if its condition holds. -/
  | reedJmp (k : ReedId)
  /-- REED_DJNZ (R113): Reed decrements QA or QB and jumps if not zero. -/
  | reedDjnz (k : ReedId)
  /-- REED_WAITP (R115): Reed waits for a pin level or edge and captures edges. -/
  | reedWaitp (k : ReedId)
  /-- REED_WAITE (R124): Reed waits for its task input count and takes one. -/
  | reedWaite (k : ReedId)
  /-- REED_SETP_LEVEL (R104): SETP mode 0 sets one pin level. -/
  | reedSetpLevel (k : ReedId)
  /-- REED_SETP_MASKED (R113): SETP mode 1 sets levels of the pins in QA from QB. -/
  | reedSetpMasked (k : ReedId)
  /-- REED_SETP_ENABLE (R104): SETP mode 2 sets one pin enable. -/
  | reedSetpEnable (k : ReedId)
  /-- REED_SETP_ENABLES (R113): SETP mode 3 sets enables of the pins in QA from QB. -/
  | reedSetpEnables (k : ReedId)
  /-- REED_PUSHF (R122): Reed pushes a word to the owning thread's FIFO. -/
  | reedPushf (k : ReedId)
  /-- REED_PULLM (R123): Reed takes the mailbox word. -/
  | reedPullm (k : ReedId)
  /-- REED_PUSHS (R119): Reed hands a tagged frame-byte word to the ingress mover. -/
  | reedPushs (k : ReedId)
  /-- REED_PULLS (R120): Reed takes the next word from the egress mover. -/
  | reedPulls (k : ReedId)
  /-- REED_CRC_INIT (R155): CRC INIT loads the seed. -/
  | reedCrcInit (k : ReedId)
  /-- REED_CRC_FEED (R155): CRC FEED adds n bits of S. -/
  | reedCrcFeed (k : ReedId)
  /-- REED_DRST (R106): Reed restarts a divider side. -/
  | reedDrst (k : ReedId)
  /-- REED_TLD (R116): Reed loads ATIME from CAPT, FLT, NOW or TSET. -/
  | reedTld (k : ReedId)
  /-- REED_TADD (R116): Reed adds a scaled value to ATIME. -/
  | reedTadd (k : ReedId)
  /-- REED_POST_PIN (R117): POST KIND 0 queues a pin-level action. -/
  | reedPostPin (k : ReedId)
  /-- REED_POST_OSTART (R117): POST KIND 1 queues an output-side restart. -/
  | reedPostOstart (k : ReedId)
  /-- REED_POST_FIRE (R117): POST KIND 2 queues a channel firing. -/
  | reedPostFire (k : ReedId)
  /-- REED_MARK (R117): Reed marks a start-of-frame point. -/
  | reedMark (k : ReedId)
  /-- REED_FIRE (R113): Reed fires a channel in its issue cycle and declares it. -/
  | reedFire (k : ReedId)
  /-- REED_STOP_INSN (R113): Reed instruction STOP enters STOPPED with cause PROG. -/
  | reedStopInsn (k : ReedId)
  /-- PASS (R136): CODE in PASS mode copies or inverts S. -/
  | pass (k : ReedId)
  /-- NRZI_TX (R138): CODE in NRZI_TX mode codes data bits as levels. -/
  | nrziTx (k : ReedId)
  /-- NRZI_RX (R138): CODE in NRZI_RX mode decodes levels into data bits. -/
  | nrziRx (k : ReedId)
  /-- MAN_TX (R139): CODE in MAN_TX mode codes a byte or request into half-bits. -/
  | manTx (k : ReedId)
  /-- MAN_RX (R140): CODE in MAN_RX mode aligns and decodes half-bits. -/
  | manRx (k : ReedId)
  /-- B4B5_TX (R142): CODE in B4B5_TX mode codes a tagged word into quints. -/
  | b4b5Tx (k : ReedId)
  /-- B4B5_RX (R143): CODE in B4B5_RX mode aligns and decodes quints. -/
  | b4b5Rx (k : ReedId)
  /-- T1L_TX (R144): CODE in T1L_TX mode scrambles and maps to ternary symbols. -/
  | t1lTx (k : ReedId)
  /-- T1L_RX (R144): CODE in T1L_RX mode decodes ternary symbols. -/
  | t1lRx (k : ReedId)
  /-- B8B10_TX (R145): CODE in B8B10_TX mode codes two bytes into decas. -/
  | b8b10Tx (k : ReedId)
  /-- B8B10_RX (R145): CODE in B8B10_RX mode aligns and decodes decas. -/
  | b8b10Rx (k : ReedId)
  /-- HDLC_TX (R146): CODE in HDLC_TX mode stuffs bits or sends flag and abort. -/
  | hdlcTx (k : ReedId)
  /-- HDLC_RX (R147): CODE in HDLC_RX mode destuffs and finds flags and aborts. -/
  | hdlcRx (k : ReedId)
  /-- CAN_TX (R148): CODE in CAN_TX mode stuffs a bit or serves a request. -/
  | canTx (k : ReedId)
  /-- CAN_RX (R148): CODE in CAN_RX mode checks stuffing or serves a request. -/
  | canRx (k : ReedId)
  /-- ASYNC_TX (R152): CODE in ASYNC_TX mode frames a character. -/
  | asyncTx (k : ReedId)
  /-- ASYNC_RX (R152): CODE in ASYNC_RX mode removes character framing and flags errors. -/
  | asyncRx (k : ReedId)
  /-- SLOT_RESET (R135): COD_CTL.SRST resets the selected coder slot. -/
  | slotReset (who : Acc) (v : Word)
  /-- SLOT_RESET_ALL (R135): COD_CTL.SRSTALL resets all slots of the selected reed. -/
  | slotResetAll (who : Acc) (v : Word)
  /-- COD_MODE_WRITE (R159): A COD_MODE write sets the mode, clears PARAM and resets the slot. -/
  | codModeWrite (who : Acc) (v : Word)
  /-- LOCK_FORCE (R350): LCK_FCTL.FORCE releases the selected slot's lock. -/
  | lockForce (who : Acc) (v : Word)
  /-- CONDUIT_ABORT (R355): CND_CTL.ABORT discards the writer's open message. -/
  | conduitAbort (who : Acc) (v : Word)
  /-- CONDUIT_FLUSH (R356): CND_CTL.FLUSH discards every message of the conduit. -/
  | conduitFlush (who : Acc) (v : Word)
  /-- DOORBELL_PASS (R410): The engine reads the doorbell block and fetches new entries. -/
  | doorbellPass
  /-- KNOCK (R411): A rising edge of JX_KNOCK requests a doorbell pass. -/
  | knock (level : Bool)
  /-- KNOCK_WRITE (R410): HRG_KNOCK requests a doorbell pass. -/
  | knockWrite (who : Acc) (v : Word)
  /-- DOORBELL_POLL (R410): Every 65,536 cycles without ticks a pass is requested. -/
  | doorbellPoll
  /-- RING_ENABLE (R412): HRG_RCTL.EN set to 1 makes a ring ACTIVE. -/
  | ringEnable (who : Acc) (v : Word)
  /-- RING_DISABLE (R412): HRG_RCTL.EN set to 0 drains the ring to OFF. -/
  | ringDisable (who : Acc) (v : Word)
  /-- RING_RESTART (R412): HRG_RCTL.RESTART returns a STOPPED ring to ACTIVE. -/
  | ringRestart (who : Acc) (v : Word)
  /-- INITIATOR_RESPONSE (R399): A host response to an initiator-port transaction arrives. -/
  | initiatorResponse (id : BitVec 6) (code : BitVec 2) (data : List Byte)
  /-- TX_DESCRIPTOR (R418): A fetched TXQ entry starts a frame on port 24. -/
  | txDescriptor (k : Fin 8)
  /-- TX_CELL_RETRY (R418): A refused TX allocation is retried at a round boundary. -/
  | txCellRetry (k : Fin 8)
  /-- TX_WRITEBACK (R420): A TX entry is written back in index order. -/
  | txWriteback (k : Fin 8)
  /-- RX_BUFFER_POST (R421): A fetched RXQ entry offers an empty buffer. -/
  | rxBufferPost (k : Fin 8)
  /-- RX_FRAME_WRITE (R422): A port 24 frame is written to RXQ buffers once enough are held. -/
  | rxFrameWrite (k : Fin 8)
  /-- COMMAND_HANDOVER (R415): A CMDQ command is handed to the command unit with a reserved CPLQ entry. -/
  | commandHandover
  /-- KEEPER_IRQ (R429): HRG_KIRQ sets HRG_ISTAT.KEEPER. -/
  | keeperIrq (who : Acc) (v : Word)
  /-- COMMAND_TAKE (R442): KEY_CTAKE marks the commit point of the pending command. -/
  | commandTake (who : Acc) (v : Word)
  /-- COMMAND_DONE (R442): KEY_CDONE completes the pending Keeper command. -/
  | commandDone (who : Acc) (v : Word)
  /-- CMD_NOP (R438): Command NOP completes with DONE. -/
  | cmdNop
  /-- GET_STATE (R438): Command returns identity, state, L, CEIL and KEY_BEHMASK. -/
  | getState
  /-- ABORT (R440): Command aborts a target command before its commit point. -/
  | abort
  /-- SET_LATENCY (R473): Command sets the power latency tolerance. -/
  | setLatency
  /-- PROVISION (R447): Command writes KS0, DEVSN and the provisioned state to a blank Ledger. -/
  | provision
  /-- SELFTEST (R493): Command runs the logic and memory self-tests. -/
  | selftest
  /-- LOAD_IMAGE (R460): Command loads and checks an Oakoeb image and enters RUN. -/
  | loadImage
  /-- KEY_CHANGE (R448): Command raises a key slot's generation. -/
  | keyChange
  /-- LINK_ENABLE (R438): Critical command enables and disables links. -/
  | linkEnable
  /-- SCHEDULE_CHANGE (R438): Critical command writes and applies a row set. -/
  | scheduleChange
  /-- SUNDIAL_SET_STEP (R438): Critical command steps Sundial. -/
  | sundialSetStep
  /-- SUNDIAL_SET_LOAD (R438): Critical command loads Sundial. -/
  | sundialSetLoad
  /-- RESET_ENGINE (R480): Critical command with scope ENGINE resets and boots. -/
  | resetEngine
  /-- RESET_ENGINE_NOBOOT (R480): Critical command with scope ENGINE_NOBOOT resets into SETUP. -/
  | resetEngineNoboot
  /-- DEBUG_UNLOCK (R502): Critical command sets the target-port debug level. -/
  | debugUnlock
  /-- LEDGER_WRITE (R438): Critical command writes words of the Ledger user region. -/
  | ledgerWrite
  /-- COUNTER_SEAL (R436): Critical command advances L. -/
  | counterSeal
  /-- MAINTENANCE_ENTER (R492): Command enters MAINTENANCE, stopping ticks, schedules and links. -/
  | maintenanceEnter
  /-- MAINTENANCE_LEAVE (R490): Command leaves MAINTENANCE through an engine reset. -/
  | maintenanceLeave
  /-- FIRMWARE_COMMAND (R438): Non-critical command 0x80 to 0xBF carried out by the Keeper. -/
  | firmwareCommand
  /-- FIRMWARE_COMMAND_CRITICAL (R438): Critical command 0xC0 to 0xFF carried out by the Keeper. -/
  | firmwareCommandCritical
  /-- LDG_WRITE (R465): LDG_CTL.WRITE starts a Keeper Ledger word write. -/
  | ldgWrite (who : Acc) (v : Word)
  /-- LEDGER_WORD_WRITE_DONE (R454): A Ledger word write and verify end after 512 cycles. -/
  | ledgerWordWriteDone
  /-- LEDGER_READ_START (R465): An LDG_ADDR write starts a Ledger read. -/
  | ledgerReadStart (who : Acc) (v : Word)
  /-- LEDGER_READ_DONE (R465): The Ledger read data is valid 16 cycles later. -/
  | ledgerReadDone (who : Acc)
  /-- HOURS (R455): At each full powered hour HOURS is written. -/
  | hours
  /-- POWER_STATE_ENTRY (R472): The controller chooses the deepest allowed power state and starts entry. -/
  | powerStateEntry
  /-- POWER_ENTRY_END (R472): The chosen power state takes effect at the end of its entry. -/
  | powerEntryEnd
  /-- POWER_EXIT_START (R474): A wake or alarm lead starts the exit from a power state. -/
  | powerExitStart
  /-- POWER_EXIT_END (R475): The exit latency ends and the engine runs again. -/
  | powerExitEnd
  /-- BARREL_GATE (R468): A barrel with nothing to issue is gated. -/
  | barrelGate (p : Pav)
  /-- BARREL_UNGATE (R469): A gated barrel restarts on an event that can let a thread issue. -/
  | barrelUngate (p : Pav)
  /-- HOST_WAKE (R471): PWR_WAKE wakes every power state. -/
  | hostWake (who : Acc) (v : Word)
  /-- LINK_WAKE (R477): An edge on an LWAKE link's watched signal wakes NAP. -/
  | linkWake (n : LinkId) (pins : BitVec 16)
  /-- POWER_ON_RESET (R528): The power-on detector holds or puts the block in full reset. -/
  | powerOnReset (level : Bool)
  /-- BLOCK_RESET_ASSERT (R479): JX_RESET_N low puts the block in full reset. -/
  | blockResetAssert
  /-- BLOCK_RESET_RELEASE (R479): The full reset is released and the PLL starts. -/
  | blockResetRelease
  /-- PLL_LOCK (R486): The PLL locks, Sundial starts counting and memory initialisation begins. -/
  | pllLock
  /-- MEMORY_INIT_END (R486): Memory initialisation ends and the RESET entry is queued. -/
  | memoryInitEnd
  /-- BOOT_DECISION (R488): The boot ROM's first issue chooses SETUP, LOADING or MAINTENANCE. -/
  | bootDecision
  /-- BOOT_GO (R489): JX_BOOT_CTL.GO starts the boot path in SETUP. -/
  | bootGo (who : Acc) (v : Word)
  /-- WATCHDOG_EXPIRY (R494): The watchdog expires and causes an engine reset. -/
  | watchdogExpiry
  /-- WATCHDOG_KICK (R494): RST_WDKICK restarts the watchdog period. -/
  | watchdogKick (who : Acc) (v : Word)
  /-- WATCHDOG_ENABLE (R494): RST_WDCTL.EN enables the watchdog until the next reset. -/
  | watchdogEnable (who : Acc) (v : Word)
  /-- BIST_GO (R493): RST_BISTCTL.GO starts the self-tests. -/
  | bistGo (who : Acc) (v : Word)
  /-- BIST_END (R493): A self-test ends and causes an engine reset of cause BIST. -/
  | bistEnd (failed : BitVec 2) (mem : Byte) (idx : BitVec 24) (where_ : BitVec 4)
  /-- SCRUB_VISIT (R495): The scrubber visits a word and rewrites a corrected error. -/
  | scrubVisit (mem : Fin 12) (idx : Word)
  /-- CHALLENGE_REQUEST (R501): HIDE_CHALCTL.REQ draws a fresh debug challenge. -/
  | challengeRequest (who : Acc) (v : Word)
  /-- RESPONSE_CHECK (R502): A HIDE_RESP3 write checks the TAP response. -/
  | responseCheck (who : Acc) (v : Word)
  /-- AUTH_DROP (R503): HIDE_CHALCTL.DROP drops the owning path to NONE. -/
  | authDrop (who : Acc) (v : Word)
  /-- COOL_EXPIRY (R502): The cool-down after a failed response ends. -/
  | coolExpiry
  /-- HIDE_ACCESS_READ (R504): HIDE_ACMD read starts a quiet register or memory read. -/
  | hideAccessRead (who : Acc) (v : Word)
  /-- HIDE_ACCESS_WRITE (R504): HIDE_ACMD write starts a register or memory write. -/
  | hideAccessWrite (who : Acc) (v : Word)
  /-- HIDE_CODE_READ (R506): HIDE_ACMD with SPACE 1 reads a code word. -/
  | hideCodeRead (who : Acc) (v : Word)
  /-- HIDE_CODE_WRITE (R506): HIDE_ACMD with SPACE 1 writes a code word. -/
  | hideCodeWrite (who : Acc) (v : Word)
  /-- HIDE_ACCESS_DONE (R504): A Hide access receives its response and BUSY clears. -/
  | hideAccessDone
  /-- HIDE_HALT (R507): HIDE_HCTL.HALT halts the selected thread. -/
  | hideHalt (who : Acc) (v : Word)
  /-- HIDE_RESUME (R509): HIDE_HCTL.RESUME returns the thread to PREV. -/
  | hideResume (who : Acc) (v : Word)
  /-- HIDE_STEP (R509): HIDE_HCTL.STEP resumes the thread for one instruction. -/
  | hideStep (who : Acc) (v : Word)
  /-- HALTPAV (R507): Halts every thread of the selected thread's pavilion. -/
  | haltpav (who : Acc) (v : Word)
  /-- RESUMEPAV (R509): Resumes every thread of the pavilion. -/
  | resumepav (who : Acc) (v : Word)
  /-- HALTALL (R507): Halts every thread of the engine. -/
  | haltall (who : Acc) (v : Word)
  /-- RESUMEALL (R509): Resumes every thread of the engine. -/
  | resumeall (who : Acc) (v : Word)
  /-- THREAD_HALTED (R507): The thread becomes HALTED once its in-flight instructions complete. -/
  | threadHalted (t : Tid)
  /-- HALTED_REGISTER_WRITE (R511): HIDE_HDATA writes a register of a halted thread. -/
  | haltedRegisterWrite (who : Acc) (v : Word)
  /-- FEED_GO (R511): HIDE_FEED.GO feeds one instruction to a halted thread. -/
  | feedGo (who : Acc) (v : Word)
  /-- FEED_DONE (R511): The fed instruction completes and FSTAT reports the result. -/
  | feedDone
  /-- VT_TX_WRITE (R518): A thread writes HIDE_TXDp into the terminal FIFO. -/
  | vtTxWrite (who : Acc) (p : Pav) (v : Word)
  /-- VT_TX_READ (R518): A debug path pops HIDE_TXDp. -/
  | vtTxRead (who : Acc) (p : Pav)
  /-- VT_RX_WRITE (R519): A debug path writes HIDE_RXDp for a thread. -/
  | vtRxWrite (who : Acc) (p : Pav) (v : Word)
  /-- VT_RX_READ (R519): The tagged thread reads and pops HIDE_RXDp. -/
  | vtRxRead (who : Acc) (p : Pav)
  /-- STIM_VALUE (R520): A write to a VALUE stimulus port emits a STIM packet. -/
  | stimValue (who : Acc) (n : Fin 32) (v : Word)
  /-- STIM_TALLY (R520): A write to a TALLY stimulus port adds to its tally. -/
  | stimTally (who : Acc) (n : Fin 32) (v : Word)
  /-- STIM_MARK (R520): A write to a MARK stimulus port emits SYNC and STIM packets. -/
  | stimMark (who : Acc) (n : Fin 32) (v : Word)
  /-- TALLY_CLEAR (R520): HIDE_SPCFG.TCLR clears the selected port's tally. -/
  | tallyClear (who : Acc) (v : Word)
  /-- TAP_CAPTURE (R534): Capture-DR loads the result of the last Hide access. -/
  | tapCapture
  /-- TAP_UPDATE (R534): Update-DR starts a HIDE_ block access. -/
  | tapUpdate (dr : BitVec 64)
  /-- TAP_RESET (R534): JX_D_TRST_N abandons an access in progress. -/
  | tapReset
  /-- TICK_RUNNING_CLEAR (R46): At the first round boundary whose decision cycle follows the clearing of TIK_CTL.RUN, launches stop and TIK_STAT.RUNNING clears, putting pending tick settings and slot tables into force, expiring flap holds and sending synchronised schedule layers to LISTEN. -/
  | tickRunningClear
  /-- GRID_FRAME_BOUNDARY (R222): Sundial reaches a grid frame boundary of a link's schedule layer, at which an EN clear takes the layer to OFF, a rechecked or newly enabled layer enters LISTEN or LOCAL, and a layer resumes after ticks run again. -/
  | gridFrameBoundary (n : LinkId)
  deriving DecidableEq, Repr

end Sys2Proof
end

