-- ==== Sys2Proof/Config.lean ====
section
/-! DEFINITION. What one part of the JX-2463 fixes and the spec leaves open: part identity (R12, R462), the strap of the
reference clock (R525), boot ROM contents (R318), and the free values (opaque, with no body). -/

namespace Sys2Proof

/-- The silicon revision before the limit of R12 is applied: any value. -/
opaque Config.rawSirev : BitVec 4
/-- The behavioural revision before the limit of R12 is applied: any value. -/
opaque Config.rawBehrev : BitVec 4
/-- The mask of accepted behavioural revisions before the limits of R462 are applied: any value. -/
opaque Config.rawBehmask : BitVec 20
/-- The two straps JX_REFSEL that name the reference clock (R525): any value. -/
opaque Config.refSel : BitVec 2
/-- The REFCLK periods after which the PLL relocks in an exit from DORMANT (R75), before the limit of the exit's length is applied: any value. -/
opaque Config.relockAfter : Nat
/-- A byte of the boot ROM, whose contents the spec does not give (R318). -/
opaque Config.bootRom : Nat → BitVec 8
/-- The free word number `n`: each value the spec calls undefined takes the next one (State.freeCtr). -/
opaque Config.freeWord : Nat → BitVec 64
/-- The clause 146 seed of the 10BASE-T1L scrambler, of the MASTER (false) or the SLAVE (true): the spec names it (R135) and gives no number. -/
opaque Config.t1lSeed : Bool → BitVec 64
/-- The 10BASE-T1L transmit PCS of clause 146, which R144 names and does not reproduce: coder state and
coder operand (transmission word and PARAM) to the next state and the symbols. -/
opaque Config.t1lTx : BitVec 64 → BitVec 32 → BitVec 64 × BitVec 20
/-- The 10BASE-T1L receive PCS of clause 146: coder state, symbols and PARAM to the next state, the decoded word and lock. -/
opaque Config.t1lRx : BitVec 64 → BitVec 32 → BitVec 64 × BitVec 20 × Bool

/-- SIREV: 1 upwards (R12). -/
def Config.sirev : Nat := if Config.rawSirev.toNat = 0 then 1 else Config.rawSirev.toNat
/-- BEHREV: 1 upwards (R12). -/
def Config.behrev : Nat := if Config.rawBehrev.toNat = 0 then 1 else Config.rawBehrev.toNat

end Sys2Proof
end

