-- ==== Sys2Proof/Machine/Tab.lean ====
section
/-! DEFINITION. Sparse tables: lists of (index, value) pairs with rising indices, and small helpers over Nat and List.
Memories (Mem) add the canonical form: no entry equal to what an unlisted index reads as. -/

namespace Sys2Proof.Machine

/-- A sparse table. -/
abbrev Tab (α : Type) := List (Nat × α)

/-- The value at index `i`, `d` where none is listed. -/
def Tab.get {α : Type} (d : α) : Tab α → Nat → α
  | [], _ => d
  | (j, v) :: t, i => if j = i then v else Tab.get d t i

/-- Sets the value at index `i`. -/
def Tab.put {α : Type} : Tab α → Nat → α → Tab α
  | [], i, v => [(i, v)]
  | (j, w) :: t, i, v =>
    if i < j then (i, v) :: (j, w) :: t
    else if i = j then (i, v) :: t
    else (j, w) :: Tab.put t i v

/-- Removes index `i`. -/
def Tab.del {α : Type} : Tab α → Nat → Tab α
  | [], _ => []
  | (j, w) :: t, i => if j = i then Tab.del t i else (j, w) :: Tab.del t i

/-- Is index `i` listed? -/
def Tab.has {α : Type} : Tab α → Nat → Bool
  | [], _ => false
  | (j, _) :: t, i => if j = i then true else Tab.has t i

/-- The value listed at index `i`, if any. -/
def Tab.find {α : Type} : Tab α → Nat → Option α
  | [], _ => none
  | (j, v) :: t, i => if j = i then some v else Tab.find t i

/-- Sets the value at `i` of a memory whose unlisted cells read `d`: writing `d` removes the entry. -/
def Tab.write {α : Type} [DecidableEq α] (d : α) (m : Tab α) (i : Nat) (v : α) : Tab α :=
  if v = d then Tab.del m i else Tab.put m i v

/-- Indices rise strictly from above `lo`, and no entry holds `d`. -/
def Tab.wfFrom {α : Type} [DecidableEq α] (d : α) : Nat → Tab α → Bool
  | _, [] => true
  | lo, (j, v) :: t => decide (lo ≤ j) && decide (v ≠ d) && Tab.wfFrom d (j + 1) t

/-- The canonical form of a memory whose unlisted cells read `d`. -/
def Tab.wf {α : Type} [DecidableEq α] (d : α) (m : Tab α) : Bool := Tab.wfFrom d 0 m

/-- Bits [hi:lo] of a number. -/
def bits (n hi lo : Nat) : Nat := (n >>> lo) % 2 ^ (hi + 1 - lo)

/-- Bit `i` of a number. -/
def bit (n i : Nat) : Bool := (n >>> i) % 2 == 1

/-- 1 for true, 0 for false. -/
def b2n (b : Bool) : Nat := if b then 1 else 0

/-- `n` with bits [hi:lo] replaced by `v`. -/
def setBits (n hi lo v : Nat) : Nat :=
  n - ((bits n hi lo) <<< lo) + ((v % 2 ^ (hi + 1 - lo)) <<< lo)

/-- The value of the low `w` bits of `n` as two's complement. -/
def signed (w n : Nat) : Int :=
  let m := n % 2 ^ w
  if m < 2 ^ (w - 1) then (m : Int) else (m : Int) - (2 ^ w : Nat)

/-- An integer modulo 2^w. -/
def toMod (w : Nat) (z : Int) : Nat := (z % ((2 ^ w : Nat) : Int)).toNat

/-- The bytes of `n`, least significant first. -/
def leBytes : Nat → Nat → List (BitVec 8)
  | 0, _ => []
  | k + 1, n => BitVec.ofNat 8 n :: leBytes k (n / 256)

/-- The number that a list of bytes holds, least significant first. -/
def leVal : List (BitVec 8) → Nat
  | [] => 0
  | b :: t => b.toNat + 256 * leVal t

/-- The byte at position `i` of a list, 0 beyond its end. -/
def byteAt (l : List (BitVec 8)) (i : Nat) : Nat := (l.getD i 0).toNat

/-- `n` bytes of a list from position `i` as a little-endian number. -/
def leAt (l : List (BitVec 8)) (i n : Nat) : Nat := leVal ((l.drop i).take n)

/-- `l` with the bytes `b` at position `i` (the list is long enough). -/
def splice (l b : List (BitVec 8)) (i : Nat) : List (BitVec 8) := l.take i ++ b ++ l.drop (i + b.length)

/-- Position `i` of a list replaced. -/
def setAt {α : Type} : List α → Nat → α → List α
  | [], _, _ => []
  | _ :: t, 0, v => v :: t
  | a :: t, i + 1, v => a :: setAt t i v

/-- Applies `f` to each element and the state in turn. -/
def foldS {α σ : Type} (f : α → σ → σ) (l : List α) (s : σ) : σ := l.foldl (fun s a => f a s) s

end Sys2Proof.Machine
end

