-- ==== Sys2Proof/Machine/Aes.lean ====
section
/-! DEFINITION. AES-128-CMAC (17_commands_keys.md R443, R448, R458; 20_hide_debug.md R502), which the spec names and does not
reproduce: AES-128 and CMAC as FIPS 197 and NIST SP 800-38B give them (PRESUMED, assumption 17). -/

namespace Sys2Proof.Machine.Aes

/-- Doubling in GF(2^8). -/
def dbl (a : Nat) : Nat := if a < 128 then 2 * a else (2 * a) % 256 ^^^ 0x1B

/-- Product in GF(2^8) over the low `k` bits of `b`. -/
def gmul : Nat → Nat → Nat → Nat
  | 0, _, _ => 0
  | k + 1, a, b => (if b % 2 = 1 then a else 0) ^^^ gmul k (dbl a) (b / 2)

def sq (a : Nat) : Nat := gmul 8 a a

/-- The inverse in GF(2^8): a^254 (0 for 0). -/
def ginv (a : Nat) : Nat :=
  let a2 := sq a
  let a4 := sq a2
  let a8 := sq a4
  let a16 := sq a8
  let a32 := sq a16
  let a64 := sq a32
  let a128 := sq a64
  gmul 8 a128 (gmul 8 a64 (gmul 8 a32 (gmul 8 a16 (gmul 8 a8 (gmul 8 a4 a2)))))

def rotl8 (x n : Nat) : Nat := (x <<< n ||| x >>> (8 - n)) % 256

/-- The S-box. -/
def sbox (a : Nat) : Nat :=
  let i := ginv a
  i ^^^ rotl8 i 1 ^^^ rotl8 i 2 ^^^ rotl8 i 3 ^^^ rotl8 i 4 ^^^ 0x63

/-- Byte-wise exclusive or. -/
def xorL (a b : List Nat) : List Nat := a.zipWith (· ^^^ ·) b

/-- The next round key; `rc` the round constant. -/
def nextKey (rc : Nat) (k : List Nat) : List Nat :=
  let w (i : Nat) : List Nat := (k.drop (4 * i)).take 4
  let t := w 3
  let t := xorL [sbox (t.getD 1 0), sbox (t.getD 2 0), sbox (t.getD 3 0), sbox (t.getD 0 0)] [rc, 0, 0, 0]
  let w0 := xorL (w 0) t
  let w1 := xorL (w 1) w0
  let w2 := xorL (w 2) w1
  w0 ++ w1 ++ w2 ++ xorL (w 3) w2

/-- SubBytes and ShiftRows: byte 4c + r of the result comes from column c + r. -/
def subShift (s : List Nat) : List Nat :=
  (List.range 16).map (fun i => sbox (s.getD ((i + 4 * (i % 4)) % 16) 0))

/-- MixColumns. -/
def mixCols (s : List Nat) : List Nat :=
  (List.range 16).map (fun i =>
    let b (j : Nat) : Nat := s.getD (i / 4 * 4 + (i % 4 + j) % 4) 0
    dbl (b 0) ^^^ (dbl (b 1) ^^^ b 1) ^^^ b 2 ^^^ b 3)

/-- The rounds: `n` with MixColumns, then the last. -/
def rounds : Nat → Nat → List Nat → List Nat → List Nat
  | 0, rc, k, s => xorL (subShift s) (nextKey rc k)
  | n + 1, rc, k, s =>
    let k' := nextKey rc k
    rounds n (dbl rc) k' (xorL (mixCols (subShift s)) k')

/-- One block of AES-128. -/
def block (key s : List Nat) : List Nat := rounds 9 1 key (xorL s key)

/-- Doubling of a block, most significant byte first: CMAC subkeys. -/
def dblBlock (b : List Nat) : List Nat :=
  let n := b.foldl (fun a x => a * 256 + x) 0
  let d := (2 * n) % 2 ^ 128 ^^^ (if 2 ^ 127 ≤ n then 0x87 else 0)
  ((List.range 16).reverse).map (fun i => d / 256 ^ i % 256)

/-- CBC over `n` blocks before the last, which is already masked. -/
def cbc (key : List Nat) : Nat → List Nat → List Nat → List Nat → List Nat
  | 0, _, last, x => block key (xorL last x)
  | n + 1, m, last, x => cbc key n (m.drop 16) last (block key (xorL (m.take 16) x))

/-- AES-128-CMAC of a message of bytes. -/
def cmac (key m : List Nat) : List Nat :=
  let k1 := dblBlock (block key (List.replicate 16 0))
  let n := (m.length - 1) / 16
  let tail := m.drop (16 * n)
  let last := if tail.length = 16 then xorL tail k1
    else xorL (tail ++ [0x80] ++ List.replicate (15 - tail.length) 0) (dblBlock k1)
  cbc key n m last (List.replicate 16 0)

end Sys2Proof.Machine.Aes
end

