-- ==== Sys2Proof/Machine/UnitState.lean ====
section
/-! DEFINITION. The state of the reeds and coders, the links, the Basin and its switch, the schedule layers, as plain data. -/

namespace Sys2Proof.Machine

/-! ### Reeds (05_reeds.md) -/

/-- One side of a reed's divider (R105): position of the next tick and of the last tick, and the period, in 2^-20 cycle;
`shift` a correction that applies after the next tick (R153); `after` the position from which ticks of a pin count (R107), `fresh` the
cycle plus 1 of the last restart (R154). -/
structure Side where
  next : Nat := 0
  last : Nat := 0
  per : Nat := 4 * 2 ^ 20
  shift : Int := 0
  after : Nat := 0
  fresh : Nat := 0
  deriving DecidableEq, Repr

/-- A pending timed action (R69, R117): time (T80), kind 0 PIN, 1 OSTART, 2 FIRE, its operands, the cycle of its posting;
`start`: the OSTART that starts a frame, with the frame's deadline if it has one (R121). -/
structure ReedAct where
  time : Nat
  kind : Nat
  pin : Nat
  level : Bool
  ch : Nat
  posted : Nat
  start : Option (Option Nat)
  deriving DecidableEq, Repr

/-- A change of output signals that a SETP has issued, for phase 0 of a cycle (R104): levels or enables, the signals, their values. -/
structure PinSet where
  due : Nat
  enable : Bool
  mask : Nat
  val : Nat
  deriving DecidableEq, Repr

/-- The private state of a coder slot (06_line_coding.md R135); `t1l` none is 10BASE-T1L's clause 146 seed, `t1Open` it decodes data. `prev` the previous input, `lock` the bits kept at lock, `tSeen`
a T that awaits its R, `rd` positive running disparity, `lev` the NRZI level, `ones` and `win` of HDLC, `mode` (0
DYNAMIC, 1 FIXED, 2 OFF), `prevBit`, `run`, `stuffs`, `since` of CAN, `viol` the violations in a row, `t1l` and
`t1Lock` of 10BASE-T1L. -/
structure Coder where
  prev : Option Nat := none
  lock : Option Nat := none
  tSeen : Bool := false
  rd : Bool := false
  lev : Bool := false
  ones : Nat := 0
  win : List Bool := []
  mode : Nat := 2
  prevBit : Bool := false
  run : Nat := 0
  stuffs : Nat := 0
  since : Nat := 0
  viol : Nat := 0
  t1l : Option (BitVec 64) := none
  t1Lock : Bool := false
  t1Open : Bool := false
  deriving DecidableEq, Repr

/-- What a CODE gives: CDO, CK, CV, the bits that C = 1 feeds to the CRC, the slot's state, a rate or tracker request (R148:
4 DATA_RATE to 7 TRK_ON). -/
structure CodeOut where
  cdo : Nat
  ck : Bool := false
  cv : Bool := false
  feed : List Bool := []
  st : Coder
  req : Option Nat := none
  deriving DecidableEq, Repr

/-- A CODE between its two cycles (R115, R134): the cycle in which it completes, its slot, C, what it gives, and the position of the latest
input tick at its issue (R151). -/
structure CodePend where
  till : Nat
  slot : Nat
  crc : Bool
  out : CodeOut
  tick : Nat
  deriving DecidableEq, Repr

/-- A reed (R100). Registers, CRC accumulator, ATIME, CAPT (with cycle and phase), FLT (T80), the input stage, the samples on
their path to it with their cycles (R109), the output stage with the cycle from which ticks take its bits, both divider sides, FIFO, mailbox with its write cycle, task input
count, condition latches, program banks with wrap sets, PC; `st` 0 STOPPED, 1 ARMED, 2 RUN; `waitCode` of R133;
`ready` the cycle from which it issues; `levels`, `enables` of its output signals, `sets` their changes to come; `frame` an egress frame's first word
was taken and its OSTART is awaited, with its deadline if it has one (R121); `markIn` the time that MARK took, `markOut` 1 after MARK and 2 after the SOUT that follows (R117); `tset`
the committed time; `hold`, `dset` of R151, R153; `lastSample`, `corrected` of R153; slots. What this cycle brings and its end makes stand:
words pushed to the FIFO and words popped (R122), the time that a thread commits (R133), a FORCE (R131); `swapAt` the cycle plus 1 of the
last SWAP (R130); `code` a CODE in its second cycle, `hit` the sample that a WAITP waits for came: its cycle, position and time (R115);
`edges` the positions (16 · cycle + phase) of the last edges of the output clock pin (R107); `haltAt`, `startAt` the cycle plus 1 of the
last HALT and START, `startOf` state and PC before that START (R125). -/
structure Reed where
  rxw : Word := 0
  txw : Word := 0
  qa : Word := 0
  qb : Word := 0
  cdo : Word := 0
  crc : Nat := 0
  atime : Nat := 0
  capt : Nat := 0
  captPos : Nat := 0
  flt : Nat := 0
  acts : List ReedAct := []
  istage : List Bool := []
  ipath : List (Nat × List Bool) := []
  ostage : List Bool := []
  ofrom : Nat := 0
  iside : Side := {}
  oside : Side := {}
  fifo : List Word := []
  mbx : Option (Word × Nat) := none
  ev : Nat := 0
  cv : Bool := false
  ck : Bool := false
  first : Bool := false
  last : Bool := false
  bad : Bool := false
  timed : Bool := false
  late : Bool := false
  bank0 : Tab Word := []
  bank1 : Tab Word := []
  wrap0 : Word := 0x3F
  wrap1 : Word := 0x3F
  abank : Bool := false
  swap : Bool := false
  pc : Nat := 0
  st : Nat := 0
  waitCode : Nat := 0
  waitUntil : Nat := 0
  ready : Nat := 0
  levels : Nat := 0
  enables : Nat := 0
  sets : List PinSet := []
  frame : Option (Option Nat) := none
  markIn : Nat := 0
  markOut : Nat := 0
  tset : Nat := 0
  hold : Bool := false
  dset : Bool := false
  lastSample : Bool := false
  corrected : Bool := false
  slots : Tab Coder := []
  fpush : List Word := []
  fpops : Nat := 0
  tsetNext : Option Nat := none
  force : Bool := false
  swapAt : Nat := 0
  code : Option CodePend := none
  hit : Option (Nat × Nat × Nat) := none
  edges : List Nat := []
  haltAt : Nat := 0
  startAt : Nat := 0
  startOf : Nat × Nat := (0, 0)
  deriving DecidableEq, Repr

/-! ### Links and the Basin (04_link_ports.md, 07_basin_switching.md) -/

/-- A beat held by an ingress mover (R94): its frame, the position of its first byte in the frame (from 0), the bytes, and
whether it is the frame's last or holds the last lookup byte (R172); the cycle in which its last word came: it is held from the next
cycle on (R119). -/
structure Beat where
  seq : Nat
  off : Nat
  bytes : List Byte
  flush : Bool
  at' : Nat
  deriving DecidableEq, Repr

/-- An ingress mover (R94, R95, R544): the open frame, the run being discarded, the beats, the bytes of the open frame
received, its first bytes, its CRC-32 accumulator (R81), the start-of-frame point (R96), whether it was looked up, the
schedule check that forces tag 0x8 (R220), the class committed (0 before, R97); `mid` the closed mover is inside a frame of its source
(R87). -/
structure Ingress where
  seq : Option Nat := none
  discard : Bool := false
  beats : List Beat := []
  n : Nat := 0
  hdr : List Byte := []
  crc : Nat := 0xFFFFFFFF
  sof : Nat := 0
  looked : Bool := false
  reject : Bool := false
  cls : Nat := 0
  mid : Bool := false
  deriving DecidableEq, Repr

/-- A frame handed to a link by the schedule engine: its bytes, reference or null (R218). -/
structure GenFrame where
  bytes : List Byte
  isRef : Bool
  deriving DecidableEq, Repr

/-- An egress port in a transmission (R94, R178 to R185): the frame (SEQ) or a generated frame; `startCyc` the cycle of its
start, `sof` its start-of-frame point, `rd` bytes read, `buf` words that wait for the TXR, `abort` the frame ends bad,
`late` (R93); `launch` its launch time, `started` on the pins or its first
word taken, `dropped` by its deadline after that (R121); `tail`: it is ended under the bad-tail rule (R184). In MII and RMII modes: the phase of
its first transmit clock edge, `placed` its start-of-frame point has passed (R96), the bytes read and not yet sent with the position of the
first, the CRC-32 of those sent (R185), the cycle in which the port learnt of the abort, and whether the transmit clock has stopped (R89). -/
structure Sending where
  seq : Option Nat
  gen : Option GenFrame
  cls : Nat
  startCyc : Nat
  sof : Nat := 0
  rd : Nat := 0
  buf : List Word := []
  abort : Bool := false
  started : Bool := false
  late : Bool := false
  ct : Bool := false
  launch : Option Nat := none
  dropped : Bool := false
  tail : Bool := false
  phase : Nat := 0
  placed : Bool := false
  out : List Byte := []
  outAt : Nat := 0
  crc : Nat := 0xFFFFFFFF
  abortAt : Nat := 0
  clkLost : Bool := false
  deriving DecidableEq, Repr

/-- The mode (1 MII, 2 RMII) and the speed of a link's logic: `slow` 10 Mbit/s (R80 to R83). -/
structure Mac where
  mode : Nat
  slow : Bool
  deriving DecidableEq, Repr

/-- A timestamp record (R97): T80, words 4 and 5. -/
structure TsRec where
  t80 : Nat
  w4 : Word
  w5 : Word
  deriving DecidableEq, Repr

/-- A link (04_link_ports.md): launches counted by the training timer and by the hold, a flush's snapshot (SEQ, class) and next
release cycle, the state before a DOWN whose LNK_STATE waits (R85), movers, record FIFOs, T80 of the port's last end of
transmission and its cycle (R81), the levels `ext` that the outside last gave its 16 signals and the levels `pins` that they have with what the block
drives (R78, R102), those at phase 15
of the three cycles before (`pins1` to `pins3`, R102), the levels `before` the last position at which levels were given, and that position plus
1 (`chg`, 16 · cycle + phase; R66, R115), the frames the schedule handed over with their launch times, the cycles plus 1 of the
last setting of EN and of the start of the counting of launches (R85, R86, R90); the events of this cycle that its end takes against the state at its
start (R86): a loss with its source, an UP_REQ, the expiry of the hold; the records pushed in this cycle (egress, record), which go in after its
pops (R97); the abort sequence of a frame that an engine reset met in MII or RMII mode (R483). -/
structure Link where
  ticks : Nat := 0
  flush : List (Nat × Nat) := []
  flushAt : Nat := 0
  flushFire : Bool := false
  ing : Ingress := {}
  eg : Option Sending := none
  tsi : List TsRec := []
  tse : List TsRec := []
  freeAt : Nat := 0
  freeCyc : Nat := 0
  ext : Nat := 0
  pins : Nat := 0
  pins1 : Nat := 0
  pins2 : Nat := 0
  pins3 : Nat := 0
  before : Nat := 0
  chg : Nat := 0
  handed : List Sending := []
  enAt : Nat := 0
  ticksAt : Nat := 0
  loss : Nat := 0
  upReq : Bool := false
  expire : Bool := false
  tsx : List (Bool × TsRec) := []
  tail : Option (Mac × Sending) := none
  deriving DecidableEq, Repr

/-- The levels of a link's signals, all that a full reset leaves of it. -/
def Link.onlyPins (l : Link) : Link :=
  { ext := l.ext, pins := l.pins, pins1 := l.pins1, pins2 := l.pins2, pins3 := l.pins3, before := l.before, chg := l.chg }

/-- The signals have levels `v` from a position on (R66). -/
def Link.setPins (l : Link) (pos v : Nat) : Link :=
  if l.chg = pos + 1 then { l with pins := v } else { l with before := l.pins, chg := pos + 1, pins := v }

/-- A cycle ends: the levels at its phase 15 (R102). -/
def Link.nextCycle (l : Link) : Link := { l with pins1 := l.pins, pins2 := l.pins1, pins3 := l.pins2 }

/-- A verdict (R171): port mask, class, TRAP. -/
structure Verdict where
  mask : Nat := 0
  cls : Nat := 0
  trap : Bool := false
  deriving DecidableEq, Repr

/-- A lookup on its way (R167, R172): the cycle of the word with the last lookup byte, the key with its PCP (none: KIND NONE, which makes no
lookup), whether the frame is tagged, whether its verdict is ready, the entry that it hit. -/
structure Look where
  at' : Nat
  key : Option (Nat × Nat)
  tagged : Bool
  ready : Bool := false
  hit : Option Nat := none
  deriving DecidableEq, Repr

/-- A frame record (R165): head cell, cells, length so far, ended, bad, ingress port, class (DCLS until the commit), verdict,
the cycle in which the verdict commits (R172, R418), committed, counted in H7 (R162), override, launch time, ports it is queued at and ports it is
sent at, bytes in the Basin, start-of-frame point, TX entry (ring, index) and its outcome (status, port), the exclusive
buffer that holds it, cut through, recognised by the schedule engine (R219), `noVerdict` (R189), trapped, `done` the last use
has ended (R163), `readyAt` the T80 at which it became eligible, `charged` its length was subtracted (R187), `relAt` the first cycle in which its next cell may be released (R163); its lookup while its result
or its notice is to come (R172); the cycle of its last word (R184); the thread that has its cells while its last bytes are on their way to
them, or 0 (R199). -/
structure Frame where
  head : Nat
  cells : Nat
  len : Nat := 0
  ended : Bool := false
  bad : Bool := false
  inPort : Nat
  cls : Nat
  verdict : Verdict := {}
  dueAt : Option Nat := none
  committed : Bool := false
  c7 : Bool := false
  override : Option (Nat × Verdict) := none
  launch : Option Nat := none
  queued : List Nat := []
  sending : List Nat := []
  written : Nat := 0
  sof : Nat := 0
  tx : Option (Nat × Nat) := none
  out : Option (Nat × Nat) := none
  buffer : List Nat := []
  ct : Bool := false
  recog : Bool := false
  noVerdict : Bool := false
  trapped : Bool := false
  done : Bool := false
  readyAt : Nat := 0
  charged : Bool := false
  admitted : Bool := false
  relAt : Nat := 0
  look : Option Look := none
  endCyc : Nat := 0
  trapTid : Nat := 0
  deriving DecidableEq, Repr

/-- An entry of the forwarding table (R170): word 0, key, mask. -/
structure FwdEntry where
  w0 : Word := 0
  key : Nat := 0
  mask : Nat := 0
  deriving DecidableEq, Repr

/-- Counts of a pass (R195): leaks, lost, crosses. -/
structure AuditSum where
  leaks : Nat := 0
  lost : Nat := 0
  cross : Nat := 0
  deriving DecidableEq, Repr

/-- A Warden pass (R191): its start cycle, what it has found so far. `dfrees` of Warden counts double frees since the previous pass (R195). -/
structure Warden where
  pass : Option Nat := none
  lastStart : Nat := 0
  dfrees : Nat := 0
  sum : AuditSum := {}
  deriving DecidableEq, Repr

/-- What a chain of cells is allocated for: a thread (R197), an entry of a TX ring (R418), the image that is loaded (17_commands_keys.md R460). -/
inductive AllocFor where
  | thread (t : Nat)
  | tx (r idx : Nat) (entry : List Byte)
  | image
  deriving DecidableEq, Repr

/-- A chain in allocation, one cell a cycle (R162, R197): its cells as wanted, for class 7, those taken in order, the end of BUSY, and its
outcome once it has one. -/
structure Alloc where
  why : AllocFor
  n : Nat
  c7 : Bool
  cells : List Nat := []
  till : Nat
  ok : Option Bool := none
  deriving DecidableEq, Repr

/-- The free list (R161): `front` cells that a refused allocation gave back, then cells from `fresh` on in index order, then `returned`; the oldest
entry of a cell is to be discarded for each time that it stands in `voided` (R192). -/
structure FreeList where
  front : List Nat := []
  fresh : Nat := 0
  returned : List Nat := []
  voided : List Nat := []
  deriving DecidableEq, Repr

/-- The switch: frames by SEQ, queues by 8·port + class, buckets by the same (in 1/256 byte), the free list, forwarding table,
operation in progress (operation, CLRHIT, cycle of its start), notices, trapped frames (SEQ, head, ingress port, class,
length), allocations in progress, chains in release with the cycle of their first cell, Warden, cycle of the last refill. -/
structure Switch where
  frames : Tab Frame := []
  queues : Tab (List Nat) := []
  buckets : Tab Int := []
  free : FreeList := {}
  fwd : Tab FwdEntry := []
  fwdOp : Option (Nat × Bool × Nat) := none
  notices : List (List Word) := []
  traps : List (List Nat) := []
  allocs : List Alloc := []
  drops : List (Nat × List Nat) := []
  warden : Warden := {}
  refillAt : Nat := 0
  deriving DecidableEq, Repr

/-! ### Scheduled windows (08_scheduled_windows.md) -/

/-- A row set (R209). -/
structure RowSet where
  base : Nat
  rb : Nat
  wpr : Nat
  deriving DecidableEq, Repr

/-- The schedule layer of a link (R206 to R224): `st` 0 OFF, 1 LISTEN, 2 LOCAL, 3 MASTER, 4 FOLLOWER, 5 SILENT; CCOFF; D in
125 ps, with the values that windows before some window (frame start, window) keep (R221); the row set in force with the one before it and the
frame start from which it is in force, pending (with Sundial at the end of its checks, in 125 ps, and the matrix boundary of its take-over) and
in its checks (end cycle, passed); the frame start `j0` and window `w` to check next, `live` once windows run; `fb` the grid frame last begun; the grid
frame boundaries the listen timer still waits for; MISSRUN; SILENT's run of references within the bound; `refDone` the frame
start plus 1 whose REF window is settled; OFF due, and entry or re-entry due, at the next boundary, in the latter case from the state that R210 gives; the last first choice counted in NOFIT with its window (frame start,
window); a reference that waits to be processed (bytes, start-of-frame point); windows that were not run (R207); what this cycle brings and its
end decides (R223): a reference, a miss, the expiry of the listen timer; the cycle plus 1 of the last write of EN = 0. -/
structure Layer where
  st : Nat := 0
  ccoff : Nat := 0
  d : Int := 0
  force : Option RowSet := none
  dOld : List (Nat × Nat × Int) := []
  prev : Option (RowSet × Nat) := none
  pend : Option (RowSet × Int × Nat) := none
  check : Option (RowSet × Nat × Bool) := none
  j0 : Nat := 0
  w : Nat := 0
  live : Bool := false
  fb : Nat := 0
  listen : Option Nat := none
  missRun : Nat := 0
  resync : Nat := 0
  refDone : Nat := 0
  offDue : Bool := false
  enter : Bool := false
  again : Bool := false
  noFit : Option (Nat × Nat × Nat) := none
  refRx : Option (List Byte × Nat) := none
  skipped : List (Nat × Nat) := []
  evRef : Bool := false
  evMiss : Bool := false
  evExpiry : Bool := false
  offAt : Nat := 0
  deriving DecidableEq, Repr

/-- An exclusive buffer (R213): its frame, READY, the cycle of the commit, and the frame that it held before, which a check of that cycle still
sees. -/
structure SchBuf where
  seq : Option Nat := none
  ready : Bool := false
  commitAt : Nat := 0
  old : Option Nat := none
  deriving DecidableEq, Repr

/-- The schedule engine: layers by link, the store (three words an entry), the buffers. -/
structure Sched where
  layers : Tab Layer := []
  store : Tab (List Word) := []
  bufs : Tab SchBuf := []
  deriving DecidableEq, Repr

end Sys2Proof.Machine
end

