-- ==== Sys2Proof/Machine/Coders.lean ====
section
/-! DEFINITION. The coder functions (06_line_coding.md R134 to R152) and the CRC unit (R155): pure functions of slot state,
parameters and input. -/

namespace Sys2Proof.Machine

/-- Bits of a value, least significant first. -/
def bitsLsb (n v : Nat) : List Bool := (List.range n).map (fun i => bit v i)
/-- Bits of a value, most significant first. -/
def bitsMsb (n v : Nat) : List Bool := (bitsLsb n v).reverse
/-- The value of bits, least significant first. -/
def ofLsb : List Bool → Nat
  | [] => 0
  | b :: t => b2n b + 2 * ofLsb t
/-- The value of bits, most significant first. -/
def ofMsb (l : List Bool) : Nat := ofLsb l.reverse

/-- Request number of an input with S[19] = 1 (R137). -/
def reqOf (s : Nat) : Option Nat := if bit s 19 then some (bits s 18 16) else none

/-- An unlisted request (R137). -/
def unlisted (c : Coder) : CodeOut := { cdo := 0, cv := true, st := c }

/-! ### CRC -/

/-- Reverses the low w bits. -/
def revBits (w n : Nat) : Nat := ofMsb (bitsLsb w n)

/-- One bit fed to an accumulator of w bits (R155). -/
def crcBit (w poly : Nat) (refl : Bool) (a : Nat) (b : Bool) : Nat :=
  if refl then
    let f := b != bit a 0
    let a := a / 2
    if f then a ^^^ revBits w poly else a
  else
    let f := b != bit a (w - 1)
    let a := (a * 2) % 2 ^ w
    if f then a ^^^ (poly % 2 ^ w) else a

def crcFeed (w poly : Nat) (refl : Bool) (a : Nat) (l : List Bool) : Nat := l.foldl (crcBit w poly refl) a

/-- Ethernet CRC-32 over bytes, each least significant bit first (R156). -/
def crc32 (a : Nat) (l : List (BitVec 8)) : Nat :=
  l.foldl (fun a b => crcFeed 32 0x04C11DB7 true a (bitsLsb 8 b.toNat)) a

/-! ### PASS, NRZI -/

def codePass (param s : Nat) (c : Coder) : CodeOut :=
  { cdo := if bit param 0 then 2 ^ 20 - 1 - s else s, st := c }

/-- The NB input bits of an NRZI slot in order (R138). -/
def nrziIn (param s : Nat) : List Bool :=
  let nb := param % 32 + 1
  if bit param 5 then bitsLsb nb s else bitsMsb nb s

def nrziOut (param : Nat) (l : List Bool) : Nat := if bit param 5 then ofLsb l else ofMsb l

def nrziTxBits (tog : Bool) : Bool → List Bool → List Bool × Bool
  | lev, [] => ([], lev)
  | lev, d :: t =>
    let l := if d = tog then !lev else lev
    let (r, e) := nrziTxBits tog l t
    (l :: r, e)

def nrziRxBits (tog : Bool) : Bool → List Bool → List Bool × Bool
  | lev, [] => ([], lev)
  | lev, x :: t =>
    let (r, e) := nrziRxBits tog x t
    ((if x != lev then tog else !tog) :: r, e)

def codeNrziTx (param s : Nat) (c : Coder) : CodeOut :=
  match reqOf s with
  | some _ => unlisted c
  | none =>
    let i := nrziIn param s
    let (o, lev) := nrziTxBits (bit param 6) c.lev i
    { cdo := nrziOut param o, feed := i, st := { c with lev := lev } }

def codeNrziRx (param s : Nat) (c : Coder) : CodeOut :=
  let (o, lev) := nrziRxBits (bit param 6) c.lev (nrziIn param s)
  { cdo := nrziOut param o, feed := o, st := { c with lev := lev } }

/-! ### Aligning receivers -/

/-- Where a pattern of `n` bits lies in a window (the first line bit highest): the bits that follow its first match, fewer than `ends`. -/
def findPattern (ends n : Nat) (isPat : Nat → Bool) (win : Nat) : Option Nat :=
  ((List.range ends).reverse).find? (fun p => isPat ((win >>> p) % 2 ^ n))

/-- The window of the previous and the current input; before any previous input no match begins in it. -/
def Coder.window (c : Coder) (w s : Nat) : Nat := c.prev.getD 0 * 2 ^ w + s

/-- The first match that ends inside the current input; where there is no previous input it begins in it too. -/
def Coder.search (c : Coder) (w n s : Nat) (isPat : Nat → Bool) : Option Nat :=
  findPattern (if c.prev.isSome then w else w + 1 - n) n isPat (c.window w s)

/-- The `w` bits that follow those last decoded, `p` of them from the previous input. -/
def Coder.aligned (c : Coder) (w p s : Nat) : Nat := ((c.window w s) >>> p) % 2 ^ w

/-! ### Manchester (R139, R140) -/

/-- The 16 half-bits of a byte, first half-bit highest. -/
def manByte (lsb : Bool) (v : Nat) : Nat :=
  ofMsb ((if lsb then bitsLsb 8 v else bitsMsb 8 v).flatMap (fun d => if d then [true, false] else [false, true]))

def codeManTx (param s : Nat) (c : Coder) : CodeOut :=
  match reqOf s with
  | none =>
    let l := bit param 0
    { cdo := manByte l (s % 256), feed := (if l then bitsLsb 8 s else bitsMsb 8 s), st := c }
  | some 0 => { cdo := 0x9999, ck := true, st := c }
  | some 1 => { cdo := 0xB24D, ck := true, st := c }
  | some 2 => { cdo := 0xB326, ck := true, st := c }
  | some 3 => { cdo := 0xF0F0, ck := true, st := c }
  | some _ => unlisted c

/-- The data bits of 8 symbols in line order, if all are data. -/
def manBits (v : Nat) : Option (List Bool) :=
  let syms := (List.range 8).map (fun i => (v >>> (14 - 2 * i)) % 4)
  if syms.all (fun x => x == 1 || x == 2) then some (syms.map (· == 2)) else none

def codeManRx (param s : Nat) (c : Coder) : CodeOut :=
  let s := s % 65536
  match c.lock with
  | none =>
    (match c.search 16 16 s (· == 0xB24D) with
      | some p => { cdo := 2 * 65536, ck := true, st := { c with prev := some s, lock := some p } }
      | none => { cdo := 65536, ck := true, st := { c with prev := some s } })
  | some p =>
    let v := c.aligned 16 p s
    match manBits v with
    | some l =>
      { cdo := if bit param 0 then ofLsb l else ofMsb l, feed := l, st := { c with prev := some s } }
    | none =>
      if v = 0xB326 then { cdo := 3 * 65536, ck := true, st := { c with prev := some s, lock := none } }
      else { cdo := 4 * 65536, cv := true, st := { c with prev := some s, lock := none } }

/-! ### 4B/5B (R141 to R143) -/

def b45 : List Nat := [0b11110, 0b01001, 0b10100, 0b10101, 0b01010, 0b01011, 0b01110, 0b01111,
  0b10010, 0b10011, 0b10110, 0b10111, 0b11010, 0b11011, 0b11100, 0b11101]
def b45I : Nat := 0b11111
def b45J : Nat := 0b11000
def b45K : Nat := 0b10001
def b45T : Nat := 0b01101
def b45R : Nat := 0b00111
def b45H : Nat := 0b00100
def b45Q : Nat := 0

def quints (a b c d : Nat) : Nat := a * 32768 + b * 1024 + c * 32 + d

def codeB4b5Tx (_param s : Nat) (c : Coder) : CodeOut :=
  let tag := bits s 19 16
  let q (n : Nat) : Nat := b45.getD n 0
  let n1 := bits s 11 8
  let n2 := bits s 15 12
  let n3 := bits s 3 0
  let n4 := bits s 7 4
  let f (l : List Nat) : List Bool := l.flatMap (bitsLsb 4)
  if tag = 0 ∨ tag = 1 ∨ tag = 3 then { cdo := quints (q n1) (q n2) (q n3) (q n4), feed := f [n1, n2, n3, n4], st := c }
  else if tag = 2 then { cdo := quints (q n1) (q n2) b45T b45R, ck := true, feed := f [n1, n2], st := c }
  else if tag = 8 then { cdo := quints b45H b45T b45R b45I, ck := true, st := c }
  else if tag = 12 then { cdo := quints b45I b45I b45I b45I, ck := true, st := c }
  else if tag = 13 then { cdo := quints b45J b45K (q 5) (q 5), ck := true, st := c }
  else if tag = 14 then { cdo := quints b45T b45R b45I b45I, ck := true, st := c }
  else { cdo := quints b45H b45T b45R b45I, ck := true, cv := true, st := c }

/-- A quint's flag and field (R141, R143). -/
def b45Dec (g : Nat) : Bool × Nat :=
  match b45.findIdx? (· == g) with
  | some n => (false, n)
  | none =>
    (true, if g = b45I then 0 else if g = b45J then 1 else if g = b45K then 2 else if g = b45T then 3
      else if g = b45R then 4 else if g = b45H then 5 else if g = b45Q then 6 else 7)

/-- Decodes quints while locked: results, T seen, still locked, CV (R143). -/
def b45Run : List Nat → Bool → Bool → List (Bool × Nat) × Bool × Bool × Bool
  | [], t, l => ([], t, l, false)
  | g :: rest, t, true =>
    let (fl, v) := b45Dec g
    let toHunt := fl && ((v == 4 && t) || v == 0)
    let bad := fl && (v == 0 || v == 5 || v == 7)
    let (r, t', l', cv) := b45Run rest (fl && v == 3) (!toHunt)
    ((fl, v) :: r, t', l', cv || bad)
  | _ :: rest, _, false =>
    let (r, t', l', cv) := b45Run rest false false
    ((true, 8) :: r, t', l', cv)

/-- CDO of four quint results (R143). -/
def b45Cdo (l : List (Bool × Nat)) : Nat :=
  let g (i : Nat) : Bool × Nat := l.getD i (true, 8)
  b2n (g 0).1 * 2 ^ 19 + b2n (g 1).1 * 2 ^ 18 + b2n (g 2).1 * 2 ^ 17 + b2n (g 3).1 * 2 ^ 16 +
    (g 0).2 * 2 ^ 8 + (g 1).2 * 2 ^ 12 + (g 2).2 + (g 3).2 * 2 ^ 4

def codeB4b5Rx (_param s : Nat) (c : Coder) : CodeOut :=
  match c.lock with
  | none =>
    (match c.search 20 10 s (· == b45J * 32 + b45K) with
      | some p => { cdo := b45Cdo [(true, 1), (true, 2), (true, 8), (true, 8)], ck := true,
                    st := { c with prev := some s, lock := some p, tSeen := false } }
      | none => { cdo := b45Cdo [], ck := true, st := { c with prev := some s } })
  | some p =>
    let v := c.aligned 20 p s
    let (r, t, l, cv) := b45Run [bits v 19 15, bits v 14 10, bits v 9 5, bits v 4 0] c.tSeen true
    { cdo := b45Cdo r, ck := r.any (·.1), cv := cv,
      feed := (r.filter (fun x => !x.1)).flatMap (fun x => bitsLsb 4 x.2),
      st := { c with prev := some s, tSeen := t, lock := if l then some p else none } }

/-! ### 10BASE-T1L (R144): the clause 146 functions are free values of Config -/

/-- The clause 146 state of a slot: the seed of its role until its first CODE (R135). -/
def Coder.t1State (c : Coder) (param : Nat) : BitVec 64 := c.t1l.getD (Config.t1lSeed (bit param 0))

/-- Three ternary symbols, as a number below 27, on their pairs (P, N): 0, +1, −1; (1, 1) is never driven. -/
def t1Pairs (n : Nat) : Nat := 2 * (n % 3) % 3 * 16 + 2 * (n / 3 % 3) % 3 * 4 + 2 * (n / 9 % 3) % 3

def codeT1lTx (param s : Nat) (c : Coder) : CodeOut :=
  let r := Config.t1lTx (c.t1State param) (BitVec.ofNat 32 (s * 4096 + param))
  let sym := t1Pairs (r.2.toNat % 27)
  match reqOf s with
  | none => { cdo := sym, feed := bitsLsb 4 s, st := { c with t1l := some r.1 } }
  | some n =>
    if 4 ≤ n then unlisted c
    else { cdo := sym, ck := decide (n = 0) || bit r.2.toNat 19, st := { c with t1l := some r.1 } }

/-- T1L_RX: NONE until the descrambler has synchronised; then an SSD aligns, and DATA, ESD and ESD_ERR come until one of the last two or a
violation, after which the next SSD is awaited (R144). -/
def codeT1lRx (param s : Nat) (c : Coder) : CodeOut :=
  let (t, w, lk) := Config.t1lRx (c.t1State param) (BitVec.ofNat 32 (s % 64 * 4096 + param))
  let both := [0, 1, 2].any (fun i => (s >>> (2 * i)) % 4 == 3)
  let found := min (w.toNat / 65536) 5
  let code := if !lk then 1 else if both then 5 else if c.t1Open then (if found = 1 ∨ found = 2 then 0 else found)
    else if found = 2 then 2 else if found = 5 then 5 else 1
  let st := { c with t1l := some t, t1Lock := lk, t1Open := lk && decide (code = 2 ∨ (code = 0 ∧ c.t1Open)) }
  let nib := if code = 0 then w.toNat % 16 else 0
  { cdo := code * 65536 + nib, ck := decide (1 ≤ code ∧ code ≤ 4), cv := decide (code = 5),
    feed := if code = 0 then bitsLsb 4 nib else [], st := st }

/-! ### 8b/10b (R145; the tables of clause 36, PRESUMED) -/

/-- The 6-bit groups of D.x at negative disparity, abcdei with a highest. -/
def enc56 : List Nat := [0b100111, 0b011101, 0b101101, 0b110001, 0b110101, 0b101001, 0b011001, 0b111000,
  0b111001, 0b100101, 0b010101, 0b110100, 0b001101, 0b101100, 0b011100, 0b010111,
  0b011011, 0b100011, 0b010011, 0b110010, 0b001011, 0b101010, 0b011010, 0b111010,
  0b110011, 0b100110, 0b010110, 0b110110, 0b001110, 0b101110, 0b011110, 0b101011]
/-- The 4-bit groups of D.x.y at negative disparity, fghj, with the primary group for y = 7. -/
def enc34 : List Nat := [0b1011, 0b1001, 0b0101, 0b1100, 0b1101, 0b1010, 0b0110, 0b1110]
/-- The 4-bit groups of K28.y at negative disparity before the group. -/
def encK28 : List Nat := [0b0100, 0b1001, 0b0101, 0b0011, 0b0010, 0b1010, 0b0110, 0b1000]

def ones (w n : Nat) : Nat := ((List.range w).filter (fun i => bit n i)).length

/-- A sub-block of w bits at disparity `rd`: complemented at positive disparity unless balanced; the balanced groups that
alternate are complemented too. Answers group and disparity after. -/
def subBlock (w n : Nat) (alt rd : Bool) : Nat × Bool :=
  let o := ones w n
  let g := if rd && (o * 2 != w || alt) then 2 ^ w - 1 - n else n
  (g, if o * 2 = w then rd else !rd)

/-- The group of a data byte and the disparity after it. -/
def encD (v : Nat) (rd : Bool) : Nat × Bool :=
  let x := v % 32
  let y := v / 32 % 8
  let (g6, r6) := subBlock 6 (enc56.getD x 0) (x == 7) rd
  let a7 := y == 7 && (if r6 then x == 11 || x == 13 || x == 14 else x == 17 || x == 18 || x == 20)
  let (g4, r4) := subBlock 4 (if a7 then 0b0111 else enc34.getD y 0) (y == 3) r6
  (g6 * 16 + g4, r4)

/-- The 12 special groups. -/
def isK (v : Nat) : Bool := v % 32 == 28 || [0xF7, 0xFB, 0xFD, 0xFE].contains v

/-- The group of a special byte and the disparity after it. -/
def encK (v : Nat) (rd : Bool) : Nat × Bool :=
  let g := if v % 32 = 28 then 0b001111 * 16 + encK28.getD (v / 32 % 8) 0 else enc56.getD (v % 32) 0 * 16 + 0b1000
  (if rd then 1023 - g else g, if ones 10 g = 5 then rd else !rd)

/-- One byte sent: group, disparity, whether it is a K group, whether an unlisted K. -/
def sendByte (v : Nat) (k rd : Bool) : Nat × Bool × Bool :=
  if !k then (let (g, r) := encD v rd; (g, r, false))
  else if isK v then (let (g, r) := encK v rd; (g, r, false))
  else (let (g, r) := encK 0xFE rd; (g, r, true))

def codeB8b10Tx (_param s : Nat) (c : Coder) : CodeOut :=
  match reqOf s with
  | some 0 =>
    let (g1, r1) := encK 0xFE c.rd
    let (g2, r2) := encK 0xFE r1
    { cdo := g1 * 1024 + g2, ck := true, st := { c with rd := r2 } }
  | some _ => unlisted c
  | none =>
    let k1 := bit s 17
    let k2 := bit s 16
    let (g1, r1, u1) := sendByte (bits s 15 8) k1 c.rd
    let (g2, r2, u2) := sendByte (bits s 7 0) k2 r1
    { cdo := g1 * 1024 + g2, ck := k1 || k2, cv := u1 || u2,
      feed := (if k1 then [] else bitsLsb 8 (bits s 15 8)) ++ (if k2 then [] else bitsLsb 8 (bits s 7 0)),
      st := { c with rd := r2 } }

/-- The disparity after a received sub-block of w bits (clause 36): more ones, or 000111 or 0011, positive; more zeros, or 111000 or 1100,
negative; else as before. -/
def subRd (w n : Nat) (rd : Bool) : Bool :=
  let o := ones w n
  if w < 2 * o ∨ n = 2 ^ (w / 2) - 1 then true
  else if 2 * o < w ∨ n = 2 ^ w - 2 ^ (w / 2) then false
  else rd

/-- A received group at a disparity: byte, K, violation, disparity after. -/
def recvGroup (g : Nat) (rd : Bool) : Nat × Bool × Bool × Bool :=
  match (List.range 256).find? (fun v => (encD v rd).1 == g) with
  | some v => (v, false, false, (encD v rd).2)
  | none =>
    match (List.range 256).find? (fun v => isK v && (encK v rd).1 == g) with
    | some v => (v, true, false, (encK v rd).2)
    | none => (0, false, true, subRd 4 (g % 16) (subRd 6 (g / 16) rd))

/-- B8B10_RX (R145); a received /V/ (K30.7) reports CV too (R157). -/
def codeB8b10Rx (_param s : Nat) (c : Coder) : CodeOut :=
  match c.lock with
  | none =>
    (match c.search 20 7 s (fun x => x == 0b0011111 || x == 0b1100000) with
      | some e =>
        let pos := (c.window 20 s >>> e) % 128 == 0b0011111
        let g := (c.window 20 s >>> (e - 3)) % 1024
        let p := if 3 ≤ e then e - 3 else e + 7
        let rd := if 3 ≤ e then subRd 4 (g % 16) (subRd 6 (g / 16) (!pos)) else !pos
        { cdo := 0xF0000, ck := true, st := { c with prev := some s, lock := some p, rd := rd, viol := 0 } }
      | none => { cdo := 0xF0000, ck := true, st := { c with prev := some s } })
  | some p =>
    let v := c.aligned 20 p s
    let (b1, k1, v1, r1) := recvGroup (v / 1024) c.rd
    let (b2, k2, v2, r2) := recvGroup (v % 1024) r1
    let n := if v1 || v2 then c.viol + 1 else 0
    { cdo := b2n v1 * 2 ^ 19 + b2n v2 * 2 ^ 18 + b2n k1 * 2 ^ 17 + b2n k2 * 2 ^ 16 + b1 * 256 + b2,
      ck := k1 || k2, cv := v1 || v2 || (k1 && b1 == 0xFE) || (k2 && b2 == 0xFE),
      feed := (if k1 then [] else bitsLsb 8 b1) ++ (if k2 then [] else bitsLsb 8 b2),
      st := { c with prev := some s, rd := r2, viol := n, lock := if 4 ≤ n then none else some p } }

/-! ### HDLC (R146, R147) -/

def codeHdlcTx (_param s : Nat) (c : Coder) : CodeOut :=
  match reqOf s with
  | none =>
    let b := bit s 0
    let n := if b then c.ones + 1 else 0
    if n = 5 then { cdo := b2n b, ck := true, feed := [b], st := { c with ones := 0 } }
    else { cdo := b2n b, feed := [b], st := { c with ones := n } }
  | some 0 => { cdo := 0x7E, ck := true, st := { c with ones := 0 } }
  | some 1 => { cdo := 0xFF, ck := true, st := { c with ones := 0 } }
  | some _ => unlisted c

/-- push of R147. -/
def hdlcPush (x : Bool) (c : Coder) : CodeOut :=
  let w := c.win ++ [x]
  if 8 ≤ w.length then
    { cdo := b2n (w.headD false), feed := w.take 1, st := { c with win := w.drop 1 } }
  else { cdo := 65536, ck := true, st := { c with win := w } }

def codeHdlcRx (_param s : Nat) (c : Coder) : CodeOut :=
  if bit s 0 then
    let n := min (c.ones + 1) 15
    let c := { c with ones := n }
    if n = 7 then { cdo := 3 * 65536, ck := true, cv := true, st := { c with win := [] } }
    else if n = 15 then { cdo := 4 * 65536, ck := true, st := c }
    else if 7 < n then { cdo := 65536, ck := true, st := c }
    else hdlcPush true c
  else if c.ones = 5 then { cdo := 65536, ck := true, st := { c with ones := 0 } }
  else if c.ones = 6 then { cdo := 2 * 65536, ck := true, st := { c with ones := 0, win := [] } }
  else hdlcPush false { c with ones := 0 }

/-! ### CAN (R148 to R150) -/

/-- The Gray code of R148. -/
def grayOf (n : Nat) : Nat := (n % 8) ^^^ (n % 8 / 2)

/-- COUNT (R148). -/
def canCount (c : Coder) : CodeOut :=
  let g := grayOf c.stuffs
  { cdo := g * 2 + ones 3 g % 2, st := c }

/-- A bit enters the run of equal bits. -/
def Coder.runBit (c : Coder) (b : Bool) : Coder :=
  { c with run := if 0 < c.run ∧ c.prevBit = b then c.run + 1 else 1, prevBit := b }

/-- A data bit of CAN_TX in the slot's mode (R148, R150). -/
def canSend (fd b : Bool) (c : Coder) : CodeOut :=
  match c.mode with
  | 0 =>
    let c := c.runBit b
    if c.run = 5 then
      { cdo := b2n b + 2 * b2n (!b), ck := true, feed := if fd then [b, !b] else [b],
        st := { c with prevBit := !b, run := 1, stuffs := c.stuffs + 1 } }
    else { cdo := b2n b, feed := [b], st := c }
  | 1 =>
    if c.since = 3 then
      { cdo := b2n b + 2 * b2n (!b), ck := true, feed := [b], st := { c with prevBit := !b, since := 0 } }
    else { cdo := b2n b, feed := [b], st := { c with prevBit := b, since := c.since + 1 } }
  | _ => { cdo := b2n b, feed := [b], st := { c with prevBit := b } }

def codeCanTx (param s : Nat) (c : Coder) : CodeOut :=
  let fd := bit param 0
  let b := bit s 0
  match reqOf s with
  | none => canSend fd b c
  | some 0 => canSend fd b { c with mode := 0, run := 0, stuffs := 0, since := 0 }
  | some 1 =>
    let f := !c.prevBit
    { cdo := b2n f + 2 * b2n b, ck := true, feed := [b], st := { c with mode := 1, prevBit := b, since := 1 } }
  | some 2 => canSend fd b { c with mode := 2 }
  | some 3 => canCount c
  | some n => { cdo := 0, st := c, req := some n }

/-- A line bit of CAN_RX in the slot's mode (R148, R150). -/
def canRecv (fd b : Bool) (c : Coder) : CodeOut :=
  match c.mode with
  | 0 =>
    if c.run = 5 ∧ c.prevBit ≠ b then
      { cdo := 65536 + b2n b, ck := true, feed := if fd then [b] else [],
        st := { c with prevBit := b, run := 1, stuffs := c.stuffs + 1 } }
    else
      let err := decide (5 ≤ c.run ∧ c.prevBit = b)
      let c := c.runBit b
      if err then { cdo := 2 * 65536 + b2n b, ck := true, cv := true, st := c }
      else { cdo := b2n b, feed := [b], st := c }
  | 1 =>
    if c.since = 4 then
      if c.prevBit ≠ b then { cdo := 65536 + b2n b, ck := true, st := { c with prevBit := b, since := 0 } }
      else { cdo := 2 * 65536 + b2n b, ck := true, cv := true, st := { c with since := 0 } }
    else { cdo := b2n b, feed := [b], st := { c with prevBit := b, since := c.since + 1 } }
  | _ => { cdo := b2n b, feed := [b], st := { c with prevBit := b } }

def codeCanRx (param s : Nat) (c : Coder) : CodeOut :=
  let fd := bit param 0
  let b := bit s 0
  match reqOf s with
  | none => canRecv fd b c
  | some 0 => canRecv fd b { c with mode := 0, run := 0, stuffs := 0, since := 0 }
  | some 1 => canRecv fd b { c with mode := 1, since := 4 }
  | some 2 => canRecv fd b { c with mode := 2 }
  | some 3 => canCount c
  | some n => { cdo := 0, st := c, req := some n }

/-! ### Asynchronous characters (R152) -/

def asyncData (p : Nat) : Nat := p % 8 + 5
def asyncPar (p : Nat) : Nat := p / 8 % 8
def asyncLen (p : Nat) : Nat := 1 + asyncData p + (if asyncPar p = 0 then 0 else 1) + 1 + b2n (bit p 6)

/-- The parity bit of data bits. -/
def parityBit (par : Nat) (l : List Bool) : Bool :=
  let odd := (l.filter (· == true)).length % 2 == 1
  match par with
  | 1 => odd
  | 2 => !odd
  | 3 => true
  | _ => false

def codeAsyncTx (param s : Nat) (c : Coder) : CodeOut :=
  let L := asyncLen param
  match reqOf s with
  | none =>
    let d := bitsLsb (asyncData param) s
    let par := if asyncPar param = 0 then [] else [parityBit (asyncPar param) d]
    let stop := if bit param 6 then [true, true] else [true]
    { cdo := ofLsb ([false] ++ d ++ par ++ stop), feed := d, st := c }
  | some 0 => { cdo := 0, ck := true, st := c }
  | some 1 => { cdo := 2 ^ L - 1, ck := true, st := c }
  | some _ => unlisted c

def codeAsyncRx (param s : Nat) (c : Coder) : CodeOut :=
  let L := asyncLen param
  let v := (s >>> (param / 128 % 32)) % 2 ^ L
  let nd := asyncData param
  let d := bitsLsb nd (v / 2)
  let np := if asyncPar param = 0 then 0 else 1
  let fe := decide (v >>> (1 + nd + np) ≠ 2 ^ (L - 1 - nd - np) - 1)
  let pe := decide (np = 1) && (bit v (1 + nd) != parityBit (asyncPar param) d)
  let se := bit v 0
  { cdo := b2n fe * 2 ^ 19 + b2n pe * 2 ^ 18 + b2n se * 2 ^ 17 + ofLsb d, ck := decide (v = 0), cv := fe || pe || se,
    feed := d, st := c }

end Sys2Proof.Machine
end

