-- ==== Sys2Proof/Machine/CtlState.lean ====
section
/-! DEFINITION. The state of the host rings' transfers, the command and key unit, the Ledger's writes, power, start-up and
recovery, as plain data. -/

namespace Sys2Proof.Machine

/-- A TX frame in the Basin DMA (16_host_rings.md R418): entry index, entry, cells, length, bytes read, SEQ once the first beat
was read, whether it was looked up. -/
structure TxDma where
  idx : Nat
  entry : List Byte
  cells : List Nat
  len : Nat
  got : Nat := 0
  seq : Option Nat := none
  looked : Bool := false
  deriving DecidableEq, Repr

/-- A part of a frame in an RX buffer (R422, R423): entry index, bytes, write transactions not yet answered. -/
structure RxPart where
  idx : Nat
  entry : List Byte
  n : Nat
  left : Nat
  deriving DecidableEq, Repr

/-- What a frame written to an RX ring puts into its entries (R423). -/
structure RxWork where
  seq : Nat
  inPort : Nat
  len : Nat
  count : Nat
  parts : List RxPart
  deriving DecidableEq, Repr

/-- The stage of a command in the command unit (17_commands_keys.md R435 to R442): its counter record is being written; its
effect is due; it stands in the mailbox; host data is being read; past its commit point, Ledger words are being written;
MAINTENANCE waits for flushes; a self-test runs. -/
inductive CmdStage where
  | reserve | ready | posted | reading | writing | flushing | testing
  deriving DecidableEq, Repr

/-- A command handed to the command unit: CMDQ index, entry, recovered counter, stage, host data read, the cycle of its
handover, its RESULT with the result data from byte 8, and for an ABORT its outcome (R440). -/
structure Cmd where
  idx : Nat
  entry : List Byte
  ctr : Nat := 0
  stage : CmdStage := .ready
  want : Nat := 0
  data : List Byte := []
  handed : Nat := 0
  res : Option (Nat × List Byte) := none
  outcome : Option Nat := none
  deriving DecidableEq, Repr

/-- What a Ledger word write is part of (R447, R452 to R455). -/
inductive LedWhy where
  | reserve | command | hours | history | keeper
  deriving DecidableEq, Repr

/-- A waiting Ledger word write. -/
structure LedWrite where
  idx : Nat
  v : Nat
  why : LedWhy
  deriving DecidableEq, Repr

/-- An image load (R460): by the boot path, host address, TOTAL, the chain of cells held for thread 1, bytes read, phase (0 the
header is read, 1 the image is read, 3 history being written), the header's bytes of a boot path. -/
structure Image where
  boot : Bool
  addr : Nat
  total : Nat := 0
  cells : List Nat := []
  got : Nat := 0
  phase : Nat := 0
  head : List Byte := []
  deriving DecidableEq, Repr

/-- The command and key unit: commands handed over, oldest first; CMDQ indices that an ABORT stopped before their handover; the
CMDQ index of the next completion; commands whose completions are not yet visible; L and CEIL (R443, R453); the Ledger's
waiting writes, the first in progress since `ledAt`; a failed word write of the present record; the commands that ABORTs
of this cycle stop as it ends, and a write of KEY_CTAKE of this cycle (R440, R442); the image load; the reset that a completion's visibility starts (CMDQ index, cause, no boot, counter of a critical command or 0). -/
structure Keys where
  cmds : List Cmd := []
  stopped : List Nat := []
  nextCpl : Nat := 0
  shown : List (Nat × List Byte) := []
  l : Nat := 0
  ceil : Nat := 0
  ledq : List LedWrite := []
  ledAt : Nat := 0
  abQ : List Nat := []
  taken : Bool := false
  img : Option Image := none
  reset : Option (Nat × Nat × Bool × Nat) := none
  deriving DecidableEq, Repr

/-- Power (18_power.md R466 to R477): level in force (0 RUN, 2 DOZE, 3 NAP, 4 DORMANT); an entry (target, the cycle of its end);
an exit (the cycle of its end); the cycle in which the PLL relocks in an exit from DORMANT (R75); DOZE barred until the next launch (R474); the causes seen of a wake; the cycle in which
the level took effect (R476); a launch whose WTK waits end once the barrels run (R475). -/
structure Pwr where
  lvl : Nat := 0
  entry : Option (Nat × Nat) := none
  exit : Option Nat := none
  relock : Option Nat := none
  barred : Bool := false
  wake : Nat := 0
  since : Nat := 0
  owed : Bool := false
  deriving DecidableEq, Repr

/-- Start-up and recovery (19_reset_recovery.md R479 to R495) and what has no other unit: cycle of the start of initialisation,
engine state at the reset, previous epoch, T80 of the reset, frames discarded, TX entries FLUSHED; the reset was
ENGINE_NOBOOT; reset input or power-on detector active; watchdog cycles left, frozen; the self-test
(TESTS, cycle of its end) and its result data; time in units of 1 ns since the last full hour (R455); a pass was requested,
in a cycle (R410); the level of JX_KNOCK; the cycle plus 1 of a global timer start (R385); Ledger reads by accessor
(R465: word, cycle of the write) and what they hold; the cycle plus 1 of the last engine reset; the answer to the last register
access made by a command: accessor key, response (0 DONE, 1 FAULT, 2 NOWHERE), data (R399, R543); the levels of JX_IRQ, bit n of output n (R430). -/
structure Sys where
  initAt : Nat := 0
  atReset : Nat := 0
  prevEpoch : Nat := 0
  resetT80 : Nat := 0
  discarded : Nat := 0
  flushedTx : Nat := 0
  noboot : Bool := false
  held : Bool := false
  porHeld : Bool := false
  wdLeft : Nat := 0
  wdFrozen : Bool := false
  bist : Option (Nat × Nat) := none
  bistRes : Option (List Byte) := none
  hourNs : Nat := 0
  passReq : Bool := false
  passAt : Nat := 0
  knock : Bool := false
  gstart : Nat := 0
  ldgRead : Tab (Nat × Nat) := []
  ldgShown : Tab Nat := []
  resetAt : Nat := 0
  ans : Nat × Nat × Nat := (0, 0, 0)
  irq : Nat := 0
  bootAt : Nat := 0
  wdHit : Bool := false
  scrub : Tab (Nat × Nat) := []
  deriving DecidableEq, Repr

end Sys2Proof.Machine
end

