-- ==== Sys2Proof/Machine/Registers.lean ====
section
/-! DEFINITION. The device registers: their names (Reg), the fields of each with access type and reset value, and the word
address of each, as the register tables and the register index of the spec (21_integration.md R540 to R542) give them.
A numbered series (TIK_OVR0 to 3, LNKn_TSI0 to 5, ...) is one name with an index; a register with one copy per
unit (link n, reed k, timer u, barrel p) carries the unit in its index. -/

namespace Sys2Proof.Machine

/-- The access type of a register field (00_scope.md R6). `rsw` is RS with a write effect in its own table (R7). -/
inductive Access where
  | rw | ro | wo | w1c | rc | rs | rsw | wt
  deriving DecidableEq, Repr

/-- One field of a register: its bits [hi:lo], its access type, its reset value. -/
structure FldInfo where
  hi : Nat
  lo : Nat
  acc : Access
  rst : Nat
  deriving DecidableEq, Repr

/-- The names of the device registers, by block in the spec's order. -/
inductive Reg where
  /-- 00_scope.md R12. -/
  | JX_ID
  /-- 02_time_levels.md R50. -/
  | TIK_CTL
  /-- 02_time_levels.md R50. -/
  | TIK_STAT
  /-- 02_time_levels.md R50. -/
  | TIK_PERIOD_LO
  /-- 02_time_levels.md R50. -/
  | TIK_PERIOD_HI
  /-- 02_time_levels.md R50. -/
  | TIK_SLACK
  /-- 02_time_levels.md R50. -/
  | TIK_FRAME
  /-- 02_time_levels.md R50. -/
  | TIK_MATRIX
  /-- 02_time_levels.md R50. -/
  | TIK_EPOCH
  /-- 02_time_levels.md R50. -/
  | TIK_POS
  /-- 02_time_levels.md R50. -/
  | TIK_COUNT0
  /-- 02_time_levels.md R50. -/
  | TIK_COUNT1
  /-- 02_time_levels.md R50. -/
  | TIK_LAUNCH
  /-- 02_time_levels.md R50. -/
  | TIK_DEV
  /-- 02_time_levels.md R50. -/
  | TIK_LATE
  /-- 02_time_levels.md R50. -/
  | TIK_EVCNT
  /-- 02_time_levels.md R50. -/
  | TIK_OVR
  /-- 02_time_levels.md R50. -/
  | TIK_OVR_CNT
  /-- 02_time_levels.md R50. -/
  | TIK_OVR_FIRST
  /-- 02_time_levels.md R50. -/
  | TIK_BSEL
  /-- 02_time_levels.md R50. -/
  | TIK_BUDGET
  /-- 03_sundial.md R77. -/
  | SUN_TIME
  /-- 03_sundial.md R77. -/
  | SUN_RATE0
  /-- 03_sundial.md R77. -/
  | SUN_RATE1
  /-- 03_sundial.md R77. -/
  | SUN_RATEF0
  /-- 03_sundial.md R77. -/
  | SUN_RATEF1
  /-- 03_sundial.md R77. -/
  | SUN_ADJ
  /-- 03_sundial.md R77. -/
  | SUN_CTL
  /-- 03_sundial.md R77. -/
  | SUN_OWN
  /-- 03_sundial.md R77. -/
  | SUN_STAT
  /-- 03_sundial.md R77. -/
  | SUN_LATECNT
  /-- 03_sundial.md R77. -/
  | SUN_ECAP_CFG
  /-- 03_sundial.md R77. -/
  | SUN_ECAP_T
  /-- 04_link_ports.md R99. -/
  | LNK_CFG
  /-- 04_link_ports.md R99. -/
  | LNK_BIND
  /-- 04_link_ports.md R99. -/
  | LNK_OWN
  /-- 04_link_ports.md R99. -/
  | LNK_MAXLEN
  /-- 04_link_ports.md R99. -/
  | LNK_MINLEN
  /-- 04_link_ports.md R99. -/
  | LNK_HOLD
  /-- 04_link_ports.md R99. -/
  | LNK_TRAIN
  /-- 04_link_ports.md R99. -/
  | LNK_LATEMAX
  /-- 04_link_ports.md R99. -/
  | LNK_LOSSCH
  /-- 04_link_ports.md R99. -/
  | LNK_TSCFG
  /-- 04_link_ports.md R99. -/
  | LNK_CTL
  /-- 04_link_ports.md R99. -/
  | LNK_STAT
  /-- 04_link_ports.md R99. -/
  | LNK_TSCTL
  /-- 04_link_ports.md R99. -/
  | LNK_TSLVL
  /-- 04_link_ports.md R99. -/
  | LNK_TSI
  /-- 04_link_ports.md R99. -/
  | LNK_TSE
  /-- 04_link_ports.md R99. -/
  | LNK_CSEL
  /-- 04_link_ports.md R99. -/
  | LNK_CNT0
  /-- 04_link_ports.md R99. -/
  | LNK_CNT1
  /-- 05_reeds.md R133. -/
  | REED_CFG
  /-- 05_reeds.md R133. -/
  | REED_CLK
  /-- 05_reeds.md R133. -/
  | REED_PINS
  /-- 05_reeds.md R133. -/
  | REED_OWN
  /-- 05_reeds.md R133. -/
  | REED_DIVI
  /-- 05_reeds.md R133. -/
  | REED_DIVF
  /-- 05_reeds.md R133. -/
  | REED_PHASE
  /-- 05_reeds.md R133. -/
  | REED_EVT
  /-- 05_reeds.md R133. -/
  | REED_PADDR
  /-- 05_reeds.md R133. -/
  | REED_PDATA
  /-- 05_reeds.md R133. -/
  | REED_WRAPS
  /-- 05_reeds.md R133. -/
  | REED_WRAPA
  /-- 05_reeds.md R133. -/
  | REED_PC
  /-- 05_reeds.md R133. -/
  | REED_CTL
  /-- 05_reeds.md R133. -/
  | REED_STAT
  /-- 05_reeds.md R133. -/
  | REED_SYNC
  /-- 05_reeds.md R133. -/
  | REED_RXW
  /-- 05_reeds.md R133. -/
  | REED_TXW
  /-- 05_reeds.md R133. -/
  | REED_QA
  /-- 05_reeds.md R133. -/
  | REED_QB
  /-- 05_reeds.md R133. -/
  | REED_CDO
  /-- 05_reeds.md R133. -/
  | REED_FIFO
  /-- 05_reeds.md R133. -/
  | REED_MBX
  /-- 05_reeds.md R133. -/
  | REED_TSET
  /-- 05_reeds.md R133. -/
  | REED_ATIME
  /-- 05_reeds.md R133. -/
  | REED_CAPT
  /-- 05_reeds.md R133. -/
  | REED_FLT
  /-- 06_line_coding.md R159. -/
  | COD_SEL
  /-- 06_line_coding.md R159. -/
  | COD_MODE
  /-- 06_line_coding.md R159. -/
  | COD_PARAM
  /-- 06_line_coding.md R159. -/
  | COD_SSTAT
  /-- 06_line_coding.md R159. -/
  | COD_CTL
  /-- 06_line_coding.md R159. -/
  | COD_CRCCFG
  /-- 06_line_coding.md R159. -/
  | COD_POLY0
  /-- 06_line_coding.md R159. -/
  | COD_POLY1
  /-- 06_line_coding.md R159. -/
  | COD_SEED0
  /-- 06_line_coding.md R159. -/
  | COD_SEED1
  /-- 06_line_coding.md R159. -/
  | COD_CHECK0
  /-- 06_line_coding.md R159. -/
  | COD_CHECK1
  /-- 06_line_coding.md R159. -/
  | COD_TRK
  /-- 06_line_coding.md R159. -/
  | COD_TRKOFF
  /-- 06_line_coding.md R159. -/
  | COD_TRKSJW
  /-- 06_line_coding.md R159. -/
  | COD_DDIVI
  /-- 06_line_coding.md R159. -/
  | COD_DDIVF
  /-- 06_line_coding.md R159. -/
  | COD_DPHASE
  /-- 06_line_coding.md R159. -/
  | COD_RSTAT
  /-- 07_basin_switching.md R201. -/
  | BSN_OWN
  /-- 07_basin_switching.md R201. -/
  | BSN_FREE
  /-- 07_basin_switching.md R201. -/
  | BSN_H7
  /-- 07_basin_switching.md R201. -/
  | BSN_LOWW
  /-- 07_basin_switching.md R201. -/
  | BSN_NEXTSEQ
  /-- 07_basin_switching.md R201. -/
  | BSN_RATE
  /-- 07_basin_switching.md R201. -/
  | BSN_WPAGE
  /-- 07_basin_switching.md R201. -/
  | BSN_ALLOC
  /-- 07_basin_switching.md R201. -/
  | BSN_AHEAD
  /-- 07_basin_switching.md R201. -/
  | BSN_CHAIN0
  /-- 07_basin_switching.md R201. -/
  | BSN_CHAIN1
  /-- 07_basin_switching.md R201. -/
  | BSN_RELEASE
  /-- 07_basin_switching.md R201. -/
  | BSN_INJ1
  /-- 07_basin_switching.md R201. -/
  | BSN_INJ2
  /-- 07_basin_switching.md R201. -/
  | BSN_INJ3
  /-- 07_basin_switching.md R201. -/
  | BSN_INJ4
  /-- 07_basin_switching.md R201. -/
  | BSN_INJT
  /-- 07_basin_switching.md R201. -/
  | BSN_INJGO
  /-- 07_basin_switching.md R201. -/
  | BSN_TRAPTID
  /-- 07_basin_switching.md R201. -/
  | BSN_TRAP0
  /-- 07_basin_switching.md R201. -/
  | BSN_TRAP1
  /-- 07_basin_switching.md R201. -/
  | BSN_TRAP2
  /-- 07_basin_switching.md R201. -/
  | BSN_TLVL
  /-- 07_basin_switching.md R201. -/
  | BSN_QSEL
  /-- 07_basin_switching.md R201. -/
  | BSN_QFR
  /-- 07_basin_switching.md R201. -/
  | BSN_QCELLS
  /-- 07_basin_switching.md R201. -/
  | BSN_CSEL
  /-- 07_basin_switching.md R201. -/
  | BSN_CNT0
  /-- 07_basin_switching.md R201. -/
  | BSN_CNT1
  /-- 07_basin_switching.md R203. -/
  | SLU_SEL
  /-- 07_basin_switching.md R203. -/
  | SLU_TBCFG
  /-- 07_basin_switching.md R203. -/
  | SLU_TBRATE
  /-- 07_basin_switching.md R203. -/
  | SLU_TBBURST
  /-- 07_basin_switching.md R203. -/
  | SLU_TBLVL
  /-- 07_basin_switching.md R203. -/
  | SLU_QUOTA
  /-- 07_basin_switching.md R203. -/
  | SLU_DRATE
  /-- 07_basin_switching.md R203. -/
  | SLU_DPOOL
  /-- 07_basin_switching.md R203. -/
  | SLU_DQUOTA
  /-- 07_basin_switching.md R203. -/
  | SLU_DENTRY
  /-- 07_basin_switching.md R203. -/
  | SLU_ENTFREE
  /-- 07_basin_switching.md R204. -/
  | WRD_CTL
  /-- 07_basin_switching.md R204. -/
  | WRD_STAT
  /-- 07_basin_switching.md R204. -/
  | WRD_CNT1
  /-- 07_basin_switching.md R204. -/
  | WRD_CNT2
  /-- 07_basin_switching.md R204. -/
  | WRD_SKIPS
  /-- 07_basin_switching.md R204. -/
  | WRD_LAST
  /-- 07_basin_switching.md R204. -/
  | WRD_AUDITS
  /-- 07_basin_switching.md R205. -/
  | FWD_SALT
  /-- 07_basin_switching.md R205. -/
  | FWD_TPID
  /-- 07_basin_switching.md R205. -/
  | FWD_PCFG
  /-- 07_basin_switching.md R205. -/
  | FWD_PVID
  /-- 07_basin_switching.md R205. -/
  | FWD_MISS_LO
  /-- 07_basin_switching.md R205. -/
  | FWD_MISS_HI
  /-- 07_basin_switching.md R205. -/
  | FWD_CLSTID
  /-- 07_basin_switching.md R205. -/
  | FWD_ENT0
  /-- 07_basin_switching.md R205. -/
  | FWD_ENT1
  /-- 07_basin_switching.md R205. -/
  | FWD_ENT2
  /-- 07_basin_switching.md R205. -/
  | FWD_ENT3
  /-- 07_basin_switching.md R205. -/
  | FWD_ENT4
  /-- 07_basin_switching.md R205. -/
  | FWD_ENT5
  /-- 07_basin_switching.md R205. -/
  | FWD_ENT6
  /-- 07_basin_switching.md R205. -/
  | FWD_OP
  /-- 07_basin_switching.md R205. -/
  | FWD_IDX
  /-- 07_basin_switching.md R205. -/
  | FWD_OSTAT
  /-- 07_basin_switching.md R205. -/
  | FWD_NOTE0
  /-- 07_basin_switching.md R205. -/
  | FWD_NOTE1
  /-- 07_basin_switching.md R205. -/
  | FWD_NOTE2
  /-- 07_basin_switching.md R205. -/
  | FWD_NOTE3
  /-- 07_basin_switching.md R205. -/
  | FWD_NOTE4
  /-- 07_basin_switching.md R205. -/
  | FWD_NLVL
  /-- 07_basin_switching.md R205. -/
  | FWD_OVR0
  /-- 07_basin_switching.md R205. -/
  | FWD_OVR1
  /-- 07_basin_switching.md R205. -/
  | FWD_OVR2
  /-- 07_basin_switching.md R205. -/
  | FWD_OVRSTAT
  /-- 07_basin_switching.md R205. -/
  | FWD_STAT
  /-- 08_scheduled_windows.md R229. -/
  | SCH_OWN
  /-- 08_scheduled_windows.md R229. -/
  | SCH_NODEID
  /-- 08_scheduled_windows.md R229. -/
  | SCH_RDA2
  /-- 08_scheduled_windows.md R229. -/
  | SCH_RDA1
  /-- 08_scheduled_windows.md R229. -/
  | SCH_RDA0
  /-- 08_scheduled_windows.md R229. -/
  | SCH_SA2
  /-- 08_scheduled_windows.md R229. -/
  | SCH_SA1
  /-- 08_scheduled_windows.md R229. -/
  | SCH_SA0
  /-- 08_scheduled_windows.md R229. -/
  | SCH_ESEL
  /-- 08_scheduled_windows.md R229. -/
  | SCH_ENT0
  /-- 08_scheduled_windows.md R229. -/
  | SCH_ENT1
  /-- 08_scheduled_windows.md R229. -/
  | SCH_ENT2
  /-- 08_scheduled_windows.md R229. -/
  | SCH_EOP
  /-- 08_scheduled_windows.md R229. -/
  | SCH_BSEL
  /-- 08_scheduled_windows.md R230. -/
  | SCH_LSEL
  /-- 08_scheduled_windows.md R230. -/
  | SCH_LCFG
  /-- 08_scheduled_windows.md R230. -/
  | SCH_LROW
  /-- 08_scheduled_windows.md R230. -/
  | SCH_LWPR
  /-- 08_scheduled_windows.md R230. -/
  | SCH_LROWF
  /-- 08_scheduled_windows.md R230. -/
  | SCH_LWPRF
  /-- 08_scheduled_windows.md R230. -/
  | SCH_LGUARD
  /-- 08_scheduled_windows.md R230. -/
  | SCH_LJIT
  /-- 08_scheduled_windows.md R230. -/
  | SCH_LPREP
  /-- 08_scheduled_windows.md R230. -/
  | SCH_LRXLAT
  /-- 08_scheduled_windows.md R230. -/
  | SCH_LOFFMAX
  /-- 08_scheduled_windows.md R230. -/
  | SCH_LOVH
  /-- 08_scheduled_windows.md R230. -/
  | SCH_LSCHID
  /-- 08_scheduled_windows.md R230. -/
  | SCH_LCANREF0
  /-- 08_scheduled_windows.md R230. -/
  | SCH_LCANNULL0
  /-- 08_scheduled_windows.md R230. -/
  | SCH_LCANREF1
  /-- 08_scheduled_windows.md R230. -/
  | SCH_LCANNULL1
  /-- 08_scheduled_windows.md R230. -/
  | SCH_LCTL
  /-- 08_scheduled_windows.md R230. -/
  | SCH_LSTAT
  /-- 08_scheduled_windows.md R230. -/
  | SCH_LD0
  /-- 08_scheduled_windows.md R230. -/
  | SCH_LD1
  /-- 08_scheduled_windows.md R230. -/
  | SCH_LOFS
  /-- 08_scheduled_windows.md R230. -/
  | SCH_LCSEL
  /-- 08_scheduled_windows.md R230. -/
  | SCH_LCNT
  /-- 08_scheduled_windows.md R231. -/
  | SCH_BCFG
  /-- 08_scheduled_windows.md R231. -/
  | SCH_BHEAD
  /-- 08_scheduled_windows.md R231. -/
  | SCH_BLEN
  /-- 08_scheduled_windows.md R231. -/
  | SCH_BCTL
  /-- 08_scheduled_windows.md R231. -/
  | SCH_BSTAT
  /-- 09_barrels_threads.md R264. -/
  | BRL_SSEL
  /-- 09_barrels_threads.md R264. -/
  | BRL_SENT
  /-- 09_barrels_threads.md R264. -/
  | BRL_AENT
  /-- 09_barrels_threads.md R264. -/
  | BRL_CTL
  /-- 09_barrels_threads.md R264. -/
  | BRL_STAT
  /-- 09_barrels_threads.md R264. -/
  | BRL_ERR
  /-- 09_barrels_threads.md R264. -/
  | BRL_SPCNT
  /-- 09_barrels_threads.md R265. -/
  | THR_SEL
  /-- 09_barrels_threads.md R265. -/
  | THR_CTL
  /-- 09_barrels_threads.md R265. -/
  | THR_STAT
  /-- 09_barrels_threads.md R265. -/
  | THR_WEIGHT
  /-- 09_barrels_threads.md R265. -/
  | THR_CIDX
  /-- 09_barrels_threads.md R265. -/
  | THR_CDATA
  /-- 09_barrels_threads.md R265. -/
  | THR_EVCNTA
  /-- 09_barrels_threads.md R265. -/
  | THR_EVCNTB
  /-- 09_barrels_threads.md R265. -/
  | THR_IRQCFG
  /-- 09_barrels_threads.md R265. -/
  | THR_IRQCNT
  /-- 09_barrels_threads.md R265. -/
  | THR_IVEC
  /-- 09_barrels_threads.md R265. -/
  | THR_EMVEC
  /-- 09_barrels_threads.md R265. -/
  | THR_FCAUSE
  /-- 09_barrels_threads.md R265. -/
  | THR_FPC
  /-- 09_barrels_threads.md R265. -/
  | THR_FADDR
  /-- 09_barrels_threads.md R265. -/
  | THR_FPEND
  /-- 09_barrels_threads.md R265. -/
  | THR_FCNT
  /-- 09_barrels_threads.md R265. -/
  | THR_SWCTL
  /-- 09_barrels_threads.md R265. -/
  | THR_SWSTAT
  /-- 09_barrels_threads.md R265. -/
  | THR_SWVEC
  /-- 09_barrels_threads.md R265. -/
  | THR_SWPC
  /-- 09_barrels_threads.md R265. -/
  | THR_SWCNT
  /-- 12_memory_fabric.md R340. -/
  | JX_CFG
  /-- 12_memory_fabric.md R340. -/
  | JX_HWBASE0
  /-- 12_memory_fabric.md R340. -/
  | JX_HWBASE1
  /-- 12_memory_fabric.md R340. -/
  | JX_HWSTAT
  /-- 12_memory_fabric.md R340. -/
  | JX_HWCNT
  /-- 12_memory_fabric.md R340. -/
  | JX_FABSTAT
  /-- 12_memory_fabric.md R340. -/
  | JX_ECCCNT
  /-- 12_memory_fabric.md R340. -/
  | JX_ECCSRC
  /-- 12_memory_fabric.md R340. -/
  | JX_ECCADDR
  /-- 12_memory_fabric.md R340. -/
  | JX_NWADDR
  /-- 12_memory_fabric.md R340. -/
  | JX_NWSRC
  /-- 13_locks_conduits.md R360. -/
  | LCK_SEL
  /-- 13_locks_conduits.md R360. -/
  | LCK_SADDR
  /-- 13_locks_conduits.md R360. -/
  | LCK_SSTAT
  /-- 13_locks_conduits.md R360. -/
  | LCK_WADDR
  /-- 13_locks_conduits.md R360. -/
  | LCK_WSTAT
  /-- 13_locks_conduits.md R360. -/
  | LCK_FCTL
  /-- 13_locks_conduits.md R360. -/
  | LCK_FSTAT
  /-- 13_locks_conduits.md R360. -/
  | LCK_CNT
  /-- 13_locks_conduits.md R361. -/
  | CND_SEL
  /-- 13_locks_conduits.md R361. -/
  | CND_CFG
  /-- 13_locks_conduits.md R361. -/
  | CND_STAT
  /-- 13_locks_conduits.md R361. -/
  | CND_CTL
  /-- 13_locks_conduits.md R361. -/
  | CND_ARES
  /-- 13_locks_conduits.md R361. -/
  | CND_CNT
  /-- 14_causeway.md R377. -/
  | CWY_FIRE
  /-- 14_causeway.md R377. -/
  | CWY_PSEL
  /-- 14_causeway.md R377. -/
  | CWY_PMAP
  /-- 14_causeway.md R377. -/
  | CWY_CHSEL
  /-- 14_causeway.md R377. -/
  | CWY_CHCFG
  /-- 14_causeway.md R377. -/
  | CWY_CHSTAT
  /-- 14_causeway.md R377. -/
  | CWY_FLOOD
  /-- 14_causeway.md R377. -/
  | CWY_MUTE
  /-- 14_causeway.md R377. -/
  | CWY_STAT
  /-- 14_causeway.md R377. -/
  | CWY_LASTMUTE
  /-- 14_causeway.md R377. -/
  | CWY_SATCNT
  /-- 14_causeway.md R377. -/
  | CWY_DROPCNT
  /-- 15_timers.md R396. -/
  | TMR_CFG
  /-- 15_timers.md R396. -/
  | TMR_PRE
  /-- 15_timers.md R396. -/
  | TMR_CNT
  /-- 15_timers.md R396. -/
  | TMR_CNTH1
  /-- 15_timers.md R396. -/
  | TMR_CNTH2
  /-- 15_timers.md R396. -/
  | TMR_TOP
  /-- 15_timers.md R396. -/
  | TMR_CMP
  /-- 15_timers.md R396. -/
  | TMR_OFS
  /-- 15_timers.md R396. -/
  | TMR_EVT
  /-- 15_timers.md R396. -/
  | TMR_CTL
  /-- 15_timers.md R396. -/
  | TMR_STAT
  /-- 15_timers.md R396. -/
  | TMR_CAP
  /-- 15_timers.md R396. -/
  | TMR_CAPH1
  /-- 15_timers.md R396. -/
  | TMR_CAPH2
  /-- 15_timers.md R396. -/
  | TMR_OWN
  /-- 15_timers.md R396. -/
  | TMR_GSTART
  /-- 16_host_rings.md R432. -/
  | HRG_CFG
  /-- 16_host_rings.md R432. -/
  | HRG_DBBASE0
  /-- 16_host_rings.md R432. -/
  | HRG_DBBASE1
  /-- 16_host_rings.md R432. -/
  | HRG_RSEL
  /-- 16_host_rings.md R432. -/
  | HRG_RBASE0
  /-- 16_host_rings.md R432. -/
  | HRG_RBASE1
  /-- 16_host_rings.md R432. -/
  | HRG_RCFG
  /-- 16_host_rings.md R432. -/
  | HRG_RCTL
  /-- 16_host_rings.md R432. -/
  | HRG_RSTAT
  /-- 16_host_rings.md R432. -/
  | HRG_RIDX
  /-- 16_host_rings.md R432. -/
  | HRG_RHOST
  /-- 16_host_rings.md R432. -/
  | HRG_STAT
  /-- 16_host_rings.md R432. -/
  | HRG_KNOCK
  /-- 16_host_rings.md R432. -/
  | HRG_KIRQ
  /-- 16_host_rings.md R432. -/
  | HRG_EPOCH
  /-- 16_host_rings.md R432. -/
  | HRG_ISTAT
  /-- 16_host_rings.md R432. -/
  | HRG_IEN
  /-- 16_host_rings.md R432. -/
  | HRG_IMAP0
  /-- 16_host_rings.md R432. -/
  | HRG_BERR0
  /-- 16_host_rings.md R432. -/
  | HRG_BERR1
  /-- 16_host_rings.md R432. -/
  | HRG_BERRSTAT
  /-- 16_host_rings.md R432. -/
  | HRG_CSEL
  /-- 16_host_rings.md R432. -/
  | HRG_CNT0
  /-- 16_host_rings.md R432. -/
  | HRG_CNT1
  /-- 16_host_rings.md R434. -/
  | JX_SETUP_ERR
  /-- 16_host_rings.md R434. -/
  | JX_SETUP_EADDR
  /-- 17_commands_keys.md R464. -/
  | KEY_STAT
  /-- 17_commands_keys.md R464. -/
  | KEY_GEN
  /-- 17_commands_keys.md R464. -/
  | KEY_LAST0
  /-- 17_commands_keys.md R464. -/
  | KEY_LAST1
  /-- 17_commands_keys.md R464. -/
  | KEY_CEIL0
  /-- 17_commands_keys.md R464. -/
  | KEY_CEIL1
  /-- 17_commands_keys.md R464. -/
  | KEY_BEHMASK
  /-- 17_commands_keys.md R464. -/
  | KEY_ECNT
  /-- 17_commands_keys.md R464. -/
  | KEY_CSTAT
  /-- 17_commands_keys.md R464. -/
  | KEY_CIDX
  /-- 17_commands_keys.md R464. -/
  | KEY_CW
  /-- 17_commands_keys.md R464. -/
  | KEY_CRES
  /-- 17_commands_keys.md R464. -/
  | KEY_CRD
  /-- 17_commands_keys.md R464. -/
  | KEY_CDONE
  /-- 17_commands_keys.md R464. -/
  | KEY_CTAKE
  /-- 17_commands_keys.md R465. -/
  | LDG_ADDR
  /-- 17_commands_keys.md R465. -/
  | LDG_RD0
  /-- 17_commands_keys.md R465. -/
  | LDG_RD1
  /-- 17_commands_keys.md R465. -/
  | LDG_WD0
  /-- 17_commands_keys.md R465. -/
  | LDG_WD1
  /-- 17_commands_keys.md R465. -/
  | LDG_CTL
  /-- 17_commands_keys.md R465. -/
  | LDG_STAT
  /-- 17_commands_keys.md R465. -/
  | LDG_WCNT
  /-- 18_power.md R478. -/
  | PWR_CTL
  /-- 18_power.md R478. -/
  | PWR_TOL0
  /-- 18_power.md R478. -/
  | PWR_TOL1
  /-- 18_power.md R478. -/
  | PWR_LWAKE0
  /-- 18_power.md R478. -/
  | PWR_LWAKE1
  /-- 18_power.md R478. -/
  | PWR_STAT
  /-- 18_power.md R478. -/
  | PWR_WAKE
  /-- 18_power.md R478. -/
  | PWR_WSRC
  /-- 18_power.md R478. -/
  | PWR_LWCNT
  /-- 19_reset_recovery.md R497. -/
  | JX_STATE
  /-- 19_reset_recovery.md R497. -/
  | JX_BOOT_ADDR0
  /-- 19_reset_recovery.md R497. -/
  | JX_BOOT_ADDR1
  /-- 19_reset_recovery.md R497. -/
  | JX_BOOT_CTL
  /-- 19_reset_recovery.md R497. -/
  | JX_BOOT_STAT
  /-- 19_reset_recovery.md R498. -/
  | RST_CAUSE
  /-- 19_reset_recovery.md R498. -/
  | RST_CNT
  /-- 19_reset_recovery.md R498. -/
  | RST_STAT
  /-- 19_reset_recovery.md R498. -/
  | RST_WDCTL
  /-- 19_reset_recovery.md R498. -/
  | RST_WDKICK
  /-- 19_reset_recovery.md R498. -/
  | RST_WDCNT
  /-- 19_reset_recovery.md R498. -/
  | RST_SCRUB
  /-- 19_reset_recovery.md R498. -/
  | RST_SCRUBCNT
  /-- 19_reset_recovery.md R498. -/
  | RST_BISTCTL
  /-- 20_hide_debug.md R524. -/
  | HIDE_AUTH
  /-- 20_hide_debug.md R524. -/
  | HIDE_CHALCTL
  /-- 20_hide_debug.md R524. -/
  | HIDE_CHAL
  /-- 20_hide_debug.md R524. -/
  | HIDE_RESP
  /-- 20_hide_debug.md R524. -/
  | HIDE_AUTHSTAT
  /-- 20_hide_debug.md R524. -/
  | HIDE_CTL
  /-- 20_hide_debug.md R524. -/
  | HIDE_AADDR
  /-- 20_hide_debug.md R524. -/
  | HIDE_APAGE
  /-- 20_hide_debug.md R524. -/
  | HIDE_ADATA
  /-- 20_hide_debug.md R524. -/
  | HIDE_ACMD
  /-- 20_hide_debug.md R524. -/
  | HIDE_ASTAT
  /-- 20_hide_debug.md R524. -/
  | HIDE_HSEL
  /-- 20_hide_debug.md R524. -/
  | HIDE_HCTL
  /-- 20_hide_debug.md R524. -/
  | HIDE_HALT
  /-- 20_hide_debug.md R524. -/
  | HIDE_HCAUSE
  /-- 20_hide_debug.md R524. -/
  | HIDE_HIDX
  /-- 20_hide_debug.md R524. -/
  | HIDE_HDATA
  /-- 20_hide_debug.md R524. -/
  | HIDE_INSN
  /-- 20_hide_debug.md R524. -/
  | HIDE_FEED
  /-- 20_hide_debug.md R524. -/
  | HIDE_FSTAT
  /-- 20_hide_debug.md R524. -/
  | HIDE_CSEL
  /-- 20_hide_debug.md R524. -/
  | HIDE_CLO
  /-- 20_hide_debug.md R524. -/
  | HIDE_CHI
  /-- 20_hide_debug.md R524. -/
  | HIDE_CTID
  /-- 20_hide_debug.md R524. -/
  | HIDE_CCFG
  /-- 20_hide_debug.md R524. -/
  | HIDE_CVAL
  /-- 20_hide_debug.md R524. -/
  | HIDE_CVMASK
  /-- 20_hide_debug.md R524. -/
  | HIDE_CSTAT
  /-- 20_hide_debug.md R524. -/
  | HIDE_TXD
  /-- 20_hide_debug.md R524. -/
  | HIDE_TXTID
  /-- 20_hide_debug.md R524. -/
  | HIDE_RXTID
  /-- 20_hide_debug.md R524. -/
  | HIDE_RXD
  /-- 20_hide_debug.md R524. -/
  | HIDE_VTSTAT
  /-- 20_hide_debug.md R524. -/
  | HIDE_STIM
  /-- 20_hide_debug.md R524. -/
  | HIDE_STIMEN
  /-- 20_hide_debug.md R524. -/
  | HIDE_STIMEN1
  /-- 20_hide_debug.md R524. -/
  | HIDE_SPSEL
  /-- 20_hide_debug.md R524. -/
  | HIDE_SPCFG
  /-- 20_hide_debug.md R524. -/
  | HIDE_SPTALLY
  /-- 20_hide_debug.md R524. -/
  | HIDE_TRCTL
  /-- 20_hide_debug.md R524. -/
  | HIDE_TRSTAT
  /-- 09_barrels_threads.md R265. -/
  | THR_EVCFG
  deriving DecidableEq, Repr

/-- The fields of each register that are not reserved, high to low (the register tables of the chapters). -/
def Reg.flds : Reg → List FldInfo
  | .JX_ID => [⟨19, 14, .ro, 0x1a⟩, ⟨13, 8, .ro, 0x3f⟩, ⟨7, 4, .ro, 0⟩, ⟨3, 0, .ro, 0⟩]
  | .TIK_CTL => [⟨3, 3, .wt, 0⟩, ⟨2, 2, .rw, 0⟩, ⟨1, 1, .wt, 0⟩, ⟨0, 0, .rw, 0⟩]
  | .TIK_STAT => [⟨6, 6, .w1c, 0⟩, ⟨5, 5, .w1c, 0⟩, ⟨4, 4, .w1c, 0⟩, ⟨3, 3, .w1c, 0⟩, ⟨2, 2, .w1c, 0⟩, ⟨1, 1, .ro, 0⟩, ⟨0, 0, .ro, 0⟩]
  | .TIK_PERIOD_LO => [⟨19, 0, .rw, 0x80⟩]
  | .TIK_PERIOD_HI => [⟨0, 0, .rw, 0⟩]
  | .TIK_SLACK => [⟨19, 0, .rw, 0⟩]
  | .TIK_FRAME => [⟨7, 0, .rw, 1⟩]
  | .TIK_MATRIX => [⟨2, 0, .rw, 0⟩]
  | .TIK_EPOCH => [⟨19, 0, .rw, 0⟩]
  | .TIK_POS => [⟨13, 8, .ro, 0⟩, ⟨7, 0, .ro, 0⟩]
  | .TIK_COUNT0 => [⟨19, 0, .rs, 0⟩]
  | .TIK_COUNT1 => [⟨19, 0, .ro, 0⟩]
  | .TIK_LAUNCH => [⟨19, 0, .rs, 0⟩]
  | .TIK_DEV => [⟨19, 0, .ro, 0⟩]
  | .TIK_LATE => [⟨19, 0, .ro, 0⟩]
  | .TIK_EVCNT => [⟨19, 10, .rc, 0⟩, ⟨9, 0, .rc, 0⟩]
  | .TIK_OVR => [⟨19, 0, .w1c, 0⟩]
  | .TIK_OVR_CNT => [⟨19, 0, .rc, 0⟩]
  | .TIK_OVR_FIRST => [⟨19, 6, .ro, 0⟩, ⟨5, 0, .ro, 0⟩]
  | .TIK_BSEL => [⟨5, 0, .rw, 0⟩]
  | .TIK_BUDGET => [⟨19, 0, .ro, 0⟩]
  | .SUN_TIME => [⟨19, 0, .rs, 0⟩]
  | .SUN_RATE0 => [⟨19, 0, .rw, 0⟩]
  | .SUN_RATE1 => [⟨19, 0, .rw, 0⟩]
  | .SUN_RATEF0 => [⟨19, 0, .ro, 0⟩]
  | .SUN_RATEF1 => [⟨19, 0, .ro, 0⟩]
  | .SUN_ADJ => [⟨19, 0, .rw, 0⟩]
  | .SUN_CTL => [⟨1, 0, .wt, 0⟩]
  | .SUN_OWN => [⟨5, 0, .rw, 0⟩]
  | .SUN_STAT => [⟨4, 4, .w1c, 0⟩, ⟨3, 3, .w1c, 0⟩, ⟨2, 2, .w1c, 0⟩, ⟨1, 1, .w1c, 0⟩, ⟨0, 0, .ro, 0⟩]
  | .SUN_LATECNT => [⟨19, 10, .rc, 0⟩, ⟨9, 0, .rc, 0⟩]
  | .SUN_ECAP_CFG => [⟨19, 19, .rw, 0⟩, ⟨18, 18, .ro, 0⟩, ⟨17, 17, .w1c, 0⟩, ⟨6, 0, .rw, 0⟩]
  | .SUN_ECAP_T => [⟨19, 0, .rs, 0⟩]
  | .LNK_CFG => [⟨4, 4, .rw, 1⟩, ⟨3, 3, .rw, 0⟩, ⟨2, 2, .rw, 0⟩, ⟨1, 0, .rw, 0⟩]
  | .LNK_BIND => [⟨19, 15, .rw, 0⟩, ⟨14, 10, .rw, 0⟩, ⟨9, 5, .rw, 0⟩, ⟨4, 0, .rw, 0⟩]
  | .LNK_OWN => [⟨5, 0, .rw, 0⟩]
  | .LNK_MAXLEN => [⟨13, 0, .rw, 0x5f2⟩]
  | .LNK_MINLEN => [⟨13, 0, .rw, 0x40⟩]
  | .LNK_HOLD => [⟨7, 0, .rw, 2⟩]
  | .LNK_TRAIN => [⟨7, 0, .rw, 0⟩]
  | .LNK_LATEMAX => [⟨15, 0, .rw, 0⟩]
  | .LNK_LOSSCH => [⟨7, 7, .rw, 0⟩, ⟨6, 0, .rw, 0⟩]
  | .LNK_TSCFG => [⟨15, 8, .rw, 0⟩, ⟨7, 0, .rw, 0⟩]
  | .LNK_CTL => [⟨2, 2, .wt, 0⟩, ⟨1, 1, .wt, 0⟩, ⟨0, 0, .rw, 0⟩]
  | .LNK_STAT => [⟨6, 6, .ro, 0⟩, ⟨5, 4, .ro, 0⟩, ⟨3, 3, .w1c, 0⟩, ⟨2, 2, .w1c, 0⟩, ⟨1, 0, .ro, 0⟩]
  | .LNK_TSCTL => [⟨1, 1, .wt, 0⟩, ⟨0, 0, .wt, 0⟩]
  | .LNK_TSLVL => [⟨7, 4, .ro, 0⟩, ⟨3, 0, .ro, 0⟩]
  | .LNK_TSI => [⟨19, 0, .rs, 0⟩]
  | .LNK_TSE => [⟨19, 0, .rs, 0⟩]
  | .LNK_CSEL => [⟨4, 0, .rw, 0⟩]
  | .LNK_CNT0 => [⟨19, 0, .rs, 0⟩]
  | .LNK_CNT1 => [⟨19, 0, .ro, 0⟩]
  | .REED_CFG => [⟨19, 16, .rw, 0⟩, ⟨15, 14, .rw, 0⟩, ⟨13, 10, .rw, 0⟩, ⟨9, 8, .rw, 0⟩, ⟨7, 7, .rw, 0⟩, ⟨6, 6, .rw, 0⟩, ⟨5, 5, .rw, 0⟩, ⟨4, 4, .rw, 0⟩, ⟨3, 3, .rw, 0⟩]
  | .REED_CLK => [⟨19, 19, .rw, 0⟩, ⟨18, 18, .rw, 0⟩, ⟨17, 14, .rw, 0⟩, ⟨13, 13, .rw, 0⟩, ⟨12, 12, .rw, 0⟩, ⟨11, 8, .rw, 0⟩]
  | .REED_PINS => [⟨15, 0, .rw, 0⟩]
  | .REED_OWN => [⟨5, 0, .rw, 0⟩]
  | .REED_DIVI => [⟨19, 0, .rw, 4⟩]
  | .REED_DIVF => [⟨19, 0, .rw, 0⟩]
  | .REED_PHASE => [⟨19, 0, .rw, 0⟩]
  | .REED_EVT => [⟨11, 8, .ro, 0⟩, ⟨7, 7, .rw, 0⟩, ⟨6, 0, .rw, 0⟩]
  | .REED_PADDR => [⟨6, 6, .rw, 0⟩, ⟨5, 0, .rw, 0⟩]
  | .REED_PDATA => [⟨19, 0, .rw, 0⟩]
  | .REED_WRAPS => [⟨17, 12, .rw, 0⟩, ⟨11, 6, .rw, 0⟩, ⟨5, 0, .rw, 0x3f⟩]
  | .REED_WRAPA => [⟨19, 0, .ro, 0x3f⟩]
  | .REED_PC => [⟨5, 0, .ro, 0⟩]
  | .REED_CTL => [⟨4, 4, .wt, 0⟩, ⟨3, 3, .wt, 0⟩, ⟨2, 2, .wt, 0⟩, ⟨1, 1, .wt, 0⟩, ⟨0, 0, .wt, 0⟩]
  | .REED_STAT => [⟨19, 16, .ro, 0⟩, ⟨15, 14, .ro, 0⟩, ⟨13, 11, .ro, 5⟩, ⟨10, 10, .ro, 0⟩, ⟨9, 9, .ro, 0⟩, ⟨8, 8, .w1c, 0⟩, ⟨7, 7, .w1c, 0⟩, ⟨6, 6, .w1c, 0⟩, ⟨5, 5, .w1c, 0⟩, ⟨4, 4, .ro, 0⟩, ⟨3, 0, .ro, 0⟩]
  | .REED_SYNC => [⟨9, 9, .wt, 0⟩, ⟨8, 8, .rw, 0⟩, ⟨6, 0, .rw, 0⟩]
  | .REED_RXW => [⟨19, 0, .ro, 0⟩]
  | .REED_TXW => [⟨19, 0, .ro, 0⟩]
  | .REED_QA => [⟨19, 0, .ro, 0⟩]
  | .REED_QB => [⟨19, 0, .ro, 0⟩]
  | .REED_CDO => [⟨19, 0, .ro, 0⟩]
  | .REED_FIFO => [⟨19, 0, .rs, 0⟩]
  | .REED_MBX => [⟨19, 0, .wo, 0⟩]
  | .REED_TSET => [⟨19, 0, .rw, 0⟩]
  | .REED_ATIME => [⟨19, 0, .rs, 0⟩]
  | .REED_CAPT => [⟨19, 0, .rs, 0⟩]
  | .REED_FLT => [⟨19, 0, .rs, 0⟩]
  | .COD_SEL => [⟨9, 4, .rw, 0⟩, ⟨2, 0, .rw, 0⟩]
  | .COD_MODE => [⟨4, 0, .rw, 0⟩]
  | .COD_PARAM => [⟨11, 0, .rw, 0⟩]
  | .COD_SSTAT => [⟨0, 0, .ro, 0⟩]
  | .COD_CTL => [⟨1, 1, .wt, 0⟩, ⟨0, 0, .wt, 0⟩]
  | .COD_CRCCFG => [⟨5, 5, .rw, 1⟩, ⟨4, 0, .rw, 0x1f⟩]
  | .COD_POLY0 => [⟨19, 0, .rw, 0x11db7⟩]
  | .COD_POLY1 => [⟨11, 0, .rw, 0x4c⟩]
  | .COD_SEED0 => [⟨19, 0, .rw, 0xfffff⟩]
  | .COD_SEED1 => [⟨11, 0, .rw, 0xfff⟩]
  | .COD_CHECK0 => [⟨19, 0, .rw, 0xb20e3⟩]
  | .COD_CHECK1 => [⟨11, 0, .rw, 0xdeb⟩]
  | .COD_TRK => [⟨2, 2, .rw, 0⟩, ⟨1, 1, .rw, 0⟩, ⟨0, 0, .rw, 0⟩]
  | .COD_TRKOFF => [⟨19, 0, .rw, 0⟩]
  | .COD_TRKSJW => [⟨19, 0, .rw, 0⟩]
  | .COD_DDIVI => [⟨19, 0, .rw, 4⟩]
  | .COD_DDIVF => [⟨19, 0, .rw, 0⟩]
  | .COD_DPHASE => [⟨19, 0, .rw, 0⟩]
  | .COD_RSTAT => [⟨1, 1, .ro, 0⟩, ⟨0, 0, .ro, 0⟩]
  | .BSN_OWN => [⟨5, 0, .rw, 0⟩]
  | .BSN_FREE => [⟨14, 0, .ro, 0x4000⟩]
  | .BSN_H7 => [⟨14, 0, .ro, 0⟩]
  | .BSN_LOWW => [⟨14, 0, .rc, 0x4000⟩]
  | .BSN_NEXTSEQ => [⟨19, 0, .ro, 0⟩]
  | .BSN_RATE => [⟨19, 0, .rw, 0⟩]
  | .BSN_WPAGE => [⟨3, 0, .rw, 0⟩]
  | .BSN_ALLOC => [⟨7, 7, .wt, 0⟩, ⟨6, 0, .wt, 0⟩]
  | .BSN_AHEAD => [⟨19, 19, .ro, 0⟩, ⟨18, 18, .ro, 0⟩, ⟨13, 0, .ro, 0⟩]
  | .BSN_CHAIN0 => [⟨13, 0, .rw, 0⟩]
  | .BSN_CHAIN1 => [⟨19, 19, .wt, 0⟩, ⟨13, 0, .wt, 0⟩]
  | .BSN_RELEASE => [⟨13, 0, .wt, 0⟩]
  | .BSN_INJ1 => [⟨19, 6, .rw, 0⟩, ⟨5, 3, .rw, 0⟩]
  | .BSN_INJ2 => [⟨13, 0, .rw, 0⟩]
  | .BSN_INJ3 => [⟨19, 0, .rw, 0⟩]
  | .BSN_INJ4 => [⟨5, 5, .rw, 0⟩, ⟨4, 0, .rw, 0⟩]
  | .BSN_INJT => [⟨19, 0, .rw, 0⟩]
  | .BSN_INJGO => [⟨0, 0, .wt, 0⟩]
  | .BSN_TRAPTID => [⟨5, 0, .rw, 0⟩]
  | .BSN_TRAP0 => [⟨19, 0, .rs, 0⟩]
  | .BSN_TRAP1 => [⟨19, 6, .ro, 0⟩, ⟨5, 1, .ro, 0⟩]
  | .BSN_TRAP2 => [⟨19, 17, .ro, 0⟩, ⟨13, 0, .ro, 0⟩]
  | .BSN_TLVL => [⟨4, 0, .ro, 0⟩]
  | .BSN_QSEL => [⟨7, 3, .rw, 0⟩, ⟨2, 0, .rw, 0⟩]
  | .BSN_QFR => [⟨15, 0, .ro, 0⟩]
  | .BSN_QCELLS => [⟨14, 0, .ro, 0⟩]
  | .BSN_CSEL => [⟨3, 0, .rw, 0⟩]
  | .BSN_CNT0 => [⟨19, 0, .rs, 0⟩]
  | .BSN_CNT1 => [⟨19, 0, .ro, 0⟩]
  | .SLU_SEL => [⟨7, 3, .rw, 0⟩, ⟨2, 0, .rw, 0⟩]
  | .SLU_TBCFG => [⟨0, 0, .rw, 0⟩]
  | .SLU_TBRATE => [⟨19, 0, .rw, 0⟩]
  | .SLU_TBBURST => [⟨19, 0, .rw, 0x2400⟩]
  | .SLU_TBLVL => [⟨19, 0, .ro, 0⟩]
  | .SLU_QUOTA => [⟨14, 0, .rw, 0⟩]
  | .SLU_DRATE => [⟨19, 0, .rc, 0⟩]
  | .SLU_DPOOL => [⟨19, 0, .rc, 0⟩]
  | .SLU_DQUOTA => [⟨19, 0, .rc, 0⟩]
  | .SLU_DENTRY => [⟨19, 0, .rc, 0⟩]
  | .SLU_ENTFREE => [⟨15, 0, .ro, 0x8000⟩]
  | .WRD_CTL => [⟨1, 1, .wt, 0⟩, ⟨0, 0, .rw, 1⟩]
  | .WRD_STAT => [⟨5, 5, .w1c, 0⟩, ⟨4, 4, .w1c, 0⟩, ⟨3, 3, .w1c, 0⟩, ⟨2, 2, .w1c, 0⟩, ⟨1, 1, .ro, 0⟩, ⟨0, 0, .ro, 0⟩]
  | .WRD_CNT1 => [⟨19, 10, .rc, 0⟩, ⟨9, 0, .rc, 0⟩]
  | .WRD_CNT2 => [⟨19, 10, .rc, 0⟩, ⟨9, 0, .rc, 0⟩]
  | .WRD_SKIPS => [⟨9, 0, .rc, 0⟩]
  | .WRD_LAST => [⟨19, 18, .ro, 0⟩, ⟨13, 0, .ro, 0⟩]
  | .WRD_AUDITS => [⟨19, 0, .ro, 0⟩]
  | .FWD_SALT => [⟨10, 0, .rw, 0⟩]
  | .FWD_TPID => [⟨15, 0, .rw, 0x88a8⟩]
  | .FWD_PCFG => [⟨19, 18, .rw, 0⟩, ⟨17, 17, .rw, 0⟩, ⟨16, 16, .rw, 0⟩, ⟨15, 13, .rw, 0⟩, ⟨12, 12, .rw, 0⟩, ⟨7, 0, .rw, 0⟩]
  | .FWD_PVID => [⟨11, 0, .rw, 0⟩]
  | .FWD_MISS_LO => [⟨19, 0, .rw, 0⟩]
  | .FWD_MISS_HI => [⟨4, 0, .rw, 0⟩]
  | .FWD_CLSTID => [⟨5, 0, .rw, 0⟩]
  | .FWD_ENT0 => [⟨19, 19, .rw, 0⟩, ⟨18, 18, .rw, 0⟩, ⟨17, 17, .rw, 0⟩, ⟨16, 16, .rw, 0⟩, ⟨15, 13, .rw, 0⟩]
  | .FWD_ENT1 => [⟨19, 0, .rw, 0⟩]
  | .FWD_ENT2 => [⟨19, 0, .rw, 0⟩]
  | .FWD_ENT3 => [⟨19, 0, .rw, 0⟩]
  | .FWD_ENT4 => [⟨3, 0, .rw, 0⟩]
  | .FWD_ENT5 => [⟨19, 0, .rw, 0⟩]
  | .FWD_ENT6 => [⟨4, 0, .rw, 0⟩]
  | .FWD_OP => [⟨4, 4, .wt, 0⟩, ⟨2, 0, .wt, 0⟩]
  | .FWD_IDX => [⟨12, 0, .rw, 0⟩]
  | .FWD_OSTAT => [⟨19, 19, .ro, 0⟩, ⟨1, 0, .ro, 0⟩]
  | .FWD_NOTE0 => [⟨19, 0, .rs, 0⟩]
  | .FWD_NOTE1 => [⟨19, 15, .ro, 0⟩, ⟨14, 14, .ro, 0⟩, ⟨13, 13, .ro, 0⟩, ⟨12, 0, .ro, 0⟩]
  | .FWD_NOTE2 => [⟨19, 6, .ro, 0⟩, ⟨5, 3, .ro, 0⟩, ⟨2, 2, .ro, 0⟩]
  | .FWD_NOTE3 => [⟨19, 0, .ro, 0⟩]
  | .FWD_NOTE4 => [⟨4, 0, .ro, 0⟩]
  | .FWD_NLVL => [⟨5, 0, .ro, 0⟩]
  | .FWD_OVR0 => [⟨19, 0, .wt, 0⟩]
  | .FWD_OVR1 => [⟨19, 17, .rw, 0⟩, ⟨16, 15, .rw, 0⟩, ⟨4, 0, .rw, 0⟩]
  | .FWD_OVR2 => [⟨19, 0, .rw, 0⟩]
  | .FWD_OVRSTAT => [⟨1, 0, .ro, 0⟩]
  | .FWD_STAT => [⟨1, 1, .w1c, 0⟩, ⟨0, 0, .w1c, 0⟩]
  | .SCH_OWN => [⟨5, 0, .rw, 0⟩]
  | .SCH_NODEID => [⟨15, 0, .rw, 0⟩]
  | .SCH_RDA2 => [⟨15, 0, .rw, 0x300⟩]
  | .SCH_RDA1 => [⟨15, 0, .rw, 0x4a58⟩]
  | .SCH_RDA0 => [⟨15, 0, .rw, 1⟩]
  | .SCH_SA2 => [⟨15, 0, .rw, 0⟩]
  | .SCH_SA1 => [⟨15, 0, .rw, 0⟩]
  | .SCH_SA0 => [⟨15, 8, .rw, 0⟩]
  | .SCH_ESEL => [⟨13, 0, .rw, 0⟩]
  | .SCH_ENT0 => [⟨19, 0, .rw, 0⟩]
  | .SCH_ENT1 => [⟨19, 18, .rw, 0⟩, ⟨17, 17, .rw, 0⟩, ⟨15, 12, .rw, 0⟩, ⟨7, 0, .rw, 0⟩]
  | .SCH_ENT2 => [⟨9, 0, .rw, 0⟩]
  | .SCH_EOP => [⟨1, 0, .wt, 0⟩]
  | .SCH_BSEL => [⟨9, 0, .rw, 0⟩]
  | .SCH_LSEL => [⟨4, 0, .rw, 0⟩]
  | .SCH_LCFG => [⟨19, 19, .rw, 0⟩, ⟨18, 18, .rw, 0⟩, ⟨17, 17, .rw, 0⟩, ⟨16, 13, .rw, 0xf⟩, ⟨12, 9, .rw, 2⟩, ⟨8, 5, .rw, 3⟩, ⟨4, 2, .rw, 2⟩]
  | .SCH_LROW => [⟨19, 17, .rw, 0⟩, ⟨13, 0, .rw, 0⟩]
  | .SCH_LWPR => [⟨8, 0, .rw, 1⟩]
  | .SCH_LROWF => [⟨19, 17, .ro, 0⟩, ⟨13, 0, .ro, 0⟩]
  | .SCH_LWPRF => [⟨8, 0, .ro, 1⟩]
  | .SCH_LGUARD => [⟨15, 0, .rw, 0⟩]
  | .SCH_LJIT => [⟨15, 0, .rw, 0⟩]
  | .SCH_LPREP => [⟨7, 0, .rw, 8⟩]
  | .SCH_LRXLAT => [⟨19, 0, .rw, 0⟩]
  | .SCH_LOFFMAX => [⟨19, 0, .rw, 0x3e8⟩]
  | .SCH_LOVH => [⟨7, 0, .rw, 0x14⟩]
  | .SCH_LSCHID => [⟨15, 0, .rw, 0⟩]
  | .SCH_LCANREF0 => [⟨19, 0, .rw, 0⟩]
  | .SCH_LCANNULL0 => [⟨19, 0, .rw, 0⟩]
  | .SCH_LCANREF1 => [⟨9, 9, .rw, 0⟩, ⟨8, 0, .rw, 0⟩]
  | .SCH_LCANNULL1 => [⟨9, 9, .rw, 0⟩, ⟨8, 0, .rw, 0⟩]
  | .SCH_LCTL => [⟨3, 3, .wt, 0⟩, ⟨2, 2, .wt, 0⟩, ⟨0, 0, .rw, 0⟩]
  | .SCH_LSTAT => [⟨19, 14, .ro, 0⟩, ⟨13, 13, .w1c, 0⟩, ⟨12, 12, .w1c, 0⟩, ⟨11, 11, .ro, 0⟩, ⟨10, 10, .ro, 0⟩, ⟨6, 3, .ro, 0⟩, ⟨2, 0, .ro, 0⟩]
  | .SCH_LD0 => [⟨19, 0, .rs, 0⟩]
  | .SCH_LD1 => [⟨19, 0, .ro, 0⟩]
  | .SCH_LOFS => [⟨19, 0, .ro, 0⟩]
  | .SCH_LCSEL => [⟨4, 0, .rw, 0⟩]
  | .SCH_LCNT => [⟨19, 0, .rc, 0⟩]
  | .SCH_BCFG => [⟨19, 19, .rw, 0⟩, ⟨18, 18, .rw, 0⟩, ⟨17, 13, .rw, 0⟩, ⟨5, 0, .rw, 0⟩]
  | .SCH_BHEAD => [⟨13, 0, .rw, 0⟩]
  | .SCH_BLEN => [⟨13, 0, .rw, 0⟩]
  | .SCH_BCTL => [⟨1, 1, .wt, 0⟩, ⟨0, 0, .wt, 0⟩]
  | .SCH_BSTAT => [⟨19, 19, .ro, 0⟩, ⟨18, 18, .ro, 0⟩, ⟨15, 0, .ro, 0⟩]
  | .BRL_SSEL => [⟨6, 0, .rw, 0⟩]
  | .BRL_SENT => [⟨5, 0, .rw, 0⟩]
  | .BRL_AENT => [⟨5, 0, .ro, 0⟩]
  | .BRL_CTL => [⟨3, 3, .wt, 0⟩, ⟨2, 2, .rw, 0⟩, ⟨1, 1, .wt, 0⟩, ⟨0, 0, .wt, 0⟩]
  | .BRL_STAT => [⟨5, 4, .ro, 0⟩, ⟨3, 3, .w1c, 0⟩, ⟨2, 2, .ro, 0⟩, ⟨1, 1, .ro, 0⟩]
  | .BRL_ERR => [⟨19, 14, .ro, 0⟩, ⟨7, 7, .ro, 0⟩, ⟨6, 0, .ro, 0⟩]
  | .BRL_SPCNT => [⟨19, 0, .rc, 0⟩]
  | .THR_SEL => [⟨5, 0, .rw, 0⟩]
  | .THR_CTL => [⟨2, 2, .wt, 0⟩, ⟨1, 1, .wt, 0⟩, ⟨0, 0, .wt, 0⟩]
  | .THR_STAT => [⟨19, 17, .ro, 0⟩, ⟨16, 14, .ro, 0⟩, ⟨13, 11, .ro, 0⟩, ⟨10, 10, .ro, 0⟩, ⟨9, 9, .ro, 0⟩, ⟨3, 0, .ro, 0⟩]
  | .THR_WEIGHT => [⟨3, 0, .rw, 1⟩]
  | .THR_CIDX => [⟨4, 0, .rw, 0⟩]
  | .THR_CDATA => [⟨19, 0, .rw, 0⟩]
  | .THR_EVCNTA => [⟨15, 0, .ro, 0⟩]
  | .THR_EVCNTB => [⟨15, 0, .ro, 0⟩]
  | .THR_IRQCFG => [⟨7, 7, .rw, 0⟩, ⟨6, 0, .rw, 0⟩]
  | .THR_IRQCNT => [⟨3, 0, .ro, 0⟩]
  | .THR_IVEC => [⟨19, 0, .rw, 0⟩]
  | .THR_EMVEC => [⟨19, 0, .rw, 0⟩]
  | .THR_FCAUSE => [⟨2, 0, .ro, 0⟩]
  | .THR_FPC => [⟨19, 0, .ro, 0⟩]
  | .THR_FADDR => [⟨19, 0, .ro, 0⟩]
  | .THR_FPEND => [⟨19, 0, .w1c, 0⟩]
  | .THR_FCNT => [⟨19, 0, .rc, 0⟩]
  | .THR_SWCTL => [⟨9, 9, .wt, 0⟩, ⟨8, 1, .rw, 2⟩, ⟨0, 0, .rw, 1⟩]
  | .THR_SWSTAT => [⟨0, 0, .ro, 0⟩]
  | .THR_SWVEC => [⟨19, 0, .rw, 0⟩]
  | .THR_SWPC => [⟨19, 0, .ro, 0⟩]
  | .THR_SWCNT => [⟨9, 0, .rc, 0⟩]
  | .JX_CFG => [⟨1, 1, .rw, 0⟩, ⟨0, 0, .rw, 0⟩]
  | .JX_HWBASE0 => [⟨19, 0, .rw, 0⟩]
  | .JX_HWBASE1 => [⟨1, 0, .rw, 0⟩]
  | .JX_HWSTAT => [⟨11, 8, .ro, 0⟩, ⟨7, 4, .ro, 0⟩, ⟨3, 0, .ro, 0⟩]
  | .JX_HWCNT => [⟨19, 0, .rc, 0⟩]
  | .JX_FABSTAT => [⟨0, 0, .w1c, 0⟩]
  | .JX_ECCCNT => [⟨19, 10, .rc, 0⟩, ⟨9, 0, .rc, 0⟩]
  | .JX_ECCSRC => [⟨4, 4, .w1c, 0⟩, ⟨3, 0, .ro, 0⟩]
  | .JX_ECCADDR => [⟨19, 0, .ro, 0⟩]
  | .JX_NWADDR => [⟨19, 0, .ro, 0⟩]
  | .JX_NWSRC => [⟨19, 19, .w1c, 0⟩, ⟨4, 0, .ro, 0⟩]
  | .LCK_SEL => [⟨7, 2, .rw, 0⟩, ⟨1, 0, .rw, 0⟩]
  | .LCK_SADDR => [⟨19, 0, .ro, 0⟩]
  | .LCK_SSTAT => [⟨19, 18, .ro, 0⟩, ⟨17, 12, .ro, 0⟩, ⟨11, 6, .ro, 0⟩, ⟨3, 0, .ro, 0⟩]
  | .LCK_WADDR => [⟨19, 0, .ro, 0⟩]
  | .LCK_WSTAT => [⟨3, 0, .ro, 0⟩]
  | .LCK_FCTL => [⟨0, 0, .wt, 0⟩]
  | .LCK_FSTAT => [⟨1, 0, .ro, 0⟩]
  | .LCK_CNT => [⟨19, 10, .rc, 0⟩, ⟨9, 0, .rc, 0⟩]
  | .CND_SEL => [⟨5, 0, .rw, 0⟩]
  | .CND_CFG => [⟨19, 19, .rw, 0⟩, ⟨17, 12, .rw, 0⟩, ⟨11, 6, .rw, 0⟩]
  | .CND_STAT => [⟨19, 19, .ro, 0⟩, ⟨18, 15, .ro, 0⟩, ⟨14, 13, .ro, 0⟩, ⟨12, 9, .ro, 0⟩, ⟨8, 5, .ro, 0⟩, ⟨4, 4, .ro, 0⟩, ⟨3, 3, .ro, 0⟩]
  | .CND_CTL => [⟨1, 1, .wt, 0⟩, ⟨0, 0, .wt, 0⟩]
  | .CND_ARES => [⟨1, 0, .ro, 0⟩]
  | .CND_CNT => [⟨19, 10, .rc, 0⟩, ⟨9, 0, .rc, 0⟩]
  | .CWY_FIRE => [⟨6, 0, .wt, 0⟩]
  | .CWY_PSEL => [⟨8, 0, .rw, 0⟩]
  | .CWY_PMAP => [⟨7, 7, .rw, 0⟩, ⟨6, 0, .rw, 0⟩]
  | .CWY_CHSEL => [⟨6, 0, .rw, 0⟩]
  | .CWY_CHCFG => [⟨0, 0, .rw, 0⟩]
  | .CWY_CHSTAT => [⟨19, 19, .ro, 0⟩, ⟨18, 18, .ro, 0⟩, ⟨15, 0, .ro, 0⟩]
  | .CWY_FLOOD => [⟨15, 0, .rw, 0x400⟩]
  | .CWY_MUTE => [⟨19, 0, .w1c, 0⟩]
  | .CWY_STAT => [⟨1, 1, .w1c, 0⟩, ⟨0, 0, .w1c, 0⟩]
  | .CWY_LASTMUTE => [⟨7, 7, .ro, 0⟩, ⟨6, 0, .ro, 0⟩]
  | .CWY_SATCNT => [⟨19, 0, .rc, 0⟩]
  | .CWY_DROPCNT => [⟨19, 0, .rc, 0⟩]
  | .TMR_CFG => [⟨19, 17, .rw, 0⟩, ⟨16, 12, .rw, 0⟩, ⟨11, 11, .rw, 1⟩, ⟨10, 10, .rw, 0⟩]
  | .TMR_PRE => [⟨9, 0, .rw, 0⟩]
  | .TMR_CNT => [⟨19, 0, .rsw, 0⟩]
  | .TMR_CNTH1 => [⟨19, 0, .ro, 0⟩]
  | .TMR_CNTH2 => [⟨19, 0, .ro, 0⟩]
  | .TMR_TOP => [⟨19, 0, .rw, 0xfffff⟩]
  | .TMR_CMP => [⟨19, 0, .rw, 0⟩]
  | .TMR_OFS => [⟨19, 0, .rw, 0⟩]
  | .TMR_EVT => [⟨15, 15, .rw, 0⟩, ⟨14, 8, .rw, 0⟩, ⟨7, 7, .rw, 0⟩, ⟨6, 0, .rw, 0⟩]
  | .TMR_CTL => [⟨3, 3, .wt, 0⟩, ⟨2, 2, .wt, 0⟩, ⟨1, 1, .wt, 0⟩, ⟨0, 0, .wt, 0⟩]
  | .TMR_STAT => [⟨7, 7, .ro, 0⟩, ⟨6, 5, .ro, 0⟩, ⟨4, 4, .ro, 0⟩, ⟨3, 3, .w1c, 0⟩, ⟨1, 1, .w1c, 0⟩, ⟨0, 0, .w1c, 0⟩]
  | .TMR_CAP => [⟨19, 0, .rs, 0⟩]
  | .TMR_CAPH1 => [⟨19, 0, .ro, 0⟩]
  | .TMR_CAPH2 => [⟨19, 0, .ro, 0⟩]
  | .TMR_OWN => [⟨5, 0, .rw, 0⟩]
  | .TMR_GSTART => [⟨8, 8, .wt, 0⟩, ⟨7, 7, .rw, 0⟩, ⟨6, 0, .rw, 0⟩]
  | .HRG_CFG => [⟨0, 0, .rw, 1⟩]
  | .HRG_DBBASE0 => [⟨19, 0, .rw, 0⟩]
  | .HRG_DBBASE1 => [⟨12, 0, .rw, 0⟩]
  | .HRG_RSEL => [⟨4, 0, .rw, 0⟩]
  | .HRG_RBASE0 => [⟨19, 0, .rw, 0⟩]
  | .HRG_RBASE1 => [⟨10, 0, .rw, 0⟩]
  | .HRG_RCFG => [⟨3, 0, .rw, 4⟩]
  | .HRG_RCTL => [⟨1, 1, .wt, 0⟩, ⟨0, 0, .rw, 0⟩]
  | .HRG_RSTAT => [⟨5, 5, .ro, 0⟩, ⟨4, 2, .ro, 0⟩, ⟨1, 0, .ro, 0⟩]
  | .HRG_RIDX => [⟨15, 0, .ro, 0⟩]
  | .HRG_RHOST => [⟨15, 0, .ro, 0⟩]
  | .HRG_STAT => [⟨2, 2, .ro, 0⟩, ⟨1, 1, .ro, 0⟩, ⟨0, 0, .ro, 0⟩]
  | .HRG_KNOCK => [⟨0, 0, .wt, 0⟩]
  | .HRG_KIRQ => [⟨0, 0, .wt, 0⟩]
  | .HRG_EPOCH => [⟨15, 0, .ro, 0⟩]
  | .HRG_ISTAT => [⟨8, 0, .w1c, 0⟩]
  | .HRG_IEN => [⟨8, 0, .rw, 0⟩]
  | .HRG_IMAP0 => [⟨17, 0, .rw, 0⟩]
  | .HRG_BERR0 => [⟨19, 0, .ro, 0⟩]
  | .HRG_BERR1 => [⟨19, 0, .ro, 0⟩]
  | .HRG_BERRSTAT => [⟨7, 3, .ro, 0⟩, ⟨2, 1, .ro, 0⟩, ⟨0, 0, .w1c, 0⟩]
  | .HRG_CSEL => [⟨3, 0, .rw, 0⟩]
  | .HRG_CNT0 => [⟨19, 0, .rs, 0⟩]
  | .HRG_CNT1 => [⟨19, 0, .ro, 0⟩]
  | .JX_SETUP_ERR => [⟨19, 19, .w1c, 0⟩, ⟨3, 0, .ro, 0⟩]
  | .JX_SETUP_EADDR => [⟨19, 0, .ro, 0⟩]
  | .KEY_STAT => [⟨1, 1, .ro, 0⟩, ⟨0, 0, .ro, 0⟩]
  | .KEY_GEN => [⟨15, 0, .ro, 0⟩]
  | .KEY_LAST0 => [⟨19, 0, .rs, 0⟩]
  | .KEY_LAST1 => [⟨19, 0, .ro, 0⟩]
  | .KEY_CEIL0 => [⟨19, 0, .rs, 0⟩]
  | .KEY_CEIL1 => [⟨19, 0, .ro, 0⟩]
  | .KEY_BEHMASK => [⟨15, 1, .ro, 0⟩]
  | .KEY_ECNT => [⟨19, 10, .rc, 0⟩, ⟨9, 0, .rc, 0⟩]
  | .KEY_CSTAT => [⟨19, 19, .ro, 0⟩, ⟨18, 18, .ro, 0⟩, ⟨17, 17, .ro, 0⟩, ⟨16, 16, .ro, 0⟩, ⟨15, 8, .ro, 0⟩, ⟨7, 0, .ro, 0⟩]
  | .KEY_CIDX => [⟨15, 0, .ro, 0⟩]
  | .KEY_CW => [⟨15, 0, .ro, 0⟩]
  | .KEY_CRES => [⟨7, 0, .rw, 0⟩]
  | .KEY_CRD => [⟨15, 0, .rw, 0⟩]
  | .KEY_CDONE => [⟨0, 0, .wt, 0⟩]
  | .KEY_CTAKE => [⟨0, 0, .wt, 0⟩]
  | .LDG_ADDR => [⟨11, 0, .rw, 0⟩]
  | .LDG_RD0 => [⟨19, 0, .ro, 0⟩]
  | .LDG_RD1 => [⟨19, 19, .ro, 0⟩, ⟨11, 0, .ro, 0⟩]
  | .LDG_WD0 => [⟨19, 0, .rw, 0⟩]
  | .LDG_WD1 => [⟨11, 0, .rw, 0⟩]
  | .LDG_CTL => [⟨0, 0, .wt, 0⟩]
  | .LDG_STAT => [⟨2, 2, .w1c, 0⟩, ⟨1, 1, .ro, 0⟩, ⟨0, 0, .ro, 0⟩]
  | .LDG_WCNT => [⟨19, 0, .ro, 0⟩]
  | .PWR_CTL => [⟨2, 0, .rw, 4⟩]
  | .PWR_TOL0 => [⟨19, 0, .rw, 0x14⟩]
  | .PWR_TOL1 => [⟨11, 0, .rw, 0⟩]
  | .PWR_LWAKE0 => [⟨19, 0, .rw, 0⟩]
  | .PWR_LWAKE1 => [⟨3, 0, .rw, 0⟩]
  | .PWR_STAT => [⟨12, 10, .ro, 0⟩, ⟨9, 3, .ro, 0⟩, ⟨2, 0, .ro, 0⟩]
  | .PWR_WAKE => [⟨0, 0, .wt, 0⟩]
  | .PWR_WSRC => [⟨5, 5, .w1c, 0⟩, ⟨4, 4, .w1c, 0⟩, ⟨3, 3, .w1c, 0⟩, ⟨2, 2, .w1c, 0⟩, ⟨1, 1, .w1c, 0⟩, ⟨0, 0, .w1c, 0⟩]
  | .PWR_LWCNT => [⟨19, 0, .rc, 0⟩]
  | .JX_STATE => [⟨2, 0, .ro, 0⟩]
  | .JX_BOOT_ADDR0 => [⟨19, 0, .rw, 0⟩]
  | .JX_BOOT_ADDR1 => [⟨12, 0, .rw, 0⟩]
  | .JX_BOOT_CTL => [⟨1, 1, .rw, 0⟩, ⟨0, 0, .wt, 0⟩]
  | .JX_BOOT_STAT => [⟨19, 19, .w1c, 0⟩, ⟨15, 8, .ro, 0⟩, ⟨7, 0, .ro, 0⟩]
  | .RST_CAUSE => [⟨8, 6, .ro, 1⟩, ⟨5, 0, .w1c, 1⟩]
  | .RST_CNT => [⟨19, 0, .ro, 0⟩]
  | .RST_STAT => [⟨1, 1, .ro, 1⟩, ⟨0, 0, .ro, 0⟩]
  | .RST_WDCTL => [⟨19, 4, .rw, 0x100⟩, ⟨0, 0, .rw, 0⟩]
  | .RST_WDKICK => [⟨0, 0, .wt, 0⟩]
  | .RST_WDCNT => [⟨15, 0, .ro, 0⟩]
  | .RST_SCRUB => [⟨0, 0, .rw, 1⟩]
  | .RST_SCRUBCNT => [⟨19, 0, .ro, 0⟩]
  | .RST_BISTCTL => [⟨2, 2, .wt, 0⟩, ⟨1, 1, .rw, 0⟩, ⟨0, 0, .rw, 0⟩]
  | .HIDE_AUTH => [⟨3, 2, .ro, 0⟩, ⟨1, 0, .ro, 0⟩]
  | .HIDE_CHALCTL => [⟨2, 2, .wt, 0⟩, ⟨1, 0, .wt, 0⟩]
  | .HIDE_CHAL => [⟨15, 0, .ro, 0⟩]
  | .HIDE_RESP => [⟨15, 0, .wo, 0⟩]
  | .HIDE_AUTHSTAT => [⟨19, 10, .rc, 0⟩, ⟨1, 1, .ro, 0⟩, ⟨0, 0, .ro, 0⟩]
  | .HIDE_CTL => [⟨1, 1, .rw, 0⟩, ⟨0, 0, .rw, 0⟩]
  | .HIDE_AADDR => [⟨19, 0, .rw, 0⟩]
  | .HIDE_APAGE => [⟨5, 4, .rw, 0⟩, ⟨3, 0, .rw, 0⟩]
  | .HIDE_ADATA => [⟨19, 0, .rw, 0⟩]
  | .HIDE_ACMD => [⟨2, 2, .wt, 0⟩, ⟨1, 0, .wt, 0⟩]
  | .HIDE_ASTAT => [⟨19, 19, .ro, 0⟩, ⟨7, 4, .ro, 0⟩, ⟨1, 0, .ro, 0⟩]
  | .HIDE_HSEL => [⟨5, 0, .rw, 0⟩]
  | .HIDE_HCTL => [⟨6, 6, .wt, 0⟩, ⟨5, 5, .wt, 0⟩, ⟨4, 4, .wt, 0⟩, ⟨3, 3, .wt, 0⟩, ⟨2, 2, .wt, 0⟩, ⟨1, 1, .wt, 0⟩, ⟨0, 0, .wt, 0⟩]
  | .HIDE_HALT => [⟨19, 0, .ro, 0⟩]
  | .HIDE_HCAUSE => [⟨7, 7, .ro, 0⟩, ⟨6, 4, .ro, 0⟩, ⟨3, 0, .ro, 0⟩]
  | .HIDE_HIDX => [⟨4, 0, .rw, 0⟩]
  | .HIDE_HDATA => [⟨19, 0, .rw, 0⟩]
  | .HIDE_INSN => [⟨15, 0, .rw, 0⟩]
  | .HIDE_FEED => [⟨4, 4, .wt, 0⟩, ⟨3, 0, .rw, 0⟩]
  | .HIDE_FSTAT => [⟨19, 19, .ro, 0⟩, ⟨6, 4, .ro, 0⟩, ⟨1, 0, .ro, 0⟩]
  | .HIDE_CSEL => [⟨5, 4, .rw, 0⟩, ⟨3, 3, .rw, 0⟩, ⟨2, 0, .rw, 0⟩]
  | .HIDE_CLO => [⟨19, 0, .rw, 0⟩]
  | .HIDE_CHI => [⟨19, 0, .rw, 0⟩]
  | .HIDE_CTID => [⟨11, 6, .rw, 0⟩, ⟨5, 0, .rw, 0⟩]
  | .HIDE_CCFG => [⟨10, 9, .rw, 0⟩, ⟨8, 8, .rw, 0⟩, ⟨7, 6, .rw, 0⟩, ⟨5, 5, .rw, 0⟩, ⟨4, 3, .rw, 0⟩, ⟨0, 0, .rw, 0⟩]
  | .HIDE_CVAL => [⟨19, 0, .rw, 0⟩]
  | .HIDE_CVMASK => [⟨19, 0, .rw, 0⟩]
  | .HIDE_CSTAT => [⟨1, 1, .ro, 0⟩, ⟨0, 0, .w1c, 0⟩]
  | .HIDE_TXD => [⟨19, 19, .rsw, 0⟩, ⟨15, 0, .rsw, 0⟩]
  | .HIDE_TXTID => [⟨5, 0, .ro, 0⟩]
  | .HIDE_RXTID => [⟨5, 0, .rw, 0⟩]
  | .HIDE_RXD => [⟨19, 19, .rsw, 0⟩, ⟨15, 0, .rsw, 0⟩]
  | .HIDE_VTSTAT => [⟨19, 10, .rc, 0⟩, ⟨9, 9, .w1c, 0⟩, ⟨6, 4, .ro, 0⟩, ⟨3, 0, .ro, 0⟩]
  | .HIDE_STIM => [⟨19, 0, .wt, 0⟩]
  | .HIDE_STIMEN => [⟨19, 0, .rw, 0⟩]
  | .HIDE_STIMEN1 => [⟨11, 0, .rw, 0⟩]
  | .HIDE_SPSEL => [⟨4, 0, .rw, 0⟩]
  | .HIDE_SPCFG => [⟨6, 4, .rw, 7⟩, ⟨3, 2, .rw, 0⟩, ⟨0, 0, .wt, 0⟩]
  | .HIDE_SPTALLY => [⟨19, 0, .ro, 0⟩]
  | .HIDE_TRCTL => [⟨0, 0, .rw, 0⟩]
  | .HIDE_TRSTAT => [⟨19, 0, .rc, 0⟩]
  | .THR_EVCFG => [⟨7, 7, .rw, 0⟩, ⟨6, 0, .rw, 0⟩]

/-- A named field of a register. -/
structure Fld where
  reg : Reg
  hi : Nat
  lo : Nat
  deriving DecidableEq, Repr

namespace F
abbrev JX_ID_FAMILY : Fld := ⟨.JX_ID, 19, 14⟩
abbrev JX_ID_MEMBER : Fld := ⟨.JX_ID, 13, 8⟩
abbrev JX_ID_SIREV : Fld := ⟨.JX_ID, 7, 4⟩
abbrev JX_ID_BEHREV : Fld := ⟨.JX_ID, 3, 0⟩
abbrev TIK_CTL_CANCEL : Fld := ⟨.TIK_CTL, 3, 3⟩
abbrev TIK_CTL_WHEN : Fld := ⟨.TIK_CTL, 2, 2⟩
abbrev TIK_CTL_APPLY : Fld := ⟨.TIK_CTL, 1, 1⟩
abbrev TIK_CTL_RUN : Fld := ⟨.TIK_CTL, 0, 0⟩
abbrev TIK_STAT_APPLY_ERR : Fld := ⟨.TIK_STAT, 6, 6⟩
abbrev TIK_STAT_OVR : Fld := ⟨.TIK_STAT, 5, 5⟩
abbrev TIK_STAT_REALIGN : Fld := ⟨.TIK_STAT, 4, 4⟩
abbrev TIK_STAT_SKIP : Fld := ⟨.TIK_STAT, 3, 3⟩
abbrev TIK_STAT_SLIP : Fld := ⟨.TIK_STAT, 2, 2⟩
abbrev TIK_STAT_RUNNING : Fld := ⟨.TIK_STAT, 1, 1⟩
abbrev TIK_STAT_PENDING : Fld := ⟨.TIK_STAT, 0, 0⟩
abbrev TIK_PERIOD_HI_P_HI : Fld := ⟨.TIK_PERIOD_HI, 0, 0⟩
abbrev TIK_FRAME_F : Fld := ⟨.TIK_FRAME, 7, 0⟩
abbrev TIK_MATRIX_M : Fld := ⟨.TIK_MATRIX, 2, 0⟩
abbrev TIK_POS_CYCLE_COUNT : Fld := ⟨.TIK_POS, 13, 8⟩
abbrev TIK_POS_TICK_IN_FRAME : Fld := ⟨.TIK_POS, 7, 0⟩
abbrev TIK_EVCNT_SKIPS : Fld := ⟨.TIK_EVCNT, 19, 10⟩
abbrev TIK_EVCNT_SLIPS : Fld := ⟨.TIK_EVCNT, 9, 0⟩
abbrev TIK_OVR_FIRST_TICK : Fld := ⟨.TIK_OVR_FIRST, 19, 6⟩
abbrev TIK_OVR_FIRST_TID : Fld := ⟨.TIK_OVR_FIRST, 5, 0⟩
abbrev TIK_BSEL_TID : Fld := ⟨.TIK_BSEL, 5, 0⟩
abbrev SUN_CTL_OP : Fld := ⟨.SUN_CTL, 1, 0⟩
abbrev SUN_OWN_TID : Fld := ⟨.SUN_OWN, 5, 0⟩
abbrev SUN_STAT_ACT_LATE : Fld := ⟨.SUN_STAT, 4, 4⟩
abbrev SUN_STAT_AT_LATE : Fld := ⟨.SUN_STAT, 3, 3⟩
abbrev SUN_STAT_RATE_SET : Fld := ⟨.SUN_STAT, 2, 2⟩
abbrev SUN_STAT_STEPPED : Fld := ⟨.SUN_STAT, 1, 1⟩
abbrev SUN_STAT_REFMODE : Fld := ⟨.SUN_STAT, 0, 0⟩
abbrev SUN_LATECNT_AT : Fld := ⟨.SUN_LATECNT, 19, 10⟩
abbrev SUN_LATECNT_ACT : Fld := ⟨.SUN_LATECNT, 9, 0⟩
abbrev SUN_ECAP_CFG_EN : Fld := ⟨.SUN_ECAP_CFG, 19, 19⟩
abbrev SUN_ECAP_CFG_FRESH : Fld := ⟨.SUN_ECAP_CFG, 18, 18⟩
abbrev SUN_ECAP_CFG_OVER : Fld := ⟨.SUN_ECAP_CFG, 17, 17⟩
abbrev SUN_ECAP_CFG_CH : Fld := ⟨.SUN_ECAP_CFG, 6, 0⟩
abbrev LNK_CFG_FLOG : Fld := ⟨.LNK_CFG, 4, 4⟩
abbrev LNK_CFG_REFOUT : Fld := ⟨.LNK_CFG, 3, 3⟩
abbrev LNK_CFG_SPEED : Fld := ⟨.LNK_CFG, 2, 2⟩
abbrev LNK_CFG_MODE : Fld := ⟨.LNK_CFG, 1, 0⟩
abbrev LNK_BIND_AUX1 : Fld := ⟨.LNK_BIND, 19, 15⟩
abbrev LNK_BIND_AUX0 : Fld := ⟨.LNK_BIND, 14, 10⟩
abbrev LNK_BIND_TXR : Fld := ⟨.LNK_BIND, 9, 5⟩
abbrev LNK_BIND_RXR : Fld := ⟨.LNK_BIND, 4, 0⟩
abbrev LNK_OWN_TID : Fld := ⟨.LNK_OWN, 5, 0⟩
abbrev LNK_MAXLEN_MAXLEN : Fld := ⟨.LNK_MAXLEN, 13, 0⟩
abbrev LNK_MINLEN_MINLEN : Fld := ⟨.LNK_MINLEN, 13, 0⟩
abbrev LNK_HOLD_TICKS : Fld := ⟨.LNK_HOLD, 7, 0⟩
abbrev LNK_TRAIN_TICKS : Fld := ⟨.LNK_TRAIN, 7, 0⟩
abbrev LNK_LATEMAX_ROUNDS : Fld := ⟨.LNK_LATEMAX, 15, 0⟩
abbrev LNK_LOSSCH_EN : Fld := ⟨.LNK_LOSSCH, 7, 7⟩
abbrev LNK_LOSSCH_CH : Fld := ⟨.LNK_LOSSCH, 6, 0⟩
abbrev LNK_TSCFG_TSE_CLS : Fld := ⟨.LNK_TSCFG, 15, 8⟩
abbrev LNK_TSCFG_TSI_CLS : Fld := ⟨.LNK_TSCFG, 7, 0⟩
abbrev LNK_CTL_LOSS : Fld := ⟨.LNK_CTL, 2, 2⟩
abbrev LNK_CTL_UP_REQ : Fld := ⟨.LNK_CTL, 1, 1⟩
abbrev LNK_CTL_EN : Fld := ⟨.LNK_CTL, 0, 0⟩
abbrev LNK_STAT_FLUSHING : Fld := ⟨.LNK_STAT, 6, 6⟩
abbrev LNK_STAT_LOSS_SRC : Fld := ⟨.LNK_STAT, 5, 4⟩
abbrev LNK_STAT_TS_OVF : Fld := ⟨.LNK_STAT, 3, 3⟩
abbrev LNK_STAT_TRAIN_TO : Fld := ⟨.LNK_STAT, 2, 2⟩
abbrev LNK_STAT_STATE : Fld := ⟨.LNK_STAT, 1, 0⟩
abbrev LNK_TSCTL_POP_E : Fld := ⟨.LNK_TSCTL, 1, 1⟩
abbrev LNK_TSCTL_POP_I : Fld := ⟨.LNK_TSCTL, 0, 0⟩
abbrev LNK_TSLVL_TSE : Fld := ⟨.LNK_TSLVL, 7, 4⟩
abbrev LNK_TSLVL_TSI : Fld := ⟨.LNK_TSLVL, 3, 0⟩
abbrev LNK_CSEL_SEL : Fld := ⟨.LNK_CSEL, 4, 0⟩
abbrev REED_CFG_IBASE : Fld := ⟨.REED_CFG, 19, 16⟩
abbrev REED_CFG_IW : Fld := ⟨.REED_CFG, 15, 14⟩
abbrev REED_CFG_OBASE : Fld := ⟨.REED_CFG, 13, 10⟩
abbrev REED_CFG_OW : Fld := ⟨.REED_CFG, 9, 8⟩
abbrev REED_CFG_IDIR : Fld := ⟨.REED_CFG, 7, 7⟩
abbrev REED_CFG_ODIR : Fld := ⟨.REED_CFG, 6, 6⟩
abbrev REED_CFG_SYNC : Fld := ⟨.REED_CFG, 5, 5⟩
abbrev REED_CFG_IJUST : Fld := ⟨.REED_CFG, 4, 4⟩
abbrev REED_CFG_OJUST : Fld := ⟨.REED_CFG, 3, 3⟩
abbrev REED_CLK_ISRC : Fld := ⟨.REED_CLK, 19, 19⟩
abbrev REED_CLK_IEDGE : Fld := ⟨.REED_CLK, 18, 18⟩
abbrev REED_CLK_IPIN : Fld := ⟨.REED_CLK, 17, 14⟩
abbrev REED_CLK_OSRC : Fld := ⟨.REED_CLK, 13, 13⟩
abbrev REED_CLK_OEDGE : Fld := ⟨.REED_CLK, 12, 12⟩
abbrev REED_CLK_OPIN : Fld := ⟨.REED_CLK, 11, 8⟩
abbrev REED_PINS_OEMASK : Fld := ⟨.REED_PINS, 15, 0⟩
abbrev REED_OWN_TID : Fld := ⟨.REED_OWN, 5, 0⟩
abbrev REED_EVT_COUNT : Fld := ⟨.REED_EVT, 11, 8⟩
abbrev REED_EVT_EN : Fld := ⟨.REED_EVT, 7, 7⟩
abbrev REED_EVT_CH : Fld := ⟨.REED_EVT, 6, 0⟩
abbrev REED_PADDR_BANK : Fld := ⟨.REED_PADDR, 6, 6⟩
abbrev REED_PADDR_ADDR : Fld := ⟨.REED_PADDR, 5, 0⟩
abbrev REED_WRAPS_ENTRY : Fld := ⟨.REED_WRAPS, 17, 12⟩
abbrev REED_WRAPS_BOTTOM : Fld := ⟨.REED_WRAPS, 11, 6⟩
abbrev REED_WRAPS_TOP : Fld := ⟨.REED_WRAPS, 5, 0⟩
abbrev REED_PC_PC : Fld := ⟨.REED_PC, 5, 0⟩
abbrev REED_CTL_FORCE : Fld := ⟨.REED_CTL, 4, 4⟩
abbrev REED_CTL_SWAP : Fld := ⟨.REED_CTL, 3, 3⟩
abbrev REED_CTL_HALT : Fld := ⟨.REED_CTL, 2, 2⟩
abbrev REED_CTL_ARM : Fld := ⟨.REED_CTL, 1, 1⟩
abbrev REED_CTL_START : Fld := ⟨.REED_CTL, 0, 0⟩
abbrev REED_STAT_WAIT : Fld := ⟨.REED_STAT, 19, 16⟩
abbrev REED_STAT_STATE : Fld := ⟨.REED_STAT, 15, 14⟩
abbrev REED_STAT_CAUSE : Fld := ⟨.REED_STAT, 13, 11⟩
abbrev REED_STAT_SWAP_PEND : Fld := ⟨.REED_STAT, 10, 10⟩
abbrev REED_STAT_ABANK : Fld := ⟨.REED_STAT, 9, 9⟩
abbrev REED_STAT_ABANDON : Fld := ⟨.REED_STAT, 8, 8⟩
abbrev REED_STAT_LATE : Fld := ⟨.REED_STAT, 7, 7⟩
abbrev REED_STAT_IOVF : Fld := ⟨.REED_STAT, 6, 6⟩
abbrev REED_STAT_MB_OVF : Fld := ⟨.REED_STAT, 5, 5⟩
abbrev REED_STAT_MBFULL : Fld := ⟨.REED_STAT, 4, 4⟩
abbrev REED_STAT_FLVL : Fld := ⟨.REED_STAT, 3, 0⟩
abbrev REED_SYNC_GO : Fld := ⟨.REED_SYNC, 9, 9⟩
abbrev REED_SYNC_ONCH : Fld := ⟨.REED_SYNC, 8, 8⟩
abbrev REED_SYNC_CH : Fld := ⟨.REED_SYNC, 6, 0⟩
abbrev COD_SEL_REED : Fld := ⟨.COD_SEL, 9, 4⟩
abbrev COD_SEL_SLOT : Fld := ⟨.COD_SEL, 2, 0⟩
abbrev COD_MODE_MODE : Fld := ⟨.COD_MODE, 4, 0⟩
abbrev COD_PARAM_PARAM : Fld := ⟨.COD_PARAM, 11, 0⟩
abbrev COD_SSTAT_LOCK : Fld := ⟨.COD_SSTAT, 0, 0⟩
abbrev COD_CTL_SRSTALL : Fld := ⟨.COD_CTL, 1, 1⟩
abbrev COD_CTL_SRST : Fld := ⟨.COD_CTL, 0, 0⟩
abbrev COD_CRCCFG_REFL : Fld := ⟨.COD_CRCCFG, 5, 5⟩
abbrev COD_CRCCFG_WM1 : Fld := ⟨.COD_CRCCFG, 4, 0⟩
abbrev COD_POLY1_P_HI : Fld := ⟨.COD_POLY1, 11, 0⟩
abbrev COD_SEED1_S_HI : Fld := ⟨.COD_SEED1, 11, 0⟩
abbrev COD_CHECK1_C_HI : Fld := ⟨.COD_CHECK1, 11, 0⟩
abbrev COD_TRK_CANRULE : Fld := ⟨.COD_TRK, 2, 2⟩
abbrev COD_TRK_EDGES : Fld := ⟨.COD_TRK, 1, 1⟩
abbrev COD_TRK_EN : Fld := ⟨.COD_TRK, 0, 0⟩
abbrev COD_RSTAT_DSET : Fld := ⟨.COD_RSTAT, 1, 1⟩
abbrev COD_RSTAT_TRKHOLD : Fld := ⟨.COD_RSTAT, 0, 0⟩
abbrev BSN_OWN_TID : Fld := ⟨.BSN_OWN, 5, 0⟩
abbrev BSN_FREE_COUNT : Fld := ⟨.BSN_FREE, 14, 0⟩
abbrev BSN_H7_COUNT : Fld := ⟨.BSN_H7, 14, 0⟩
abbrev BSN_LOWW_MIN : Fld := ⟨.BSN_LOWW, 14, 0⟩
abbrev BSN_WPAGE_PAGE : Fld := ⟨.BSN_WPAGE, 3, 0⟩
abbrev BSN_ALLOC_C7 : Fld := ⟨.BSN_ALLOC, 7, 7⟩
abbrev BSN_ALLOC_N : Fld := ⟨.BSN_ALLOC, 6, 0⟩
abbrev BSN_AHEAD_VALID : Fld := ⟨.BSN_AHEAD, 19, 19⟩
abbrev BSN_AHEAD_BUSY : Fld := ⟨.BSN_AHEAD, 18, 18⟩
abbrev BSN_AHEAD_HEAD : Fld := ⟨.BSN_AHEAD, 13, 0⟩
abbrev BSN_CHAIN0_CELL : Fld := ⟨.BSN_CHAIN0, 13, 0⟩
abbrev BSN_CHAIN1_END : Fld := ⟨.BSN_CHAIN1, 19, 19⟩
abbrev BSN_CHAIN1_NEXT : Fld := ⟨.BSN_CHAIN1, 13, 0⟩
abbrev BSN_RELEASE_CELL : Fld := ⟨.BSN_RELEASE, 13, 0⟩
abbrev BSN_INJ1_HEAD : Fld := ⟨.BSN_INJ1, 19, 6⟩
abbrev BSN_INJ1_CLASS : Fld := ⟨.BSN_INJ1, 5, 3⟩
abbrev BSN_INJ2_LEN : Fld := ⟨.BSN_INJ2, 13, 0⟩
abbrev BSN_INJ4_TIMED : Fld := ⟨.BSN_INJ4, 5, 5⟩
abbrev BSN_INJ4_MASK : Fld := ⟨.BSN_INJ4, 4, 0⟩
abbrev BSN_INJGO_GO : Fld := ⟨.BSN_INJGO, 0, 0⟩
abbrev BSN_TRAPTID_TID : Fld := ⟨.BSN_TRAPTID, 5, 0⟩
abbrev BSN_TRAP1_HEAD : Fld := ⟨.BSN_TRAP1, 19, 6⟩
abbrev BSN_TRAP1_INPORT : Fld := ⟨.BSN_TRAP1, 5, 1⟩
abbrev BSN_TRAP2_CLASS : Fld := ⟨.BSN_TRAP2, 19, 17⟩
abbrev BSN_TRAP2_LEN : Fld := ⟨.BSN_TRAP2, 13, 0⟩
abbrev BSN_TLVL_LEVEL : Fld := ⟨.BSN_TLVL, 4, 0⟩
abbrev BSN_QSEL_PORT : Fld := ⟨.BSN_QSEL, 7, 3⟩
abbrev BSN_QSEL_CLASS : Fld := ⟨.BSN_QSEL, 2, 0⟩
abbrev BSN_QFR_FRAMES : Fld := ⟨.BSN_QFR, 15, 0⟩
abbrev BSN_QCELLS_CELLS : Fld := ⟨.BSN_QCELLS, 14, 0⟩
abbrev BSN_CSEL_SEL : Fld := ⟨.BSN_CSEL, 3, 0⟩
abbrev SLU_SEL_PORT : Fld := ⟨.SLU_SEL, 7, 3⟩
abbrev SLU_SEL_CLASS : Fld := ⟨.SLU_SEL, 2, 0⟩
abbrev SLU_TBCFG_EN : Fld := ⟨.SLU_TBCFG, 0, 0⟩
abbrev SLU_QUOTA_CELLS : Fld := ⟨.SLU_QUOTA, 14, 0⟩
abbrev SLU_ENTFREE_COUNT : Fld := ⟨.SLU_ENTFREE, 15, 0⟩
abbrev WRD_CTL_NOW : Fld := ⟨.WRD_CTL, 1, 1⟩
abbrev WRD_CTL_EN : Fld := ⟨.WRD_CTL, 0, 0⟩
abbrev WRD_STAT_CROSS : Fld := ⟨.WRD_STAT, 5, 5⟩
abbrev WRD_STAT_LOST : Fld := ⟨.WRD_STAT, 4, 4⟩
abbrev WRD_STAT_DFREE : Fld := ⟨.WRD_STAT, 3, 3⟩
abbrev WRD_STAT_LEAK : Fld := ⟨.WRD_STAT, 2, 2⟩
abbrev WRD_STAT_SUSPECTS : Fld := ⟨.WRD_STAT, 1, 1⟩
abbrev WRD_STAT_RUNNING : Fld := ⟨.WRD_STAT, 0, 0⟩
abbrev WRD_CNT1_LEAKS : Fld := ⟨.WRD_CNT1, 19, 10⟩
abbrev WRD_CNT1_DFREES : Fld := ⟨.WRD_CNT1, 9, 0⟩
abbrev WRD_CNT2_LOST : Fld := ⟨.WRD_CNT2, 19, 10⟩
abbrev WRD_CNT2_CROSS : Fld := ⟨.WRD_CNT2, 9, 0⟩
abbrev WRD_SKIPS_COUNT : Fld := ⟨.WRD_SKIPS, 9, 0⟩
abbrev WRD_LAST_KIND : Fld := ⟨.WRD_LAST, 19, 18⟩
abbrev WRD_LAST_CELL : Fld := ⟨.WRD_LAST, 13, 0⟩
abbrev FWD_SALT_SALT : Fld := ⟨.FWD_SALT, 10, 0⟩
abbrev FWD_TPID_TPID : Fld := ⟨.FWD_TPID, 15, 0⟩
abbrev FWD_PCFG_KIND : Fld := ⟨.FWD_PCFG, 19, 18⟩
abbrev FWD_PCFG_CLS : Fld := ⟨.FWD_PCFG, 17, 17⟩
abbrev FWD_PCFG_HAIRPIN : Fld := ⟨.FWD_PCFG, 16, 16⟩
abbrev FWD_PCFG_DCLS : Fld := ⟨.FWD_PCFG, 15, 13⟩
abbrev FWD_PCFG_MTRAP : Fld := ⟨.FWD_PCFG, 12, 12⟩
abbrev FWD_PCFG_FOFF : Fld := ⟨.FWD_PCFG, 7, 0⟩
abbrev FWD_PVID_PVID : Fld := ⟨.FWD_PVID, 11, 0⟩
abbrev FWD_MISS_HI_MASK : Fld := ⟨.FWD_MISS_HI, 4, 0⟩
abbrev FWD_CLSTID_TID : Fld := ⟨.FWD_CLSTID, 5, 0⟩
abbrev FWD_ENT0_VALID : Fld := ⟨.FWD_ENT0, 19, 19⟩
abbrev FWD_ENT0_HIT : Fld := ⟨.FWD_ENT0, 18, 18⟩
abbrev FWD_ENT0_TRAP : Fld := ⟨.FWD_ENT0, 17, 17⟩
abbrev FWD_ENT0_CLSRC : Fld := ⟨.FWD_ENT0, 16, 16⟩
abbrev FWD_ENT0_CLASS : Fld := ⟨.FWD_ENT0, 15, 13⟩
abbrev FWD_ENT4_KEY : Fld := ⟨.FWD_ENT4, 3, 0⟩
abbrev FWD_ENT6_MASK : Fld := ⟨.FWD_ENT6, 4, 0⟩
abbrev FWD_OP_CLRHIT : Fld := ⟨.FWD_OP, 4, 4⟩
abbrev FWD_OP_OP : Fld := ⟨.FWD_OP, 2, 0⟩
abbrev FWD_IDX_INDEX : Fld := ⟨.FWD_IDX, 12, 0⟩
abbrev FWD_OSTAT_BUSY : Fld := ⟨.FWD_OSTAT, 19, 19⟩
abbrev FWD_OSTAT_RESULT : Fld := ⟨.FWD_OSTAT, 1, 0⟩
abbrev FWD_NOTE1_PORT : Fld := ⟨.FWD_NOTE1, 19, 15⟩
abbrev FWD_NOTE1_HIT : Fld := ⟨.FWD_NOTE1, 14, 14⟩
abbrev FWD_NOTE1_TAGGED : Fld := ⟨.FWD_NOTE1, 13, 13⟩
abbrev FWD_NOTE1_INDEX : Fld := ⟨.FWD_NOTE1, 12, 0⟩
abbrev FWD_NOTE2_HEAD : Fld := ⟨.FWD_NOTE2, 19, 6⟩
abbrev FWD_NOTE2_CLASS : Fld := ⟨.FWD_NOTE2, 5, 3⟩
abbrev FWD_NOTE2_TRAP : Fld := ⟨.FWD_NOTE2, 2, 2⟩
abbrev FWD_NOTE4_MASK : Fld := ⟨.FWD_NOTE4, 4, 0⟩
abbrev FWD_NLVL_LEVEL : Fld := ⟨.FWD_NLVL, 5, 0⟩
abbrev FWD_OVR1_CLASS : Fld := ⟨.FWD_OVR1, 19, 17⟩
abbrev FWD_OVR1_ACT : Fld := ⟨.FWD_OVR1, 16, 15⟩
abbrev FWD_OVR1_MASK : Fld := ⟨.FWD_OVR1, 4, 0⟩
abbrev FWD_OVRSTAT_RESULT : Fld := ⟨.FWD_OVRSTAT, 1, 0⟩
abbrev FWD_STAT_OVR_LATE : Fld := ⟨.FWD_STAT, 1, 1⟩
abbrev FWD_STAT_NOTE_OVF : Fld := ⟨.FWD_STAT, 0, 0⟩
abbrev SCH_OWN_TID : Fld := ⟨.SCH_OWN, 5, 0⟩
abbrev SCH_NODEID_ID : Fld := ⟨.SCH_NODEID, 15, 0⟩
abbrev SCH_RDA2_DA : Fld := ⟨.SCH_RDA2, 15, 0⟩
abbrev SCH_RDA1_DA : Fld := ⟨.SCH_RDA1, 15, 0⟩
abbrev SCH_RDA0_DA : Fld := ⟨.SCH_RDA0, 15, 0⟩
abbrev SCH_SA2_SA : Fld := ⟨.SCH_SA2, 15, 0⟩
abbrev SCH_SA1_SA : Fld := ⟨.SCH_SA1, 15, 0⟩
abbrev SCH_SA0_SA : Fld := ⟨.SCH_SA0, 15, 8⟩
abbrev SCH_ESEL_INDEX : Fld := ⟨.SCH_ESEL, 13, 0⟩
abbrev SCH_ENT1_TYPE : Fld := ⟨.SCH_ENT1, 19, 18⟩
abbrev SCH_ENT1_RXCHK : Fld := ⟨.SCH_ENT1, 17, 17⟩
abbrev SCH_ENT1_OFF_HI : Fld := ⟨.SCH_ENT1, 15, 12⟩
abbrev SCH_ENT1_TICK : Fld := ⟨.SCH_ENT1, 7, 0⟩
abbrev SCH_ENT2_BUF : Fld := ⟨.SCH_ENT2, 9, 0⟩
abbrev SCH_EOP_OP : Fld := ⟨.SCH_EOP, 1, 0⟩
abbrev SCH_BSEL_BUF : Fld := ⟨.SCH_BSEL, 9, 0⟩
abbrev SCH_LSEL_LINK : Fld := ⟨.SCH_LSEL, 4, 0⟩
abbrev SCH_LCFG_FRAMING : Fld := ⟨.SCH_LCFG, 19, 19⟩
abbrev SCH_LCFG_SYNC : Fld := ⟨.SCH_LCFG, 18, 18⟩
abbrev SCH_LCFG_ALIGN : Fld := ⟨.SCH_LCFG, 17, 17⟩
abbrev SCH_LCFG_MPRI : Fld := ⟨.SCH_LCFG, 16, 13⟩
abbrev SCH_LCFG_LISTEN : Fld := ⟨.SCH_LCFG, 12, 9⟩
abbrev SCH_LCFG_MISSMAX : Fld := ⟨.SCH_LCFG, 8, 5⟩
abbrev SCH_LCFG_RESYNC : Fld := ⟨.SCH_LCFG, 4, 2⟩
abbrev SCH_LROW_RB : Fld := ⟨.SCH_LROW, 19, 17⟩
abbrev SCH_LROW_BASE : Fld := ⟨.SCH_LROW, 13, 0⟩
abbrev SCH_LWPR_WPR : Fld := ⟨.SCH_LWPR, 8, 0⟩
abbrev SCH_LROWF_RB : Fld := ⟨.SCH_LROWF, 19, 17⟩
abbrev SCH_LROWF_BASE : Fld := ⟨.SCH_LROWF, 13, 0⟩
abbrev SCH_LWPRF_WPR : Fld := ⟨.SCH_LWPRF, 8, 0⟩
abbrev SCH_LGUARD_G : Fld := ⟨.SCH_LGUARD, 15, 0⟩
abbrev SCH_LJIT_J : Fld := ⟨.SCH_LJIT, 15, 0⟩
abbrev SCH_LPREP_PREP : Fld := ⟨.SCH_LPREP, 7, 0⟩
abbrev SCH_LOVH_OVH : Fld := ⟨.SCH_LOVH, 7, 0⟩
abbrev SCH_LSCHID_SCHID : Fld := ⟨.SCH_LSCHID, 15, 0⟩
abbrev SCH_LCANREF1_IDE : Fld := ⟨.SCH_LCANREF1, 9, 9⟩
abbrev SCH_LCANREF1_ID_HI : Fld := ⟨.SCH_LCANREF1, 8, 0⟩
abbrev SCH_LCANNULL1_IDE : Fld := ⟨.SCH_LCANNULL1, 9, 9⟩
abbrev SCH_LCANNULL1_ID_HI : Fld := ⟨.SCH_LCANNULL1, 8, 0⟩
abbrev SCH_LCTL_CANCEL : Fld := ⟨.SCH_LCTL, 3, 3⟩
abbrev SCH_LCTL_APPLY : Fld := ⟨.SCH_LCTL, 2, 2⟩
abbrev SCH_LCTL_EN : Fld := ⟨.SCH_LCTL, 0, 0⟩
abbrev SCH_LSTAT_CCOFF : Fld := ⟨.SCH_LSTAT, 19, 14⟩
abbrev SCH_LSTAT_TIKERR : Fld := ⟨.SCH_LSTAT, 13, 13⟩
abbrev SCH_LSTAT_APPLY_ERR : Fld := ⟨.SCH_LSTAT, 12, 12⟩
abbrev SCH_LSTAT_BUSY : Fld := ⟨.SCH_LSTAT, 11, 11⟩
abbrev SCH_LSTAT_PENDING : Fld := ⟨.SCH_LSTAT, 10, 10⟩
abbrev SCH_LSTAT_MISSRUN : Fld := ⟨.SCH_LSTAT, 6, 3⟩
abbrev SCH_LSTAT_STATE : Fld := ⟨.SCH_LSTAT, 2, 0⟩
abbrev SCH_LCSEL_SEL : Fld := ⟨.SCH_LCSEL, 4, 0⟩
abbrev SCH_BCFG_KEEP : Fld := ⟨.SCH_BCFG, 19, 19⟩
abbrev SCH_BCFG_SRC : Fld := ⟨.SCH_BCFG, 18, 18⟩
abbrev SCH_BCFG_LINK : Fld := ⟨.SCH_BCFG, 17, 13⟩
abbrev SCH_BCFG_TID : Fld := ⟨.SCH_BCFG, 5, 0⟩
abbrev SCH_BHEAD_HEAD : Fld := ⟨.SCH_BHEAD, 13, 0⟩
abbrev SCH_BLEN_LEN : Fld := ⟨.SCH_BLEN, 13, 0⟩
abbrev SCH_BCTL_CLEAR : Fld := ⟨.SCH_BCTL, 1, 1⟩
abbrev SCH_BCTL_COMMIT : Fld := ⟨.SCH_BCTL, 0, 0⟩
abbrev SCH_BSTAT_READY : Fld := ⟨.SCH_BSTAT, 19, 19⟩
abbrev SCH_BSTAT_HELD : Fld := ⟨.SCH_BSTAT, 18, 18⟩
abbrev SCH_BSTAT_SEQ : Fld := ⟨.SCH_BSTAT, 15, 0⟩
abbrev BRL_SSEL_ADDR : Fld := ⟨.BRL_SSEL, 6, 0⟩
abbrev BRL_SENT_TID : Fld := ⟨.BRL_SENT, 5, 0⟩
abbrev BRL_AENT_TID : Fld := ⟨.BRL_AENT, 5, 0⟩
abbrev BRL_CTL_CANCEL : Fld := ⟨.BRL_CTL, 3, 3⟩
abbrev BRL_CTL_WHEN : Fld := ⟨.BRL_CTL, 2, 2⟩
abbrev BRL_CTL_APPLY : Fld := ⟨.BRL_CTL, 1, 1⟩
abbrev BRL_CTL_COPY : Fld := ⟨.BRL_CTL, 0, 0⟩
abbrev BRL_STAT_ERR : Fld := ⟨.BRL_STAT, 5, 4⟩
abbrev BRL_STAT_APPLY_ERR : Fld := ⟨.BRL_STAT, 3, 3⟩
abbrev BRL_STAT_BUSY : Fld := ⟨.BRL_STAT, 2, 2⟩
abbrev BRL_STAT_PENDING : Fld := ⟨.BRL_STAT, 1, 1⟩
abbrev BRL_ERR_TID : Fld := ⟨.BRL_ERR, 19, 14⟩
abbrev BRL_ERR_NOENT : Fld := ⟨.BRL_ERR, 7, 7⟩
abbrev BRL_ERR_ADDR : Fld := ⟨.BRL_ERR, 6, 0⟩
abbrev THR_SEL_TID : Fld := ⟨.THR_SEL, 5, 0⟩
abbrev THR_CTL_RESET : Fld := ⟨.THR_CTL, 2, 2⟩
abbrev THR_CTL_HOLD : Fld := ⟨.THR_CTL, 1, 1⟩
abbrev THR_CTL_RELEASE : Fld := ⟨.THR_CTL, 0, 0⟩
abbrev THR_STAT_STATE : Fld := ⟨.THR_STAT, 19, 17⟩
abbrev THR_STAT_PREV : Fld := ⟨.THR_STAT, 16, 14⟩
abbrev THR_STAT_WAITON : Fld := ⟨.THR_STAT, 13, 11⟩
abbrev THR_STAT_STALLED : Fld := ⟨.THR_STAT, 10, 10⟩
abbrev THR_STAT_HOSTWIN : Fld := ⟨.THR_STAT, 9, 9⟩
abbrev THR_STAT_EWEIGHT : Fld := ⟨.THR_STAT, 3, 0⟩
abbrev THR_WEIGHT_W : Fld := ⟨.THR_WEIGHT, 3, 0⟩
abbrev THR_CIDX_IDX : Fld := ⟨.THR_CIDX, 4, 0⟩
abbrev THR_EVCNTA_COUNTS : Fld := ⟨.THR_EVCNTA, 15, 0⟩
abbrev THR_EVCNTB_COUNTS : Fld := ⟨.THR_EVCNTB, 15, 0⟩
abbrev THR_IRQCFG_EN : Fld := ⟨.THR_IRQCFG, 7, 7⟩
abbrev THR_IRQCFG_CH : Fld := ⟨.THR_IRQCFG, 6, 0⟩
abbrev THR_IRQCNT_COUNT : Fld := ⟨.THR_IRQCNT, 3, 0⟩
abbrev THR_FCAUSE_CAUSE : Fld := ⟨.THR_FCAUSE, 2, 0⟩
abbrev THR_SWCTL_ACK : Fld := ⟨.THR_SWCTL, 9, 9⟩
abbrev THR_SWCTL_DWELL : Fld := ⟨.THR_SWCTL, 8, 1⟩
abbrev THR_SWCTL_EN : Fld := ⟨.THR_SWCTL, 0, 0⟩
abbrev THR_SWSTAT_PEND : Fld := ⟨.THR_SWSTAT, 0, 0⟩
abbrev THR_SWCNT_COUNT : Fld := ⟨.THR_SWCNT, 9, 0⟩
abbrev JX_CFG_ECCEVQ : Fld := ⟨.JX_CFG, 1, 1⟩
abbrev JX_CFG_REMAP : Fld := ⟨.JX_CFG, 0, 0⟩
abbrev JX_HWBASE1_BASE_HI : Fld := ⟨.JX_HWBASE1, 1, 0⟩
abbrev JX_HWSTAT_PAV2 : Fld := ⟨.JX_HWSTAT, 11, 8⟩
abbrev JX_HWSTAT_PAV1 : Fld := ⟨.JX_HWSTAT, 7, 4⟩
abbrev JX_HWSTAT_PAV0 : Fld := ⟨.JX_HWSTAT, 3, 0⟩
abbrev JX_FABSTAT_HWUPPER : Fld := ⟨.JX_FABSTAT, 0, 0⟩
abbrev JX_ECCCNT_UNCORR : Fld := ⟨.JX_ECCCNT, 19, 10⟩
abbrev JX_ECCCNT_CORR : Fld := ⟨.JX_ECCCNT, 9, 0⟩
abbrev JX_ECCSRC_VALID : Fld := ⟨.JX_ECCSRC, 4, 4⟩
abbrev JX_ECCSRC_MEM : Fld := ⟨.JX_ECCSRC, 3, 0⟩
abbrev JX_NWSRC_VALID : Fld := ⟨.JX_NWSRC, 19, 19⟩
abbrev JX_NWSRC_SRC : Fld := ⟨.JX_NWSRC, 4, 0⟩
abbrev LCK_SEL_TID : Fld := ⟨.LCK_SEL, 7, 2⟩
abbrev LCK_SEL_SLOT : Fld := ⟨.LCK_SEL, 1, 0⟩
abbrev LCK_SSTAT_STATE : Fld := ⟨.LCK_SSTAT, 19, 18⟩
abbrev LCK_SSTAT_NWAIT : Fld := ⟨.LCK_SSTAT, 17, 12⟩
abbrev LCK_SSTAT_FIRSTW : Fld := ⟨.LCK_SSTAT, 11, 6⟩
abbrev LCK_SSTAT_WAITMAX : Fld := ⟨.LCK_SSTAT, 3, 0⟩
abbrev LCK_WSTAT_EW : Fld := ⟨.LCK_WSTAT, 3, 0⟩
abbrev LCK_FCTL_FORCE : Fld := ⟨.LCK_FCTL, 0, 0⟩
abbrev LCK_FSTAT_RESULT : Fld := ⟨.LCK_FSTAT, 1, 0⟩
abbrev LCK_CNT_ABANDONS : Fld := ⟨.LCK_CNT, 19, 10⟩
abbrev LCK_CNT_SLOTFULL : Fld := ⟨.LCK_CNT, 9, 0⟩
abbrev CND_SEL_CD : Fld := ⟨.CND_SEL, 5, 0⟩
abbrev CND_CFG_EN : Fld := ⟨.CND_CFG, 19, 19⟩
abbrev CND_CFG_WTID : Fld := ⟨.CND_CFG, 17, 12⟩
abbrev CND_CFG_RTID : Fld := ⟨.CND_CFG, 11, 6⟩
abbrev CND_STAT_OPEN : Fld := ⟨.CND_STAT, 19, 19⟩
abbrev CND_STAT_OPENLEN : Fld := ⟨.CND_STAT, 18, 15⟩
abbrev CND_STAT_CLOSED : Fld := ⟨.CND_STAT, 14, 13⟩
abbrev CND_STAT_HEADLEN : Fld := ⟨.CND_STAT, 12, 9⟩
abbrev CND_STAT_TAKEN : Fld := ⟨.CND_STAT, 8, 5⟩
abbrev CND_STAT_WWAIT : Fld := ⟨.CND_STAT, 4, 4⟩
abbrev CND_STAT_RWAIT : Fld := ⟨.CND_STAT, 3, 3⟩
abbrev CND_CTL_FLUSH : Fld := ⟨.CND_CTL, 1, 1⟩
abbrev CND_CTL_ABORT : Fld := ⟨.CND_CTL, 0, 0⟩
abbrev CND_ARES_RESULT : Fld := ⟨.CND_ARES, 1, 0⟩
abbrev CND_CNT_ABORTS : Fld := ⟨.CND_CNT, 19, 10⟩
abbrev CND_CNT_DISCARDS : Fld := ⟨.CND_CNT, 9, 0⟩
abbrev CWY_FIRE_CH : Fld := ⟨.CWY_FIRE, 6, 0⟩
abbrev CWY_PSEL_PROD : Fld := ⟨.CWY_PSEL, 8, 0⟩
abbrev CWY_PMAP_EN : Fld := ⟨.CWY_PMAP, 7, 7⟩
abbrev CWY_PMAP_CH : Fld := ⟨.CWY_PMAP, 6, 0⟩
abbrev CWY_CHSEL_CH : Fld := ⟨.CWY_CHSEL, 6, 0⟩
abbrev CWY_CHCFG_DECL : Fld := ⟨.CWY_CHCFG, 0, 0⟩
abbrev CWY_CHSTAT_SRC : Fld := ⟨.CWY_CHSTAT, 19, 19⟩
abbrev CWY_CHSTAT_MUTE : Fld := ⟨.CWY_CHSTAT, 18, 18⟩
abbrev CWY_CHSTAT_COUNT : Fld := ⟨.CWY_CHSTAT, 15, 0⟩
abbrev CWY_FLOOD_LIMIT : Fld := ⟨.CWY_FLOOD, 15, 0⟩
abbrev CWY_STAT_SAT : Fld := ⟨.CWY_STAT, 1, 1⟩
abbrev CWY_STAT_MUTED : Fld := ⟨.CWY_STAT, 0, 0⟩
abbrev CWY_LASTMUTE_VALID : Fld := ⟨.CWY_LASTMUTE, 7, 7⟩
abbrev CWY_LASTMUTE_CH : Fld := ⟨.CWY_LASTMUTE, 6, 0⟩
abbrev TMR_CFG_SRC : Fld := ⟨.TMR_CFG, 19, 17⟩
abbrev TMR_CFG_K : Fld := ⟨.TMR_CFG, 16, 12⟩
abbrev TMR_CFG_LINKSTART : Fld := ⟨.TMR_CFG, 11, 11⟩
abbrev TMR_CFG_WIDE : Fld := ⟨.TMR_CFG, 10, 10⟩
abbrev TMR_PRE_PRE : Fld := ⟨.TMR_PRE, 9, 0⟩
abbrev TMR_EVT_CEN : Fld := ⟨.TMR_EVT, 15, 15⟩
abbrev TMR_EVT_CCH : Fld := ⟨.TMR_EVT, 14, 8⟩
abbrev TMR_EVT_EEN : Fld := ⟨.TMR_EVT, 7, 7⟩
abbrev TMR_EVT_ECH : Fld := ⟨.TMR_EVT, 6, 0⟩
abbrev TMR_CTL_CAP : Fld := ⟨.TMR_CTL, 3, 3⟩
abbrev TMR_CTL_CONT : Fld := ⟨.TMR_CTL, 2, 2⟩
abbrev TMR_CTL_STOP : Fld := ⟨.TMR_CTL, 1, 1⟩
abbrev TMR_CTL_START : Fld := ⟨.TMR_CTL, 0, 0⟩
abbrev TMR_STAT_RUN : Fld := ⟨.TMR_STAT, 7, 7⟩
abbrev TMR_STAT_CLVL : Fld := ⟨.TMR_STAT, 6, 5⟩
abbrev TMR_STAT_FRESH : Fld := ⟨.TMR_STAT, 4, 4⟩
abbrev TMR_STAT_OVER : Fld := ⟨.TMR_STAT, 3, 3⟩
abbrev TMR_STAT_OF : Fld := ⟨.TMR_STAT, 1, 1⟩
abbrev TMR_STAT_MF : Fld := ⟨.TMR_STAT, 0, 0⟩
abbrev TMR_OWN_TID : Fld := ⟨.TMR_OWN, 5, 0⟩
abbrev TMR_GSTART_GO : Fld := ⟨.TMR_GSTART, 8, 8⟩
abbrev TMR_GSTART_ONCH : Fld := ⟨.TMR_GSTART, 7, 7⟩
abbrev TMR_GSTART_CH : Fld := ⟨.TMR_GSTART, 6, 0⟩
abbrev HRG_CFG_POLL : Fld := ⟨.HRG_CFG, 0, 0⟩
abbrev HRG_DBBASE1_BASE_HI : Fld := ⟨.HRG_DBBASE1, 12, 0⟩
abbrev HRG_RSEL_RING : Fld := ⟨.HRG_RSEL, 4, 0⟩
abbrev HRG_RBASE1_BASE_HI : Fld := ⟨.HRG_RBASE1, 10, 0⟩
abbrev HRG_RCFG_LOG2 : Fld := ⟨.HRG_RCFG, 3, 0⟩
abbrev HRG_RCTL_RESTART : Fld := ⟨.HRG_RCTL, 1, 1⟩
abbrev HRG_RCTL_EN : Fld := ⟨.HRG_RCTL, 0, 0⟩
abbrev HRG_RSTAT_DRAIN : Fld := ⟨.HRG_RSTAT, 5, 5⟩
abbrev HRG_RSTAT_CAUSE : Fld := ⟨.HRG_RSTAT, 4, 2⟩
abbrev HRG_RSTAT_STATE : Fld := ⟨.HRG_RSTAT, 1, 0⟩
abbrev HRG_RIDX_D : Fld := ⟨.HRG_RIDX, 15, 0⟩
abbrev HRG_RHOST_H : Fld := ⟨.HRG_RHOST, 15, 0⟩
abbrev HRG_STAT_RXWAIT : Fld := ⟨.HRG_STAT, 2, 2⟩
abbrev HRG_STAT_CPLFULL : Fld := ⟨.HRG_STAT, 1, 1⟩
abbrev HRG_STAT_PASS : Fld := ⟨.HRG_STAT, 0, 0⟩
abbrev HRG_KNOCK_KNOCK : Fld := ⟨.HRG_KNOCK, 0, 0⟩
abbrev HRG_KIRQ_RAISE : Fld := ⟨.HRG_KIRQ, 0, 0⟩
abbrev HRG_EPOCH_EPOCH : Fld := ⟨.HRG_EPOCH, 15, 0⟩
abbrev HRG_ISTAT_SRC : Fld := ⟨.HRG_ISTAT, 8, 0⟩
abbrev HRG_IEN_EN : Fld := ⟨.HRG_IEN, 8, 0⟩
abbrev HRG_IMAP0_MAP : Fld := ⟨.HRG_IMAP0, 17, 0⟩
abbrev HRG_BERRSTAT_RING : Fld := ⟨.HRG_BERRSTAT, 7, 3⟩
abbrev HRG_BERRSTAT_CODE : Fld := ⟨.HRG_BERRSTAT, 2, 1⟩
abbrev HRG_BERRSTAT_VALID : Fld := ⟨.HRG_BERRSTAT, 0, 0⟩
abbrev HRG_CSEL_SEL : Fld := ⟨.HRG_CSEL, 3, 0⟩
abbrev JX_SETUP_ERR_VALID : Fld := ⟨.JX_SETUP_ERR, 19, 19⟩
abbrev JX_SETUP_ERR_CODE : Fld := ⟨.JX_SETUP_ERR, 3, 0⟩
abbrev KEY_STAT_DAMAGED : Fld := ⟨.KEY_STAT, 1, 1⟩
abbrev KEY_STAT_PROV : Fld := ⟨.KEY_STAT, 0, 0⟩
abbrev KEY_GEN_GEN : Fld := ⟨.KEY_GEN, 15, 0⟩
abbrev KEY_BEHMASK_MASK : Fld := ⟨.KEY_BEHMASK, 15, 1⟩
abbrev KEY_ECNT_AUTHFAIL : Fld := ⟨.KEY_ECNT, 19, 10⟩
abbrev KEY_ECNT_REPLAYS : Fld := ⟨.KEY_ECNT, 9, 0⟩
abbrev KEY_CSTAT_PEND : Fld := ⟨.KEY_CSTAT, 19, 19⟩
abbrev KEY_CSTAT_ABREQ : Fld := ⟨.KEY_CSTAT, 18, 18⟩
abbrev KEY_CSTAT_CRIT : Fld := ⟨.KEY_CSTAT, 17, 17⟩
abbrev KEY_CSTAT_TAKEN : Fld := ⟨.KEY_CSTAT, 16, 16⟩
abbrev KEY_CSTAT_OPCODE : Fld := ⟨.KEY_CSTAT, 15, 8⟩
abbrev KEY_CSTAT_FLAGS : Fld := ⟨.KEY_CSTAT, 7, 0⟩
abbrev KEY_CIDX_INDEX : Fld := ⟨.KEY_CIDX, 15, 0⟩
abbrev KEY_CW_ARGS : Fld := ⟨.KEY_CW, 15, 0⟩
abbrev KEY_CRES_RESULT : Fld := ⟨.KEY_CRES, 7, 0⟩
abbrev KEY_CRD_DATA : Fld := ⟨.KEY_CRD, 15, 0⟩
abbrev KEY_CDONE_DONE : Fld := ⟨.KEY_CDONE, 0, 0⟩
abbrev KEY_CTAKE_TAKE : Fld := ⟨.KEY_CTAKE, 0, 0⟩
abbrev LDG_ADDR_ADDR : Fld := ⟨.LDG_ADDR, 11, 0⟩
abbrev LDG_RD1_VALID : Fld := ⟨.LDG_RD1, 19, 19⟩
abbrev LDG_RD1_DATA_HI : Fld := ⟨.LDG_RD1, 11, 0⟩
abbrev LDG_WD1_WD_HI : Fld := ⟨.LDG_WD1, 11, 0⟩
abbrev LDG_CTL_WRITE : Fld := ⟨.LDG_CTL, 0, 0⟩
abbrev LDG_STAT_WERR : Fld := ⟨.LDG_STAT, 2, 2⟩
abbrev LDG_STAT_QUEUED : Fld := ⟨.LDG_STAT, 1, 1⟩
abbrev LDG_STAT_BUSY : Fld := ⟨.LDG_STAT, 0, 0⟩
abbrev PWR_CTL_MAXST : Fld := ⟨.PWR_CTL, 2, 0⟩
abbrev PWR_TOL1_TOL_HI : Fld := ⟨.PWR_TOL1, 11, 0⟩
abbrev PWR_LWAKE1_LINKS : Fld := ⟨.PWR_LWAKE1, 3, 0⟩
abbrev PWR_STAT_GATED : Fld := ⟨.PWR_STAT, 12, 10⟩
abbrev PWR_STAT_ARMED : Fld := ⟨.PWR_STAT, 9, 3⟩
abbrev PWR_STAT_STATE : Fld := ⟨.PWR_STAT, 2, 0⟩
abbrev PWR_WAKE_WAKE : Fld := ⟨.PWR_WAKE, 0, 0⟩
abbrev PWR_WSRC_EVENT : Fld := ⟨.PWR_WSRC, 5, 5⟩
abbrev PWR_WSRC_HOST : Fld := ⟨.PWR_WSRC, 4, 4⟩
abbrev PWR_WSRC_KNOCK : Fld := ⟨.PWR_WSRC, 3, 3⟩
abbrev PWR_WSRC_LWAKE : Fld := ⟨.PWR_WSRC, 2, 2⟩
abbrev PWR_WSRC_TICK : Fld := ⟨.PWR_WSRC, 1, 1⟩
abbrev PWR_WSRC_ALARM : Fld := ⟨.PWR_WSRC, 0, 0⟩
abbrev JX_STATE_STATE : Fld := ⟨.JX_STATE, 2, 0⟩
abbrev JX_BOOT_ADDR1_BASE_HI : Fld := ⟨.JX_BOOT_ADDR1, 12, 0⟩
abbrev JX_BOOT_CTL_AUTO : Fld := ⟨.JX_BOOT_CTL, 1, 1⟩
abbrev JX_BOOT_CTL_GO : Fld := ⟨.JX_BOOT_CTL, 0, 0⟩
abbrev JX_BOOT_STAT_VALID : Fld := ⟨.JX_BOOT_STAT, 19, 19⟩
abbrev JX_BOOT_STAT_RESULT : Fld := ⟨.JX_BOOT_STAT, 15, 8⟩
abbrev JX_BOOT_STAT_REASON : Fld := ⟨.JX_BOOT_STAT, 7, 0⟩
abbrev RST_CAUSE_LAST : Fld := ⟨.RST_CAUSE, 8, 6⟩
abbrev RST_CAUSE_SEEN : Fld := ⟨.RST_CAUSE, 5, 0⟩
abbrev RST_STAT_INIT : Fld := ⟨.RST_STAT, 1, 1⟩
abbrev RST_STAT_PLLLOCK : Fld := ⟨.RST_STAT, 0, 0⟩
abbrev RST_WDCTL_PERIOD : Fld := ⟨.RST_WDCTL, 19, 4⟩
abbrev RST_WDCTL_EN : Fld := ⟨.RST_WDCTL, 0, 0⟩
abbrev RST_WDKICK_KICK : Fld := ⟨.RST_WDKICK, 0, 0⟩
abbrev RST_WDCNT_REMAIN : Fld := ⟨.RST_WDCNT, 15, 0⟩
abbrev RST_SCRUB_EN : Fld := ⟨.RST_SCRUB, 0, 0⟩
abbrev RST_BISTCTL_GO : Fld := ⟨.RST_BISTCTL, 2, 2⟩
abbrev RST_BISTCTL_MEMORY : Fld := ⟨.RST_BISTCTL, 1, 1⟩
abbrev RST_BISTCTL_LOGIC : Fld := ⟨.RST_BISTCTL, 0, 0⟩
abbrev HIDE_AUTH_PATH : Fld := ⟨.HIDE_AUTH, 3, 2⟩
abbrev HIDE_AUTH_LEVEL : Fld := ⟨.HIDE_AUTH, 1, 0⟩
abbrev HIDE_CHALCTL_DROP : Fld := ⟨.HIDE_CHALCTL, 2, 2⟩
abbrev HIDE_CHALCTL_REQ : Fld := ⟨.HIDE_CHALCTL, 1, 0⟩
abbrev HIDE_CHAL_CHAL : Fld := ⟨.HIDE_CHAL, 15, 0⟩
abbrev HIDE_RESP_RESP : Fld := ⟨.HIDE_RESP, 15, 0⟩
abbrev HIDE_AUTHSTAT_FAILS : Fld := ⟨.HIDE_AUTHSTAT, 19, 10⟩
abbrev HIDE_AUTHSTAT_CVALID : Fld := ⟨.HIDE_AUTHSTAT, 1, 1⟩
abbrev HIDE_AUTHSTAT_COOL : Fld := ⟨.HIDE_AUTHSTAT, 0, 0⟩
abbrev HIDE_CTL_BOOTHALT : Fld := ⟨.HIDE_CTL, 1, 1⟩
abbrev HIDE_CTL_WDFREEZE : Fld := ⟨.HIDE_CTL, 0, 0⟩
abbrev HIDE_APAGE_PAV : Fld := ⟨.HIDE_APAGE, 5, 4⟩
abbrev HIDE_APAGE_PAGE : Fld := ⟨.HIDE_APAGE, 3, 0⟩
abbrev HIDE_ACMD_SPACE : Fld := ⟨.HIDE_ACMD, 2, 2⟩
abbrev HIDE_ACMD_OP : Fld := ⟨.HIDE_ACMD, 1, 0⟩
abbrev HIDE_ASTAT_BUSY : Fld := ⟨.HIDE_ASTAT, 19, 19⟩
abbrev HIDE_ASTAT_ERR : Fld := ⟨.HIDE_ASTAT, 7, 4⟩
abbrev HIDE_ASTAT_RESP : Fld := ⟨.HIDE_ASTAT, 1, 0⟩
abbrev HIDE_HSEL_TID : Fld := ⟨.HIDE_HSEL, 5, 0⟩
abbrev HIDE_HCTL_RESUMEALL : Fld := ⟨.HIDE_HCTL, 6, 6⟩
abbrev HIDE_HCTL_HALTALL : Fld := ⟨.HIDE_HCTL, 5, 5⟩
abbrev HIDE_HCTL_RESUMEPAV : Fld := ⟨.HIDE_HCTL, 4, 4⟩
abbrev HIDE_HCTL_HALTPAV : Fld := ⟨.HIDE_HCTL, 3, 3⟩
abbrev HIDE_HCTL_STEP : Fld := ⟨.HIDE_HCTL, 2, 2⟩
abbrev HIDE_HCTL_RESUME : Fld := ⟨.HIDE_HCTL, 1, 1⟩
abbrev HIDE_HCTL_HALT : Fld := ⟨.HIDE_HCTL, 0, 0⟩
abbrev HIDE_HCAUSE_DEFER : Fld := ⟨.HIDE_HCAUSE, 7, 7⟩
abbrev HIDE_HCAUSE_CAUSE : Fld := ⟨.HIDE_HCAUSE, 6, 4⟩
abbrev HIDE_HCAUSE_COMP : Fld := ⟨.HIDE_HCAUSE, 3, 0⟩
abbrev HIDE_HIDX_IDX : Fld := ⟨.HIDE_HIDX, 4, 0⟩
abbrev HIDE_INSN_BYTES : Fld := ⟨.HIDE_INSN, 15, 0⟩
abbrev HIDE_FEED_GO : Fld := ⟨.HIDE_FEED, 4, 4⟩
abbrev HIDE_FEED_LEN : Fld := ⟨.HIDE_FEED, 3, 0⟩
abbrev HIDE_FSTAT_BUSY : Fld := ⟨.HIDE_FSTAT, 19, 19⟩
abbrev HIDE_FSTAT_CAUSE : Fld := ⟨.HIDE_FSTAT, 6, 4⟩
abbrev HIDE_FSTAT_RESULT : Fld := ⟨.HIDE_FSTAT, 1, 0⟩
abbrev HIDE_CSEL_PAV : Fld := ⟨.HIDE_CSEL, 5, 4⟩
abbrev HIDE_CSEL_KIND : Fld := ⟨.HIDE_CSEL, 3, 3⟩
abbrev HIDE_CSEL_N : Fld := ⟨.HIDE_CSEL, 2, 0⟩
abbrev HIDE_CTID_THI : Fld := ⟨.HIDE_CTID, 11, 6⟩
abbrev HIDE_CTID_TLO : Fld := ⟨.HIDE_CTID, 5, 0⟩
abbrev HIDE_CCFG_WKIND : Fld := ⟨.HIDE_CCFG, 10, 9⟩
abbrev HIDE_CCFG_VEN : Fld := ⟨.HIDE_CCFG, 8, 8⟩
abbrev HIDE_CCFG_LINK : Fld := ⟨.HIDE_CCFG, 7, 6⟩
abbrev HIDE_CCFG_TRC : Fld := ⟨.HIDE_CCFG, 5, 5⟩
abbrev HIDE_CCFG_ACT : Fld := ⟨.HIDE_CCFG, 4, 3⟩
abbrev HIDE_CCFG_EN : Fld := ⟨.HIDE_CCFG, 0, 0⟩
abbrev HIDE_CSTAT_ARMED : Fld := ⟨.HIDE_CSTAT, 1, 1⟩
abbrev HIDE_CSTAT_HIT : Fld := ⟨.HIDE_CSTAT, 0, 0⟩
abbrev HIDE_TXD_VALID : Fld := ⟨.HIDE_TXD, 19, 19⟩
abbrev HIDE_TXD_DATA : Fld := ⟨.HIDE_TXD, 15, 0⟩
abbrev HIDE_TXTID_TID : Fld := ⟨.HIDE_TXTID, 5, 0⟩
abbrev HIDE_RXTID_TID : Fld := ⟨.HIDE_RXTID, 5, 0⟩
abbrev HIDE_RXD_VALID : Fld := ⟨.HIDE_RXD, 19, 19⟩
abbrev HIDE_RXD_DATA : Fld := ⟨.HIDE_RXD, 15, 0⟩
abbrev HIDE_VTSTAT_TXDROP : Fld := ⟨.HIDE_VTSTAT, 19, 10⟩
abbrev HIDE_VTSTAT_RXOVF : Fld := ⟨.HIDE_VTSTAT, 9, 9⟩
abbrev HIDE_VTSTAT_RXLVL : Fld := ⟨.HIDE_VTSTAT, 6, 4⟩
abbrev HIDE_VTSTAT_TXLVL : Fld := ⟨.HIDE_VTSTAT, 3, 0⟩
abbrev HIDE_STIMEN1_EN : Fld := ⟨.HIDE_STIMEN1, 11, 0⟩
abbrev HIDE_SPSEL_PORT : Fld := ⟨.HIDE_SPSEL, 4, 0⟩
abbrev HIDE_SPCFG_PAVMASK : Fld := ⟨.HIDE_SPCFG, 6, 4⟩
abbrev HIDE_SPCFG_MODE : Fld := ⟨.HIDE_SPCFG, 3, 2⟩
abbrev HIDE_SPCFG_TCLR : Fld := ⟨.HIDE_SPCFG, 0, 0⟩
abbrev HIDE_TRCTL_EN : Fld := ⟨.HIDE_TRCTL, 0, 0⟩
abbrev THR_EVCFG_EN : Fld := ⟨.THR_EVCFG, 7, 7⟩
abbrev THR_EVCFG_CH : Fld := ⟨.THR_EVCFG, 6, 0⟩
end F

/-- A run of registers at consecutive word addresses: first address, count, name, first index. -/
structure AddrRun where
  base : Nat
  count : Nat
  reg : Reg
  idx : Nat
  deriving DecidableEq, Repr

/-- Word addresses of the engine-wide registers, R541 (part 0). -/
def engineRuns0 : List AddrRun := [
  ⟨0xC0000, 1, .JX_ID, 0⟩,
  ⟨0xC0001, 1, .JX_STATE, 0⟩,
  ⟨0xC0002, 1, .JX_CFG, 0⟩,
  ⟨0xC0003, 1, .JX_SETUP_ERR, 0⟩,
  ⟨0xC0004, 1, .JX_SETUP_EADDR, 0⟩,
  ⟨0xC0005, 1, .JX_HWBASE0, 0⟩,
  ⟨0xC0006, 1, .JX_HWBASE1, 0⟩,
  ⟨0xC0007, 1, .JX_HWSTAT, 0⟩,
  ⟨0xC0008, 1, .JX_HWCNT, 0⟩,
  ⟨0xC0009, 1, .JX_FABSTAT, 0⟩,
  ⟨0xC000A, 1, .JX_ECCCNT, 0⟩,
  ⟨0xC000B, 1, .JX_ECCSRC, 0⟩,
  ⟨0xC000C, 1, .JX_ECCADDR, 0⟩,
  ⟨0xC000D, 1, .JX_NWADDR, 0⟩,
  ⟨0xC000E, 1, .JX_NWSRC, 0⟩,
  ⟨0xC000F, 1, .JX_BOOT_ADDR0, 0⟩,
  ⟨0xC0010, 1, .JX_BOOT_ADDR1, 0⟩,
  ⟨0xC0011, 1, .JX_BOOT_CTL, 0⟩,
  ⟨0xC0012, 1, .JX_BOOT_STAT, 0⟩,
  ⟨0xC1000, 4, .SUN_TIME, 0⟩,
  ⟨0xC1004, 1, .SUN_RATE0, 0⟩,
  ⟨0xC1005, 1, .SUN_RATE1, 0⟩,
  ⟨0xC1006, 1, .SUN_RATEF0, 0⟩,
  ⟨0xC1007, 1, .SUN_RATEF1, 0⟩,
  ⟨0xC1008, 4, .SUN_ADJ, 0⟩,
  ⟨0xC100C, 1, .SUN_CTL, 0⟩,
  ⟨0xC100D, 1, .SUN_OWN, 0⟩,
  ⟨0xC100E, 1, .SUN_STAT, 0⟩,
  ⟨0xC100F, 1, .SUN_LATECNT, 0⟩,
  ⟨0xC1010, 1, .SUN_ECAP_CFG, 0⟩,
  ⟨0xC1011, 4, .SUN_ECAP_T, 0⟩,
  ⟨0xC1018, 1, .SUN_ECAP_CFG, 1⟩,
  ⟨0xC1019, 4, .SUN_ECAP_T, 4⟩,
  ⟨0xC1020, 1, .SUN_ECAP_CFG, 2⟩,
  ⟨0xC1021, 4, .SUN_ECAP_T, 8⟩,
  ⟨0xC1028, 1, .SUN_ECAP_CFG, 3⟩,
  ⟨0xC1029, 4, .SUN_ECAP_T, 12⟩,
  ⟨0xC2000, 1, .TIK_CTL, 0⟩,
  ⟨0xC2001, 1, .TIK_STAT, 0⟩,
  ⟨0xC2002, 1, .TIK_PERIOD_LO, 0⟩,
  ⟨0xC2003, 1, .TIK_PERIOD_HI, 0⟩,
  ⟨0xC2004, 1, .TIK_SLACK, 0⟩,
  ⟨0xC2005, 1, .TIK_FRAME, 0⟩,
  ⟨0xC2006, 1, .TIK_MATRIX, 0⟩,
  ⟨0xC2007, 3, .TIK_EPOCH, 0⟩,
  ⟨0xC200A, 1, .TIK_POS, 0⟩,
  ⟨0xC200B, 1, .TIK_COUNT0, 0⟩,
  ⟨0xC200C, 1, .TIK_COUNT1, 0⟩,
  ⟨0xC200D, 4, .TIK_LAUNCH, 0⟩,
  ⟨0xC2011, 1, .TIK_DEV, 0⟩]

/-- Word addresses of the engine-wide registers, R541 (part 1). -/
def engineRuns1 : List AddrRun := [
  ⟨0xC2012, 1, .TIK_LATE, 0⟩,
  ⟨0xC2013, 1, .TIK_EVCNT, 0⟩,
  ⟨0xC2014, 4, .TIK_OVR, 0⟩,
  ⟨0xC2018, 1, .TIK_OVR_CNT, 0⟩,
  ⟨0xC2019, 1, .TIK_OVR_FIRST, 0⟩,
  ⟨0xC201A, 1, .TIK_BSEL, 0⟩,
  ⟨0xC201B, 1, .TIK_BUDGET, 0⟩,
  ⟨0xC3000, 1, .THR_SEL, 0⟩,
  ⟨0xC3001, 1, .THR_CTL, 0⟩,
  ⟨0xC3002, 1, .THR_STAT, 0⟩,
  ⟨0xC3003, 1, .THR_WEIGHT, 0⟩,
  ⟨0xC3004, 1, .THR_CIDX, 0⟩,
  ⟨0xC3005, 1, .THR_CDATA, 0⟩,
  ⟨0xC3006, 8, .THR_EVCFG, 0⟩,
  ⟨0xC300E, 1, .THR_EVCNTA, 0⟩,
  ⟨0xC300F, 1, .THR_EVCNTB, 0⟩,
  ⟨0xC3010, 1, .THR_IRQCFG, 0⟩,
  ⟨0xC3011, 1, .THR_IRQCNT, 0⟩,
  ⟨0xC3012, 1, .THR_IVEC, 0⟩,
  ⟨0xC3013, 1, .THR_EMVEC, 0⟩,
  ⟨0xC3014, 1, .THR_FCAUSE, 0⟩,
  ⟨0xC3015, 1, .THR_FPC, 0⟩,
  ⟨0xC3016, 1, .THR_FADDR, 0⟩,
  ⟨0xC3017, 4, .THR_FPEND, 0⟩,
  ⟨0xC301B, 1, .THR_FCNT, 0⟩,
  ⟨0xC301C, 1, .THR_SWCTL, 0⟩,
  ⟨0xC301D, 1, .THR_SWSTAT, 0⟩,
  ⟨0xC301E, 1, .THR_SWVEC, 0⟩,
  ⟨0xC301F, 1, .THR_SWPC, 0⟩,
  ⟨0xC3020, 1, .THR_SWCNT, 0⟩,
  ⟨0xC4000, 1, .CWY_FIRE, 0⟩,
  ⟨0xC4001, 1, .CWY_PSEL, 0⟩,
  ⟨0xC4002, 1, .CWY_PMAP, 0⟩,
  ⟨0xC4003, 1, .CWY_CHSEL, 0⟩,
  ⟨0xC4004, 1, .CWY_CHCFG, 0⟩,
  ⟨0xC4005, 1, .CWY_CHSTAT, 0⟩,
  ⟨0xC4006, 1, .CWY_FLOOD, 0⟩,
  ⟨0xC4007, 7, .CWY_MUTE, 0⟩,
  ⟨0xC400E, 1, .CWY_STAT, 0⟩,
  ⟨0xC400F, 1, .CWY_LASTMUTE, 0⟩,
  ⟨0xC4010, 1, .CWY_SATCNT, 0⟩,
  ⟨0xC4011, 1, .CWY_DROPCNT, 0⟩,
  ⟨0xC5000, 1, .LCK_SEL, 0⟩,
  ⟨0xC5001, 1, .LCK_SADDR, 0⟩,
  ⟨0xC5002, 1, .LCK_SSTAT, 0⟩,
  ⟨0xC5003, 1, .LCK_WADDR, 0⟩,
  ⟨0xC5004, 1, .LCK_WSTAT, 0⟩,
  ⟨0xC5005, 1, .LCK_FCTL, 0⟩,
  ⟨0xC5006, 1, .LCK_FSTAT, 0⟩,
  ⟨0xC5007, 1, .LCK_CNT, 0⟩]

/-- Word addresses of the engine-wide registers, R541 (part 2). -/
def engineRuns2 : List AddrRun := [
  ⟨0xC6000, 1, .CND_SEL, 0⟩,
  ⟨0xC6001, 1, .CND_CFG, 0⟩,
  ⟨0xC6002, 1, .CND_STAT, 0⟩,
  ⟨0xC6003, 1, .CND_CTL, 0⟩,
  ⟨0xC6004, 1, .CND_ARES, 0⟩,
  ⟨0xC6005, 1, .CND_CNT, 0⟩,
  ⟨0xC7000, 1, .BSN_OWN, 0⟩,
  ⟨0xC7001, 1, .BSN_FREE, 0⟩,
  ⟨0xC7002, 1, .BSN_H7, 0⟩,
  ⟨0xC7003, 1, .BSN_LOWW, 0⟩,
  ⟨0xC7004, 1, .BSN_NEXTSEQ, 0⟩,
  ⟨0xC7005, 1, .BSN_WPAGE, 0⟩,
  ⟨0xC7006, 1, .BSN_ALLOC, 0⟩,
  ⟨0xC7007, 1, .BSN_AHEAD, 0⟩,
  ⟨0xC7008, 1, .BSN_CHAIN0, 0⟩,
  ⟨0xC7009, 1, .BSN_CHAIN1, 0⟩,
  ⟨0xC700A, 1, .BSN_RELEASE, 0⟩,
  ⟨0xC700B, 1, .BSN_INJ1, 0⟩,
  ⟨0xC700C, 1, .BSN_INJ2, 0⟩,
  ⟨0xC700D, 1, .BSN_INJ3, 0⟩,
  ⟨0xC700E, 1, .BSN_INJ4, 0⟩,
  ⟨0xC700F, 4, .BSN_INJT, 0⟩,
  ⟨0xC7013, 1, .BSN_INJGO, 0⟩,
  ⟨0xC7014, 1, .BSN_TRAPTID, 0⟩,
  ⟨0xC7015, 1, .BSN_TRAP0, 0⟩,
  ⟨0xC7016, 1, .BSN_TRAP1, 0⟩,
  ⟨0xC7017, 1, .BSN_TRAP2, 0⟩,
  ⟨0xC7018, 1, .BSN_TLVL, 0⟩,
  ⟨0xC7019, 1, .BSN_QSEL, 0⟩,
  ⟨0xC701A, 1, .BSN_QFR, 0⟩,
  ⟨0xC701B, 1, .BSN_QCELLS, 0⟩,
  ⟨0xC701C, 1, .BSN_CSEL, 0⟩,
  ⟨0xC701D, 1, .BSN_CNT0, 0⟩,
  ⟨0xC701E, 1, .BSN_CNT1, 0⟩,
  ⟨0xC7020, 24, .BSN_RATE, 0⟩,
  ⟨0xC8000, 1, .SLU_SEL, 0⟩,
  ⟨0xC8001, 1, .SLU_TBCFG, 0⟩,
  ⟨0xC8002, 1, .SLU_TBRATE, 0⟩,
  ⟨0xC8003, 1, .SLU_TBBURST, 0⟩,
  ⟨0xC8004, 1, .SLU_TBLVL, 0⟩,
  ⟨0xC8005, 1, .SLU_QUOTA, 0⟩,
  ⟨0xC8006, 1, .SLU_DRATE, 0⟩,
  ⟨0xC8007, 1, .SLU_DPOOL, 0⟩,
  ⟨0xC8008, 1, .SLU_DQUOTA, 0⟩,
  ⟨0xC8009, 1, .SLU_DENTRY, 0⟩,
  ⟨0xC800A, 1, .SLU_ENTFREE, 0⟩,
  ⟨0xC9000, 1, .WRD_CTL, 0⟩,
  ⟨0xC9001, 1, .WRD_STAT, 0⟩,
  ⟨0xC9002, 1, .WRD_CNT1, 0⟩,
  ⟨0xC9003, 1, .WRD_CNT2, 0⟩]

/-- Word addresses of the engine-wide registers, R541 (part 3). -/
def engineRuns3 : List AddrRun := [
  ⟨0xC9004, 1, .WRD_SKIPS, 0⟩,
  ⟨0xC9005, 1, .WRD_LAST, 0⟩,
  ⟨0xC9006, 1, .WRD_AUDITS, 0⟩,
  ⟨0xCA000, 1, .FWD_SALT, 0⟩,
  ⟨0xCA001, 1, .FWD_TPID, 0⟩,
  ⟨0xCA002, 1, .FWD_CLSTID, 0⟩,
  ⟨0xCA003, 1, .FWD_ENT0, 0⟩,
  ⟨0xCA004, 1, .FWD_ENT1, 0⟩,
  ⟨0xCA005, 1, .FWD_ENT2, 0⟩,
  ⟨0xCA006, 1, .FWD_ENT3, 0⟩,
  ⟨0xCA007, 1, .FWD_ENT4, 0⟩,
  ⟨0xCA008, 1, .FWD_ENT5, 0⟩,
  ⟨0xCA009, 1, .FWD_ENT6, 0⟩,
  ⟨0xCA00A, 1, .FWD_OP, 0⟩,
  ⟨0xCA00B, 1, .FWD_IDX, 0⟩,
  ⟨0xCA00C, 1, .FWD_OSTAT, 0⟩,
  ⟨0xCA00D, 1, .FWD_NOTE0, 0⟩,
  ⟨0xCA00E, 1, .FWD_NOTE1, 0⟩,
  ⟨0xCA00F, 1, .FWD_NOTE2, 0⟩,
  ⟨0xCA010, 1, .FWD_NOTE3, 0⟩,
  ⟨0xCA011, 1, .FWD_NOTE4, 0⟩,
  ⟨0xCA012, 1, .FWD_NLVL, 0⟩,
  ⟨0xCA013, 1, .FWD_OVR0, 0⟩,
  ⟨0xCA014, 1, .FWD_OVR1, 0⟩,
  ⟨0xCA015, 1, .FWD_OVR2, 0⟩,
  ⟨0xCA016, 1, .FWD_OVRSTAT, 0⟩,
  ⟨0xCA017, 1, .FWD_STAT, 0⟩,
  ⟨0xCA020, 25, .FWD_PCFG, 0⟩,
  ⟨0xCA040, 25, .FWD_PVID, 0⟩,
  ⟨0xCA060, 25, .FWD_MISS_LO, 0⟩,
  ⟨0xCA080, 25, .FWD_MISS_HI, 0⟩,
  ⟨0xCB000, 1, .SCH_OWN, 0⟩,
  ⟨0xCB001, 1, .SCH_NODEID, 0⟩,
  ⟨0xCB002, 1, .SCH_RDA2, 0⟩,
  ⟨0xCB003, 1, .SCH_RDA1, 0⟩,
  ⟨0xCB004, 1, .SCH_RDA0, 0⟩,
  ⟨0xCB005, 1, .SCH_SA2, 0⟩,
  ⟨0xCB006, 1, .SCH_SA1, 0⟩,
  ⟨0xCB007, 1, .SCH_SA0, 0⟩,
  ⟨0xCB008, 1, .SCH_ESEL, 0⟩,
  ⟨0xCB009, 1, .SCH_ENT0, 0⟩,
  ⟨0xCB00A, 1, .SCH_ENT1, 0⟩,
  ⟨0xCB00B, 1, .SCH_ENT2, 0⟩,
  ⟨0xCB00C, 1, .SCH_EOP, 0⟩,
  ⟨0xCB00D, 1, .SCH_BSEL, 0⟩,
  ⟨0xCB010, 1, .SCH_LSEL, 0⟩,
  ⟨0xCB011, 1, .SCH_LCFG, 0⟩,
  ⟨0xCB012, 1, .SCH_LROW, 0⟩,
  ⟨0xCB013, 1, .SCH_LWPR, 0⟩,
  ⟨0xCB014, 1, .SCH_LROWF, 0⟩]

/-- Word addresses of the engine-wide registers, R541 (part 4). -/
def engineRuns4 : List AddrRun := [
  ⟨0xCB015, 1, .SCH_LWPRF, 0⟩,
  ⟨0xCB016, 1, .SCH_LGUARD, 0⟩,
  ⟨0xCB017, 1, .SCH_LJIT, 0⟩,
  ⟨0xCB018, 1, .SCH_LPREP, 0⟩,
  ⟨0xCB019, 1, .SCH_LRXLAT, 0⟩,
  ⟨0xCB01A, 1, .SCH_LOFFMAX, 0⟩,
  ⟨0xCB01B, 1, .SCH_LOVH, 0⟩,
  ⟨0xCB01C, 1, .SCH_LSCHID, 0⟩,
  ⟨0xCB01D, 1, .SCH_LCANREF0, 0⟩,
  ⟨0xCB01E, 1, .SCH_LCANREF1, 0⟩,
  ⟨0xCB01F, 1, .SCH_LCANNULL0, 0⟩,
  ⟨0xCB020, 1, .SCH_LCANNULL1, 0⟩,
  ⟨0xCB021, 1, .SCH_LCTL, 0⟩,
  ⟨0xCB022, 1, .SCH_LSTAT, 0⟩,
  ⟨0xCB023, 1, .SCH_LD0, 0⟩,
  ⟨0xCB024, 1, .SCH_LD1, 0⟩,
  ⟨0xCB025, 1, .SCH_LOFS, 0⟩,
  ⟨0xCB026, 1, .SCH_LCSEL, 0⟩,
  ⟨0xCB027, 1, .SCH_LCNT, 0⟩,
  ⟨0xCB030, 1, .SCH_BCFG, 0⟩,
  ⟨0xCB031, 1, .SCH_BHEAD, 0⟩,
  ⟨0xCB032, 1, .SCH_BLEN, 0⟩,
  ⟨0xCB033, 1, .SCH_BCTL, 0⟩,
  ⟨0xCB034, 1, .SCH_BSTAT, 0⟩,
  ⟨0xCC000, 1, .COD_SEL, 0⟩,
  ⟨0xCC001, 1, .COD_MODE, 0⟩,
  ⟨0xCC002, 1, .COD_PARAM, 0⟩,
  ⟨0xCC003, 1, .COD_SSTAT, 0⟩,
  ⟨0xCC004, 1, .COD_CTL, 0⟩,
  ⟨0xCC005, 1, .COD_CRCCFG, 0⟩,
  ⟨0xCC006, 1, .COD_POLY0, 0⟩,
  ⟨0xCC007, 1, .COD_POLY1, 0⟩,
  ⟨0xCC008, 1, .COD_SEED0, 0⟩,
  ⟨0xCC009, 1, .COD_SEED1, 0⟩,
  ⟨0xCC00A, 1, .COD_CHECK0, 0⟩,
  ⟨0xCC00B, 1, .COD_CHECK1, 0⟩,
  ⟨0xCC00C, 1, .COD_TRK, 0⟩,
  ⟨0xCC00D, 1, .COD_TRKOFF, 0⟩,
  ⟨0xCC00E, 1, .COD_TRKSJW, 0⟩,
  ⟨0xCC00F, 1, .COD_DDIVI, 0⟩,
  ⟨0xCC010, 1, .COD_DDIVF, 0⟩,
  ⟨0xCC011, 1, .COD_DPHASE, 0⟩,
  ⟨0xCC012, 1, .COD_RSTAT, 0⟩,
  ⟨0xCD000, 1, .HRG_CFG, 0⟩,
  ⟨0xCD001, 1, .HRG_DBBASE0, 0⟩,
  ⟨0xCD002, 1, .HRG_DBBASE1, 0⟩,
  ⟨0xCD003, 1, .HRG_RSEL, 0⟩,
  ⟨0xCD004, 1, .HRG_RBASE0, 0⟩,
  ⟨0xCD005, 1, .HRG_RBASE1, 0⟩,
  ⟨0xCD006, 1, .HRG_RCFG, 0⟩]

/-- Word addresses of the engine-wide registers, R541 (part 5). -/
def engineRuns5 : List AddrRun := [
  ⟨0xCD007, 1, .HRG_RCTL, 0⟩,
  ⟨0xCD008, 1, .HRG_RSTAT, 0⟩,
  ⟨0xCD009, 1, .HRG_RIDX, 0⟩,
  ⟨0xCD00A, 1, .HRG_RHOST, 0⟩,
  ⟨0xCD00B, 1, .HRG_STAT, 0⟩,
  ⟨0xCD00C, 1, .HRG_KNOCK, 0⟩,
  ⟨0xCD00D, 1, .HRG_KIRQ, 0⟩,
  ⟨0xCD00E, 1, .HRG_EPOCH, 0⟩,
  ⟨0xCD00F, 1, .HRG_ISTAT, 0⟩,
  ⟨0xCD010, 1, .HRG_IEN, 0⟩,
  ⟨0xCD011, 1, .HRG_IMAP0, 0⟩,
  ⟨0xCD012, 1, .HRG_BERR0, 0⟩,
  ⟨0xCD013, 1, .HRG_BERR1, 0⟩,
  ⟨0xCD014, 1, .HRG_BERRSTAT, 0⟩,
  ⟨0xCD015, 1, .HRG_CSEL, 0⟩,
  ⟨0xCD016, 1, .HRG_CNT0, 0⟩,
  ⟨0xCD017, 1, .HRG_CNT1, 0⟩,
  ⟨0xCE000, 1, .LDG_ADDR, 0⟩,
  ⟨0xCE001, 1, .LDG_RD0, 0⟩,
  ⟨0xCE002, 1, .LDG_RD1, 0⟩,
  ⟨0xCE003, 1, .LDG_WD0, 0⟩,
  ⟨0xCE004, 1, .LDG_WD1, 0⟩,
  ⟨0xCE005, 1, .LDG_CTL, 0⟩,
  ⟨0xCE006, 1, .LDG_STAT, 0⟩,
  ⟨0xCE007, 1, .LDG_WCNT, 0⟩,
  ⟨0xCE800, 1, .KEY_STAT, 0⟩,
  ⟨0xCE801, 3, .KEY_GEN, 1⟩,
  ⟨0xCE804, 1, .KEY_LAST0, 0⟩,
  ⟨0xCE805, 1, .KEY_LAST1, 0⟩,
  ⟨0xCE806, 1, .KEY_CEIL0, 0⟩,
  ⟨0xCE807, 1, .KEY_CEIL1, 0⟩,
  ⟨0xCE808, 1, .KEY_BEHMASK, 0⟩,
  ⟨0xCE809, 1, .KEY_ECNT, 0⟩,
  ⟨0xCE80A, 1, .KEY_CSTAT, 0⟩,
  ⟨0xCE80B, 1, .KEY_CIDX, 0⟩,
  ⟨0xCE80C, 8, .KEY_CW, 0⟩,
  ⟨0xCE814, 1, .KEY_CRES, 0⟩,
  ⟨0xCE815, 8, .KEY_CRD, 0⟩,
  ⟨0xCE81D, 1, .KEY_CDONE, 0⟩,
  ⟨0xCE81E, 1, .KEY_CTAKE, 0⟩,
  ⟨0xCF000, 1, .PWR_CTL, 0⟩,
  ⟨0xCF001, 1, .PWR_TOL0, 0⟩,
  ⟨0xCF002, 1, .PWR_TOL1, 0⟩,
  ⟨0xCF003, 1, .PWR_LWAKE0, 0⟩,
  ⟨0xCF004, 1, .PWR_LWAKE1, 0⟩,
  ⟨0xCF005, 1, .PWR_STAT, 0⟩,
  ⟨0xCF006, 1, .PWR_WAKE, 0⟩,
  ⟨0xCF007, 1, .PWR_WSRC, 0⟩,
  ⟨0xCF008, 1, .PWR_LWCNT, 0⟩,
  ⟨0xCF800, 1, .RST_CAUSE, 0⟩]

/-- Word addresses of the engine-wide registers, R541 (part 6). -/
def engineRuns6 : List AddrRun := [
  ⟨0xCF801, 1, .RST_CNT, 0⟩,
  ⟨0xCF802, 1, .RST_STAT, 0⟩,
  ⟨0xCF803, 1, .RST_WDCTL, 0⟩,
  ⟨0xCF804, 1, .RST_WDKICK, 0⟩,
  ⟨0xCF805, 1, .RST_WDCNT, 0⟩,
  ⟨0xCF806, 1, .RST_SCRUB, 0⟩,
  ⟨0xCF807, 1, .RST_SCRUBCNT, 0⟩,
  ⟨0xCF808, 1, .RST_BISTCTL, 0⟩,
  ⟨0xD0000, 1, .HIDE_AUTH, 0⟩,
  ⟨0xD0001, 1, .HIDE_CHALCTL, 0⟩,
  ⟨0xD0002, 4, .HIDE_CHAL, 0⟩,
  ⟨0xD0006, 4, .HIDE_RESP, 0⟩,
  ⟨0xD000A, 1, .HIDE_AUTHSTAT, 0⟩,
  ⟨0xD000B, 1, .HIDE_CTL, 0⟩,
  ⟨0xD000C, 1, .HIDE_AADDR, 0⟩,
  ⟨0xD000D, 1, .HIDE_APAGE, 0⟩,
  ⟨0xD000E, 1, .HIDE_ADATA, 0⟩,
  ⟨0xD000F, 1, .HIDE_ACMD, 0⟩,
  ⟨0xD0010, 1, .HIDE_ASTAT, 0⟩,
  ⟨0xD0011, 1, .HIDE_HSEL, 0⟩,
  ⟨0xD0012, 1, .HIDE_HCTL, 0⟩,
  ⟨0xD0013, 4, .HIDE_HALT, 0⟩,
  ⟨0xD0017, 1, .HIDE_HCAUSE, 0⟩,
  ⟨0xD0018, 1, .HIDE_HIDX, 0⟩,
  ⟨0xD0019, 1, .HIDE_HDATA, 0⟩,
  ⟨0xD001A, 5, .HIDE_INSN, 0⟩,
  ⟨0xD001F, 1, .HIDE_FEED, 0⟩,
  ⟨0xD0020, 1, .HIDE_FSTAT, 0⟩,
  ⟨0xD0021, 1, .HIDE_CSEL, 0⟩,
  ⟨0xD0022, 1, .HIDE_CLO, 0⟩,
  ⟨0xD0023, 1, .HIDE_CHI, 0⟩,
  ⟨0xD0024, 1, .HIDE_CTID, 0⟩,
  ⟨0xD0025, 1, .HIDE_CCFG, 0⟩,
  ⟨0xD0026, 1, .HIDE_CVAL, 0⟩,
  ⟨0xD0027, 1, .HIDE_CVMASK, 0⟩,
  ⟨0xD0028, 1, .HIDE_CSTAT, 0⟩,
  ⟨0xD0029, 1, .HIDE_TRCTL, 0⟩,
  ⟨0xD002A, 1, .HIDE_TRSTAT, 0⟩,
  ⟨0xD002B, 1, .HIDE_STIMEN, 0⟩,
  ⟨0xD002C, 1, .HIDE_STIMEN1, 0⟩,
  ⟨0xD002D, 1, .HIDE_SPSEL, 0⟩,
  ⟨0xD002E, 1, .HIDE_SPCFG, 0⟩,
  ⟨0xD002F, 1, .HIDE_SPTALLY, 0⟩,
  ⟨0xD0030, 1, .HIDE_TXD, 0⟩,
  ⟨0xD0031, 1, .HIDE_TXTID, 0⟩,
  ⟨0xD0032, 1, .HIDE_RXTID, 0⟩,
  ⟨0xD0033, 1, .HIDE_RXD, 0⟩,
  ⟨0xD0034, 1, .HIDE_VTSTAT, 0⟩,
  ⟨0xD0038, 1, .HIDE_TXD, 1⟩,
  ⟨0xD0039, 1, .HIDE_TXTID, 1⟩]

/-- Word addresses of the engine-wide registers, R541 (part 7). -/
def engineRuns7 : List AddrRun := [
  ⟨0xD003A, 1, .HIDE_RXTID, 1⟩,
  ⟨0xD003B, 1, .HIDE_RXD, 1⟩,
  ⟨0xD003C, 1, .HIDE_VTSTAT, 1⟩,
  ⟨0xD0040, 1, .HIDE_TXD, 2⟩,
  ⟨0xD0041, 1, .HIDE_TXTID, 2⟩,
  ⟨0xD0042, 1, .HIDE_RXTID, 2⟩,
  ⟨0xD0043, 1, .HIDE_RXD, 2⟩,
  ⟨0xD0044, 1, .HIDE_VTSTAT, 2⟩,
  ⟨0xD0050, 32, .HIDE_STIM, 0⟩]

/-- Word addresses of the engine-wide registers, R541. -/
def engineRuns : List AddrRun :=
  engineRuns0 ++ engineRuns1 ++ engineRuns2 ++ engineRuns3 ++ engineRuns4 ++ engineRuns5 ++ engineRuns6 ++ engineRuns7

/-- Offsets of the BRLp_ registers, R542. -/
def barrelRuns : List AddrRun := [
  ⟨0x00000, 1, .BRL_SSEL, 0⟩,
  ⟨0x00001, 1, .BRL_SENT, 0⟩,
  ⟨0x00002, 1, .BRL_AENT, 0⟩,
  ⟨0x00003, 1, .BRL_CTL, 0⟩,
  ⟨0x00004, 1, .BRL_STAT, 0⟩,
  ⟨0x00005, 1, .BRL_ERR, 0⟩,
  ⟨0x00006, 1, .BRL_SPCNT, 0⟩]

/-- Offsets of the LNKn_ registers, R542. -/
def linkRuns : List AddrRun := [
  ⟨0x00000, 1, .LNK_CFG, 0⟩,
  ⟨0x00001, 1, .LNK_BIND, 0⟩,
  ⟨0x00002, 1, .LNK_OWN, 0⟩,
  ⟨0x00003, 1, .LNK_MAXLEN, 0⟩,
  ⟨0x00004, 1, .LNK_MINLEN, 0⟩,
  ⟨0x00005, 1, .LNK_HOLD, 0⟩,
  ⟨0x00006, 1, .LNK_TRAIN, 0⟩,
  ⟨0x00007, 1, .LNK_LATEMAX, 0⟩,
  ⟨0x00008, 1, .LNK_LOSSCH, 0⟩,
  ⟨0x00009, 1, .LNK_TSCFG, 0⟩,
  ⟨0x0000A, 1, .LNK_CTL, 0⟩,
  ⟨0x0000B, 1, .LNK_STAT, 0⟩,
  ⟨0x0000C, 1, .LNK_TSCTL, 0⟩,
  ⟨0x0000D, 1, .LNK_TSLVL, 0⟩,
  ⟨0x0000E, 6, .LNK_TSI, 0⟩,
  ⟨0x00014, 6, .LNK_TSE, 0⟩,
  ⟨0x0001A, 1, .LNK_CSEL, 0⟩,
  ⟨0x0001B, 1, .LNK_CNT0, 0⟩,
  ⟨0x0001C, 1, .LNK_CNT1, 0⟩]

/-- Offsets of the REEDk_ registers, R542. -/
def reedRuns : List AddrRun := [
  ⟨0x00000, 1, .REED_CFG, 0⟩,
  ⟨0x00001, 1, .REED_CLK, 0⟩,
  ⟨0x00002, 1, .REED_PINS, 0⟩,
  ⟨0x00003, 1, .REED_OWN, 0⟩,
  ⟨0x00004, 1, .REED_DIVI, 0⟩,
  ⟨0x00005, 1, .REED_DIVF, 0⟩,
  ⟨0x00006, 1, .REED_PHASE, 0⟩,
  ⟨0x00007, 1, .REED_EVT, 0⟩,
  ⟨0x00008, 1, .REED_PADDR, 0⟩,
  ⟨0x00009, 1, .REED_PDATA, 0⟩,
  ⟨0x0000A, 1, .REED_WRAPS, 0⟩,
  ⟨0x0000B, 1, .REED_WRAPA, 0⟩,
  ⟨0x0000C, 1, .REED_PC, 0⟩,
  ⟨0x0000D, 1, .REED_CTL, 0⟩,
  ⟨0x0000E, 1, .REED_STAT, 0⟩,
  ⟨0x0000F, 1, .REED_SYNC, 0⟩,
  ⟨0x00010, 1, .REED_RXW, 0⟩,
  ⟨0x00011, 1, .REED_TXW, 0⟩,
  ⟨0x00012, 1, .REED_QA, 0⟩,
  ⟨0x00013, 1, .REED_QB, 0⟩,
  ⟨0x00014, 1, .REED_CDO, 0⟩,
  ⟨0x00015, 1, .REED_FIFO, 0⟩,
  ⟨0x00016, 1, .REED_MBX, 0⟩,
  ⟨0x00017, 4, .REED_TSET, 0⟩,
  ⟨0x0001B, 4, .REED_ATIME, 0⟩,
  ⟨0x0001F, 4, .REED_CAPT, 0⟩,
  ⟨0x00023, 4, .REED_FLT, 0⟩]

/-- Offsets of the TMR_ registers of a unit, R542. -/
def timerRuns : List AddrRun := [
  ⟨0x00000, 1, .TMR_CFG, 0⟩,
  ⟨0x00001, 1, .TMR_PRE, 0⟩,
  ⟨0x00002, 1, .TMR_CNT, 0⟩,
  ⟨0x00003, 1, .TMR_CNTH1, 0⟩,
  ⟨0x00004, 1, .TMR_CNTH2, 0⟩,
  ⟨0x00005, 1, .TMR_TOP, 0⟩,
  ⟨0x00006, 1, .TMR_CMP, 0⟩,
  ⟨0x00007, 1, .TMR_OFS, 0⟩,
  ⟨0x00008, 1, .TMR_EVT, 0⟩,
  ⟨0x00009, 1, .TMR_CTL, 0⟩,
  ⟨0x0000A, 1, .TMR_STAT, 0⟩,
  ⟨0x0000B, 1, .TMR_CAP, 0⟩,
  ⟨0x0000C, 1, .TMR_CAPH1, 0⟩,
  ⟨0x0000D, 1, .TMR_CAPH2, 0⟩,
  ⟨0x0000E, 1, .TMR_OWN, 0⟩,
  ⟨0x0000F, 1, .TMR_GSTART, 0⟩]

/-- How many index values one unit takes in a series of words per unit (LNKn_TSI0 to 5, REEDk_ATIME0 to 3, ...). -/
def Reg.perUnit : Reg → Nat
  | .LNK_TSI => 8
  | .LNK_TSE => 8
  | .REED_TSET => 4
  | .REED_ATIME => 4
  | .REED_CAPT => 4
  | .REED_FLT => 4
  | _ => 1

/-- The register at `a` of a list of runs. -/
def findRun : List AddrRun → Nat → Option (Reg × Nat)
  | [], _ => none
  | r :: rest, a => if r.base ≤ a ∧ a < r.base + r.count then some (r.reg, r.idx + (a - r.base)) else findRun rest a

/-- The same for the register copies of unit `u`. -/
def findUnitRun (runs : List AddrRun) (u a : Nat) : Option (Reg × Nat) :=
  match findRun runs a with
  | some (r, i) => some (r, u * r.perUnit + i)
  | none => none

/-- The register at a device word address, `none` where none is listed (R321, R540 to R542). -/
def Reg.ofAddr (a : Nat) : Option (Reg × Nat) :=
  if a < 0xE0000 then findRun engineRuns a
  else
    let p := (a - 0xE0000) / 0x4000
    let o := (a - 0xE0000) % 0x4000
    if 3 ≤ p then none
    else if o < 0x400 then findUnitRun barrelRuns p o
    else if o < 0x800 then findUnitRun linkRuns (p * 8 + (o - 0x400) / 0x80) ((o - 0x400) % 0x80)
    else if o < 0x1000 then none
    else if o < 0x2000 then
      let k := (o - 0x1000) / 0x100
      match findUnitRun reedRuns (p * 16 + k) ((o - 0x1000) % 0x100) with
      | some (.REED_SYNC, i) => if k = 0 then some (.REED_SYNC, i) else none
      | x => x
    else if o < 0x2400 then
      let v := (o - 0x2000) / 0x80
      match findUnitRun timerRuns (p * 8 + v) ((o - 0x2000) % 0x80) with
      | some (.TMR_GSTART, i) => if v = 0 then some (.TMR_GSTART, i) else none
      | x => x
    else none

/-- The first address of the run that holds register `r`, index `i`, in a list. -/
def addrInRuns : List AddrRun → Reg → Nat → Option Nat
  | [], _, _ => none
  | q :: rest, r, i =>
    if q.reg = r ∧ q.idx ≤ i ∧ i < q.idx + q.count then some (q.base + (i - q.idx)) else addrInRuns rest r i

/-- The word address of register `r`, index `i` (R540 to R542); 0 where there is no such register. -/
def Reg.addr (r : Reg) (i : Nat) : Nat :=
  let u := i / r.perUnit
  let j := i % r.perUnit
  match addrInRuns engineRuns r i, addrInRuns barrelRuns r j, addrInRuns linkRuns r j,
      addrInRuns reedRuns r j, addrInRuns timerRuns r j with
  | some a, _, _, _, _ => a
  | _, some o, _, _, _ => 0xE0000 + 0x4000 * u + o
  | _, _, some o, _, _ => 0xE0000 + 0x4000 * (u / 8) + 0x400 + 0x80 * (u % 8) + o
  | _, _, _, some o, _ => 0xE0000 + 0x4000 * (u / 16) + 0x1000 + 0x100 * (u % 16) + o
  | _, _, _, _, some o => 0xE0000 + 0x4000 * (u / 8) + 0x2000 + 0x80 * (u % 8) + o
  | _, _, _, _, _ => 0

end Sys2Proof.Machine
end

