-- ==== Sys2Proof/Machine/Engine.lean ====
section
/-! DEFINITION. The parts of the block's state outside its addressed memories, as plain data (one structure per part),
and `Eng`, which holds them all. The stored register fields are in `Eng.regs`; what is here is state that has no
register of its own, or of which a register is a view. -/

namespace Sys2Proof.Machine

/-- Time: cycles and Sundial (02_time_levels.md R24, R25; 03_sundial.md R53 to R56, R74). `cycle` is the model's count
of CCLK cycles (assumption 1); `sun` the accumulator of R53; `rateNext` the trim from the next cycle on (R55, R61); `after` the
value after a STEP or LOAD of this cycle (R59, R61), `loaded` after a LOAD; `applied` the operation applied in this cycle,
`owner` the operation that the owner thread wrote in this cycle, which is applied in it unless the Keeper's is (R63), `owed` the
operations that wait for the next cycles; `course` the changes of the course of Sundial in the last 1,024 cycles, latest first: the cycle, the
accumulator and the trim from then on (R66). -/
structure Clk where
  cycle : Nat := 0
  runCyc : Nat := 0
  roundBase : Nat := 0
  sun : BitVec 100 := 0
  rate : BitVec 40 := 0
  rateNext : BitVec 40 := 0
  after : Option (BitVec 100) := none
  loaded : Bool := false
  applied : Nat := 0
  owner : Nat := 0
  owed : List Nat := []
  course : List (Nat × BitVec 100 × BitVec 40) := []
  refHalf : Bool := false
  deriving DecidableEq, Repr

/-- A set of tick settings (R26, R31): period P, slack S, frame F, matrix M, epoch E. -/
structure TickSet where
  p : Nat := 128
  s : Nat := 0
  f : Nat := 1
  m : Nat := 0
  e : Nat := 0
  deriving DecidableEq, Repr

/-- A decision cycle's record for the round boundary 8 cycles later (R27, R46): the boundary, Sundial, whether launches are on,
the settings in force and the arming of the first launch, all as they stand in the decision cycle. -/
structure Decision where
  boundary : Nat
  now : Nat
  run : Bool
  set : TickSet
  armed : Option Nat
  deriving DecidableEq, Repr

/-- The tick sequencer (02_time_levels.md R26 to R48). `k` is the index of the current tick, 47 bits (R26), `armed` the T80 at
which RUN was set, while the first launch is to come (R46), `base` the launch cycle, `pend` the pending set and its WHEN (R42), `takeNext` it
takes effect in the next cycle (R42), `stopping` RUN was cleared and RUNNING is still to clear (R46), `stopAt` the cycle in
which RUNNING last cleared (R240). -/
structure Tick where
  k : Nat := 0
  armed : Option Nat := none
  base : Nat := 0
  set : TickSet := {}
  pend : Option (TickSet × Bool) := none
  takeNext : Bool := false
  stopping : Bool := false
  stopAt : Nat := 0
  count : Nat := 0
  launch : BitVec 80 := 0
  dec : Option Decision := none
  floodBase : Nat := 0
  pollBase : Nat := 0
  deriving DecidableEq, Repr

/-- A firing on its way to its subscribers (14_causeway.md R363, R364): domain 0 to 2 for PAV0 to PAV2, 3 for ENGINE. -/
structure Firing where
  ch : Nat
  dom : Nat
  cyc : Nat
  t80 : BitVec 80
  near : Bool
  deriving DecidableEq, Repr

/-- The Causeway (R362 to R377). `count` the flood counts; `last` the cycle plus 1 of the last firing of channel and
domain (4·CH + D); `unmuted` and `declared` the cycle plus 1 of the last unmuting and of the last reed firing. -/
structure Cwy where
  inflight : List Firing := []
  count : Tab Nat := []
  last : Tab Nat := []
  unmuted : Tab Nat := []
  declared : Tab Nat := []
  deriving DecidableEq, Repr

/-- A timer unit (15_timers.md R378 to R393). `phase` is the running-cycle number from which the CCLK prescaler
counts, `kept` the Sundial field last seen, `caps` the captures not yet read; `evAt`, `incAt`, `capAt` the cycle plus 1 of the last delivered
event firing, increment and capture, the latter two made as that cycle ends (R386); `act` the cycle plus 1 and the rank of the strongest action
that reached it last (2 START, 3 STOP, 4 CONT), `setAt` the cycle plus 1 of the last write of its count. -/
structure Timer where
  cnt : Word := 0
  run : Bool := false
  phase : Nat := 0
  kept : Nat := 0
  caps : List Word := []
  evAt : Nat := 0
  act : Nat × Nat := (0, 0)
  setAt : Nat := 0
  incAt : Nat := 0
  capAt : Nat := 0
  deriving DecidableEq, Repr

/-- The latches of one reader (00_scope.md R11; 07_basin_switching.md R174, R199). -/
structure Latches where
  t80 : List Word := [0, 0, 0]
  count : Word := 0
  timer : List Word := [0, 0]
  notice : List Word := [0, 0, 0, 0]
  trap : List Word := [0, 0]
  deriving DecidableEq, Repr

/-- What an initiator-port transaction is for (16_host_rings.md R404). -/
inductive Purpose where
  /-- the doorbell block (R410) -/
  | doorbell
  /-- ring entries `idx` to `idx + n - 1` (R410) -/
  | fetch (ring idx n : Nat)
  /-- frame bytes of a TX entry from byte `off` (R418) -/
  | txData (ring idx off : Nat)
  /-- frame bytes into an RX buffer (R422) -/
  | rxData (ring idx : Nat)
  /-- all but the last 8 bytes of an entry, and those (R413) -/
  | entryHead (ring : Nat)
  | entryTail (ring : Nat)
  /-- a host-window access of a thread (R293); `tid` 0 where the thread was reset, and the response is discarded (R248) -/
  | window (tid : Nat)
  /-- a read of command data: CMDQ index and byte (R435) -/
  | cmdData (idx off : Nat)
  /-- an image read of the loader, from byte `off` (R458, R460) -/
  | image (off : Nat)
  /-- a transaction whose response is accepted and discarded (R483) -/
  | discard
  deriving DecidableEq, Repr

/-- A transaction of the initiator port, asked for or outstanding (12_memory_fabric.md R336; R399). -/
structure Txn where
  id : Nat
  wr : Bool
  addr : Nat
  len : Nat
  data : List Byte
  why : Purpose
  deriving DecidableEq, Repr

/-- The path to the initiator port (12_memory_fabric.md R334 to R336): by initiator (0 Basin DMA, 1 host-ring unit, 2 to 4 the host-window paths of
PAV0 to PAV2) how many of its transactions are outstanding, which are the first ones of it in Eng.initq; the cycle from which the path is free;
the initiator that it was granted to last. -/
structure Matrix where
  out : Tab Nat := []
  freeAt : Nat := 0
  last : Nat := 4
  deriving DecidableEq, Repr

/-- A host ring (R406 to R424). The state, cause, indices and configuration are registers; `next` is the next index
to fetch, `fetched` the entries fetched and not yet finished, `outq` the entries to be written, the first in progress
(`stage` 0 none, 1 head, 2 tail outstanding), `retry` a failed transaction to make again at RESTART (R412), `res` the outcomes
of TX entries by index: status, port, SEQ (R419); a TX entry that waits for cells since a cycle, TX frames in the DMA, posted RX
buffers, the frame being written to them (R418 to R422). -/
structure Ring where
  next : Nat := 0
  fetched : List (Nat × List Byte) := []
  outq : List (Nat × List Byte) := []
  stage : Nat := 0
  retry : List Txn := []
  lost : Nat := 0
  fullSeen : Bool := false
  res : Tab (Nat × Nat × Nat) := []
  wait : Option (Nat × List Byte × Nat) := none
  dma : List TxDma := []
  bufs : List (Nat × List Byte) := []
  rx : Option RxWork := none
  deriving DecidableEq, Repr

/-- The state of a thread (09_barrels_threads.md R245, R265). -/
inductive TState where
  | held | run | wait | faulted | halted
  deriving DecidableEq, Repr

/-- The kind of a memory instruction's access. -/
inductive MemKind where
  | ld | st | xch | addm | lkw | lkr
  deriving DecidableEq, Repr

/-- A memory instruction at its access (11_isa_reference.md R291 to R293, R300): thread, kind, width code (R271), data
register, effective address, values of the data registers as read, the base register's new value, the addresses of the
next instruction and of this one. `locked`: LOCK-prefixed. `fed`: fed by the Hide (R511). `part`: words of an odd PAIR of the
host window already answered (R323). -/
structure MemOp where
  tid : Nat
  kind : MemKind
  width : Nat
  r : Nat
  ea : Nat
  val : Nat
  base : Option (Nat × Nat)
  next : Nat
  pc : Nat
  locked : Bool
  fed : Bool
  part : Nat := 0
  late : Bool := false
  win : Nat := 0
  deriving DecidableEq, Repr

/-- What a thread in WAIT waits on (R245, R303, R304, R307, R310, R311, R72). `reg` is the register that the end of the
wait writes. `granted`: the cycle from which the wait ends, ABANDONED and WAITMAX at the grant (R309). -/
inductive Wait where
  | none
  | wtk
  | wev (mask : Nat) (reg : Option Nat)
  | lock (reg addr : Nat) (granted : Option (Nat × Bool × Nat))
  | crecv (reg cd : Nat)
  | csend (reg cd : Nat) (close : Bool)
  | atTime
  deriving DecidableEq, Repr

/-- A thread context (10_isa_encoding.md R266; 09 R245 to R254). `ev` the counts of EV0 to EV7, `irq` that of the interrupt
input; `wait` with `waitNext`, the address after the waiting instruction, and `waitBase`, the base register a granted LKW steps; `atTarget` the AT target read (R284) and
`atDone` its release (R72); `seq` the open locked sequence (bank, accesses) (R285); `mem` an access held by a blocked
bank (R330) or outstanding on the host window (R293); `borrow` the weight borrowed (R258, R348); `holdReq`, `haltReq`
a HOLD or a halt (cause, comparator, deferred) that waits for an instruction in flight (R247, R507, R510);
`step`, `noBreak` the marks of R509; `wtkCyc`, `relCyc` the cycle plus 1 of the last WTK issue and release (R37, R38);
`atHit` the first cycle in which the AT target was found reached (R72), `atSlept` it was reached while the barrels did not run (R76);
`entered` an interrupt was taken and its issue goes on with the first instruction of the handler (R254); `mark` the cycle plus 1 and
the rank of the last event that reached the thread (R246: 5 reset, 4 fault, 3 halt, 2 HOLD, 1 RELEASE), `held` what a HOLD of that cycle
took from a thread: state, wait and its place among the waiters (R246). `issued` the cycle plus 1 of the last issue, `ready` the cycle in
which the last instruction is complete (R234), `atLock` the thread stands at a LOCK-prefixed instruction, which the spare pool never
issues (12_memory_fabric.md R331). -/
structure Thr where
  g : Tab Word := []
  pc : Word := 0
  flags : Word := 0
  ipc : Word := 0
  iflags : Word := 0
  emPc : Word := 0
  emLen : Word := 0
  emb : Tab Word := []
  st : TState := .held
  prev : TState := .held
  wait : Wait := .none
  waitNext : Nat := 0
  waitBase : Option (Nat × Nat) := none
  ev : Tab Nat := []
  irq : Nat := 0
  atTarget : Nat := 0
  atDone : Bool := false
  seq : Option (Nat × Nat) := none
  mem : Option MemOp := none
  hostWin : Bool := false
  borrow : Nat := 0
  holdReq : Bool := false
  haltReq : Option (Nat × Nat × Bool) := none
  step : Bool := false
  noBreak : Bool := false
  wtkCyc : Nat := 0
  relCyc : Nat := 0
  atHit : Option Nat := none
  atSlept : Bool := false
  entered : Bool := false
  mark : Nat × Nat := (0, 0)
  held : Option (TState × Wait × Nat) := none
  issued : Nat := 0
  ready : Nat := 0
  atLock : Bool := false
  deriving DecidableEq, Repr

/-- A slot table in its checks (R239): its WHEN, the cycle at which they end, the failure that they found (code, thread, NOENT, ADDR). -/
structure SlotCheck where
  tab : Tab Nat
  when_ : Bool
  until_ : Nat
  found : Option (Nat × Nat × Bool × Nat)
  deriving DecidableEq, Repr

/-- A barrel (R236, R239, R240, R243): staged table, table in force and pending table with its WHEN (index
32·lane + slot, value a thread); a table in its checks; the spare pointer; `spared` the cycle plus 1 of the last spare issue and how many that
cycle had (R243). -/
structure Barrel where
  staged : Tab Nat := []
  force : Tab Nat := []
  pend : Option (Tab Nat × Bool) := none
  check : Option SlotCheck := none
  pendAt : Nat := 0
  spare : Nat := 0
  spared : Nat × Nat := (0, 0)
  gated : Bool := false
  deriving DecidableEq, Repr

/-- A lock slot (13_locks_conduits.md R342): HELD or FREED, canonical address, ABANDONED. An EMPTY slot is not listed. -/
structure LockSlot where
  freed : Bool
  addr : Nat
  abandoned : Bool
  deriving DecidableEq, Repr

/-- A write whose effect follows the instruction accesses of its cycle (R350, R355, R356). -/
inductive Closing where
  | force | abort | flush | scrub
  deriving DecidableEq, Repr

/-- A conduit (R353, R354): closed messages, oldest first, each with the cycle of its close; the open message; words taken
from the oldest; the cycles from which freed buffers take an opening send; cycle plus 1 of the last close. -/
structure Conduit where
  closed : List (List Word × Nat) := []
  opened : Option (List Word) := none
  taken : Nat := 0
  freeing : List Nat := []
  closeCyc : Nat := 0
  deriving DecidableEq, Repr
/-- An access of the Hide's access unit in progress (20_hide_debug.md R504 to R506): space (code), write, address, data,
and the pavilion and page staged in HIDE_APAGE. -/
structure HideAcc where
  code : Bool
  wr : Bool
  addr : Nat
  data : Nat
  pav : Nat
  page : Nat
  deriving DecidableEq, Repr

/-- The Hide (R499 to R522). `buf`, `lastCyc`, `lost` are the trace buffer, the cycle of the previous packet and the
packets lost (R521); `coolAt` the end of the cool-down, `chal` the challenge bound to path and level (R501); `acc` the
access and `feed` the feed in progress (thread, bytes), `feedAt` the cycle in which it reached its barrel; `tx`, `rx` the terminal FIFOs (data, thread); `tally`
and `touched` the stimulus tallies (R520); `linkA` the cycle plus 1 and thread of comparator A's last match (R514);
`tapOut` the data register of the TAP path, `tapReq` its access in progress, `tapLast` the result of its last access (R534);
`feedIss` that the fed instruction has issued, `feedRes` its RESULT, its CAUSE and the cycle in which it is complete (R511);
`packets` the packets of this cycle in the order of R521 (place, first byte, bytes after DELTA); `halts` the halts of a match that reach other threads in
a later cycle (cycle, thread, cause, comparator; R515). -/
structure Hide where
  buf : List Byte := []
  lastCyc : Nat := 0
  lost : Nat := 0
  coolAt : Nat := 0
  chal : Nat := 0
  chalPath : Nat := 0
  chalLevel : Nat := 0
  acc : Option HideAcc := none
  feed : Option (Nat × List Byte) := none
  feedAt : Nat := 0
  tx : Tab (List (Nat × Nat)) := []
  rx : Tab (List (Nat × Nat)) := []
  tally : Tab Nat := []
  touched : List Nat := []
  linkA : Tab (Nat × Nat) := []
  tapOut : Nat := 0
  tapReq : Option Nat := none
  tapLast : Nat := 0
  feedIss : Bool := false
  feedRes : Option (Nat × Nat × Nat) := none
  packets : List (Nat × Nat × List Byte) := []
  halts : List (Nat × Nat × Nat × Nat) := []
  deriving DecidableEq, Repr

/-- What the hardware events of this cycle did to fields that software clears (00_scope.md R9): `bits`, the W1C bits set in each register;
`rc`, the value before the cycle's first count of a field cleared by a read and the amount counted (index 32·(register copy) + lowest
bit); `ctrs`, the same for the counters of the counter windows that a read clears; `ecap`, the T80 before the capture of each event
capture unit that captured (03_sundial.md R68); `acc`, for each data word and Basin half word that this cycle's accesses reached, the places
plus 1 of the last read and of the last write in the order of 12_memory_fabric.md R329; `banks`, the banks that a locked sequence blocked as
the cycle began, with its thread (R330); `was`, the values as the cycle began of the registers written in it of which a change applies from the
next cycle on (14_causeway.md R367, R371; index as in Eng.regs); `fired`, the firings that this cycle added to each flood count (R372). -/
structure Recent where
  bits : Tab Nat := []
  rc : Tab (Nat × Nat) := []
  ctrs : Tab (Nat × Nat) := []
  ecap : Tab Nat := []
  acc : Tab (Nat × Nat) := []
  banks : List (Nat × Nat) := []
  was : Tab Word := []
  fired : Tab Nat := []
  deriving DecidableEq, Repr

/-- The owner of a Basin cell (07_basin_switching.md R160, R161): the free list, a frame, a thread. -/
inductive Owner where
  | free | frame
  | thread (t : Nat)
  deriving DecidableEq, Repr

/-- A Basin cell's record (R160, R161, R165): owner, next cell of its chain, SEQ stamp; held by a thread that was reset since
(R192, R193); suspected at the last audit with this stamp (R193); held for class 7 (R162). -/
structure Cell where
  owner : Owner := .free
  next : Option Nat := none
  seq : Nat := 0
  orphan : Bool := false
  suspect : Option Nat := none
  c7 : Bool := false
  deriving DecidableEq, Repr

/-- The answer of a register access (R7, R403, R543, R321): done with the value read, FAULT with the code of R403,
NOWHERE. -/
inductive DevAns (α : Type) where
  | ok (v : Nat) (e : α)
  | fault (code : Nat) (e : α)
  | nowhere
  deriving DecidableEq, Repr

end Sys2Proof.Machine
end

