-- ==== Sys2Proof/Machine/EngState.lean ====
section
/-! DEFINITION. `Eng`: the block's state outside its addressed memories, one field per part; `Mem`: its addressed memories;
`Block`: both. -/

namespace Sys2Proof.Machine

/-- The state of the block outside its addressed memories. -/
structure Eng where
  /-- stored fields of the device registers: index 1024·(register number) + copy -/
  regs : Tab Word := []
  /-- counters behind counter windows (R98, R202, R232, R433): index 65536·bank + 64·unit + counter -/
  ctrs : Tab Nat := []
  recent : Recent := {}
  clk : Clk := {}
  tick : Tick := {}
  cwy : Cwy := {}
  tmr : Tab Timer := []
  latch : Tab Latches := []
  rings : Tab Ring := []
  /-- the transactions of the initiator port that are asked for or outstanding, in the order in which they were asked for (R336) -/
  initq : List Txn := []
  matrix : Matrix := {}
  thr : Tab Thr := []
  brl : Tab Barrel := []
  locks : Tab LockSlot := []
  waiters : List (Nat × Nat) := []
  cnd : Tab Conduit := []
  /-- threads with an access held at a blocked bank, in order (R330) -/
  heldBanks : List Nat := []
  /-- threads with an access whose place in the order of its cycle had passed: it takes effect in the next cycle (R292, R329) -/
  passed : List Nat := []
  /-- what writes of this cycle bring about at its end: forced releases, aborts and flushes of conduits, with the accessor and the slot or
  conduit (R350, R355, R356) -/
  closing : List (Closing × Nat × Nat) := []
  hide : Hide := {}
  /-- the reeds by number -/
  reeds : Tab Reed := []
  /-- the links by number -/
  links : Tab Link := []
  sw : Switch := {}
  sch : Sched := {}
  /-- the cycle from which still water has held without a break (R261) -/
  swSince : Option Nat := none
  keys : Keys := {}
  pwr : Pwr := {}
  sys : Sys := {}
  /-- Basin cells (R160, R161) -/
  cells : Tab Cell := []
  /-- SRAM words with an error: index 2^20·MEM + word; true for a double-bit error (R325) -/
  ecc : Tab Bool := []
  /-- the model's own counter of free values -/
  freeCtr : Nat := 0
  deriving DecidableEq, Repr

/-- The addressed memories: Basin bytes (R160), data words by canonical address (R320, R341),
code bytes (local byte a of PAVp at p·0x2_0000 + a, shared bytes at their address; R318), Ledger words (R450). Every
memory is in canonical form: addresses rise, and no entry is 0, what an unlisted address reads as (R482). -/
structure Mem where
  basin : List Host.Cell := []
  data : Tab Word := []
  code : List Host.Cell := []
  ledger : Tab (BitVec 32) := []
  deriving DecidableEq, Repr

/-- The block without its command queue. -/
structure Block where
  mem : Mem := {}
  eng : Eng := {}
  deriving DecidableEq, Repr

end Sys2Proof.Machine
end

