-- ==== Sys2Proof/Machine/Ops.lean ====
section
/-! DEFINITION. The named operations over the block's state that every unit shares: registers and their fields, counters,
time, free values, the engine-written rings (16_host_rings.md R407, R408, R413, R425 to R427), firings (14_causeway.md
R362 to R374). -/

namespace Sys2Proof.Machine

/-! ### Registers -/

/-- The reset value of a register (the register tables; TMR_OFS is j × 0x2_0000, R396). -/
def Reg.rst (r : Reg) (i : Nat) : Word :=
  if r = .TMR_OFS then word ((i % 8) * 0x20000)
  else word (r.flds.foldl (fun a f => a + f.rst <<< f.lo) 0)

/-- Where copy `i` of a register is stored. -/
def Reg.key (r : Reg) (i : Nat) : Nat := r.ctorIdx * 1024 + i

/-- The stored value of a register. -/
def Eng.reg (e : Eng) (r : Reg) (i : Nat) : Word := Tab.get (r.rst i) e.regs (r.key i)

/-- Stores a register. -/
def Eng.setReg (e : Eng) (r : Reg) (i : Nat) (v : Word) : Eng := { e with regs := Tab.put e.regs (r.key i) v }

/-- The stored value of a register as a number. -/
def Eng.val (e : Eng) (r : Reg) (i : Nat) : Nat := (e.reg r i).toNat

/-- A stored field. -/
def Eng.fld (e : Eng) (f : Fld) (i : Nat) : Nat := bits (e.val f.reg i) f.hi f.lo

/-- Stores a field. -/
def Eng.setFld (e : Eng) (f : Fld) (i n : Nat) : Eng :=
  e.setReg f.reg i (word (setBits (e.val f.reg i) f.hi f.lo n))

/-- Is a field not 0? -/
def Eng.flag (e : Eng) (f : Fld) (i : Nat) : Bool := decide (e.fld f i ≠ 0)

/-- An event's note in a table of this cycle: the value before the first event and the amount of all (R9). -/
def noteCount (t : Tab (Nat × Nat)) (k old n : Nat) : Tab (Nat × Nat) :=
  match Tab.find t k with
  | none => Tab.put t k (old, n)
  | some (o, m) => Tab.put t k (o, m + n)

/-- Adds to a field that saturates at its largest value, and notes the count for a read of this cycle (R9). -/
def Eng.bump (e : Eng) (f : Fld) (i n : Nat) : Eng :=
  { e.setFld f i (min (e.fld f i + n) (2 ^ (f.hi + 1 - f.lo) - 1)) with
    recent := { e.recent with rc := noteCount e.recent.rc (f.reg.key i * 32 + f.lo) (e.fld f i) n } }

/-- Adds to a register of 20 bits that saturates at 0xF_FFFF, and notes the count for a read of this cycle (R9). -/
def Eng.bumpReg (e : Eng) (r : Reg) (i n : Nat) : Eng := e.bump ⟨r, 19, 0⟩ i n

/-- A register of which a change applies from the next cycle on is about to be written: its value as the cycle began is kept (14_causeway.md
R367, R371). -/
def Eng.keepOld (e : Eng) (r : Reg) (i : Nat) : Eng :=
  if Tab.has e.recent.was (r.key i) then e
  else { e with recent := { e.recent with was := Tab.put e.recent.was (r.key i) (e.reg r i) } }

/-- Such a register as the cycle began. -/
def Eng.regWas (e : Eng) (r : Reg) (i : Nat) : Word := (Tab.find e.recent.was (r.key i)).getD (e.reg r i)

/-- Its field. -/
def Eng.fldWas (e : Eng) (f : Fld) (i : Nat) : Nat := bits (e.regWas f.reg i).toNat f.hi f.lo

/-- A subscription with its enable and channel as the cycle began: does it name channel ch? -/
def Eng.subscribes (e : Eng) (en ch : Fld) (i c : Nat) : Bool := decide (e.fldWas en i ≠ 0) && e.fldWas ch i == c

/-- A hardware event sets bits of a register that a write of 1 clears, and they stay set in this cycle (R9). -/
def Eng.postBits (e : Eng) (r : Reg) (i m : Nat) : Eng :=
  let e := e.setReg r i (word (e.val r i ||| m))
  { e with recent := { e.recent with bits := Tab.put e.recent.bits (r.key i) (Tab.get 0 e.recent.bits (r.key i) ||| m) } }

/-- A hardware event sets a W1C field of one bit (R9). -/
def Eng.post (e : Eng) (f : Fld) (i : Nat) : Eng := e.postBits f.reg i (1 <<< f.lo)

/-! ### Unit records -/

def Eng.getThr (e : Eng) (t : Nat) : Thr := Tab.get {} e.thr t
def Eng.setThr (e : Eng) (t : Nat) (x : Thr) : Eng := { e with thr := Tab.put e.thr t x }
def Eng.getBrl (e : Eng) (p : Nat) : Barrel := Tab.get {} e.brl p
def Eng.setBrl (e : Eng) (p : Nat) (x : Barrel) : Eng := { e with brl := Tab.put e.brl p x }
def Eng.getTmr (e : Eng) (u : Nat) : Timer := Tab.get {} e.tmr u
def Eng.setTmr (e : Eng) (u : Nat) (x : Timer) : Eng := { e with tmr := Tab.put e.tmr u x }
def Eng.getRing (e : Eng) (r : Nat) : Ring := Tab.get {} e.rings r
def Eng.setRing (e : Eng) (r : Nat) (x : Ring) : Eng := { e with rings := Tab.put e.rings r x }
def Eng.getCnd (e : Eng) (c : Nat) : Conduit := Tab.get {} e.cnd c
def Eng.setCnd (e : Eng) (c : Nat) (x : Conduit) : Eng := { e with cnd := Tab.put e.cnd c x }
def Eng.getLatch (e : Eng) (k : Nat) : Latches := Tab.get {} e.latch k
def Eng.setLatch (e : Eng) (k : Nat) (x : Latches) : Eng := { e with latch := Tab.put e.latch k x }

/-- The pavilion of a thread: 1 to 21, 22 to 42, 43 to 63 (R17). -/
def pavOf (t : Nat) : Nat := (t - 1) / 21

/-- The master of a pavilion (R17). -/
def masterOf (p : Nat) : Nat := 21 * p + 1

/-! ### Time -/

def Eng.now (e : Eng) : Nat := e.clk.cycle

/-- Sundial's 80-bit T80 at the start of the cycle (R51, R53). -/
def Eng.t80 (e : Eng) : Nat := e.clk.sun.toNat >>> 20

/-- Sundial's 60-bit nanosecond count. -/
def Eng.ns (e : Eng) : Nat := e.clk.sun.toNat >>> 40

/-- The increment of one cycle, in 2^-40 ns (R53). -/
def incOf (rate : BitVec 40) : Nat := toMod 100 ((2 * 2 ^ 40 : Nat) + rate.toInt)

/-- The accumulator as a read in this cycle sees it: after a STEP or LOAD of the cycle (R59). -/
def Clk.seen (c : Clk) : BitVec 100 := c.after.getD c.sun

/-- The accumulator at the start of the next cycle but for a STEP or LOAD of this one (R53). -/
def Clk.plainNext (c : Clk) : BitVec 100 := c.sun + BitVec.ofNat 100 (incOf c.rate)

/-- The accumulator at the start of the next cycle (R53, R61). -/
def Clk.nextSun (c : Clk) : BitVec 100 := if c.loaded then c.seen else c.seen + BitVec.ofNat 100 (incOf c.rate)

/-- Sundial at phase p of this cycle: S(c) + p · INC / 16, in 2^-40 ns (R66, R70). -/
def Eng.sunAt (e : Eng) (p : Nat) : Nat := (e.t80 * 2 ^ 20 + p * incOf e.clk.rate / 16) % 2 ^ 100

/-- The T80 of phase p of this cycle. -/
def Eng.t80At (e : Eng) (p : Nat) : Nat := e.sunAt p / 2 ^ 20

/-- The timestamp of an edge at phase p of this cycle, truncated to 125 ps (R66). -/
def Eng.timeAtPhase (e : Eng) (p : Nat) : Nat := e.sunAt p / 2 ^ 37 * 2 ^ 17

/-- Sundial at the start of an earlier cycle: from the latest change of its course that it follows (R53, R61). -/
def Clk.past (c : Clk) (cyc : Nat) : BitVec 100 :=
  match c.course.find? (fun s => decide (s.1 ≤ cyc)) with
  | some (c0, v, r) => v + BitVec.ofNat 100 ((cyc - c0) * incOf r)
  | none => c.sun - BitVec.ofNat 100 ((c.cycle - cyc) * incOf c.rate)

/-- The timestamp of an edge `back` cycles ago at phase p (R66). -/
def Eng.timeBack (e : Eng) (back p : Nat) : Nat :=
  let c : Clk := e.clk
  let cyc := c.cycle - back
  let inc := match c.course.find? (fun s => decide (s.1 ≤ cyc)) with
    | some (_, _, r) => incOf r
    | none => incOf c.rate
  ((c.past cyc).toNat / 2 ^ 20 * 2 ^ 20 + p * inc / 16) % 2 ^ 100 / 2 ^ 37 * 2 ^ 17

/-- T80 word `w` of an 80-bit value (R51). -/
def t80Word (v w : Nat) : Word := word (v >>> (20 * w))

/-- Is the cycle the first of a round (R25)? -/
def Eng.atRound (e : Eng) : Bool := (e.now - e.clk.roundBase) % 32 == 0

/-- The whole rounds from cycle `c` to now. -/
def Eng.roundsSince (e : Eng) (c : Nat) : Nat := (e.now - c) / 32

/-- The next free value, and the counter advanced. -/
def Eng.freeVal (e : Eng) (w : Nat) : Nat × Eng :=
  ((Config.freeWord e.freeCtr).toNat % 2 ^ w, { e with freeCtr := e.freeCtr + 1 })

/-! ### Counters of the counter windows (R98): 40-bit counters wrap, 20-bit ones saturate -/

def ctrKey (bank unit idx : Nat) : Nat := bank * 65536 + unit * 64 + idx

/-- Is a counter 40 bits wide? Banks: 0 links, 1 Basin, 2 rings, 3 schedule layers. -/
def ctrWide : Nat → Nat → Bool
  | 0, i => i < 4
  | 1, i => i < 2 ∨ i = 5
  | 2, i => i < 4
  | _, _ => false

def Eng.ctr (e : Eng) (bank unit idx : Nat) : Nat := Tab.get 0 e.ctrs (ctrKey bank unit idx)

def Eng.setCtr (e : Eng) (bank unit idx v : Nat) : Eng := { e with ctrs := Tab.put e.ctrs (ctrKey bank unit idx) v }

/-- Counts `n` on a counter; of one that a read clears, the count is noted for a read of this cycle (R9). -/
def Eng.count (e : Eng) (bank unit idx n : Nat) : Eng :=
  let v := e.ctr bank unit idx
  if ctrWide bank idx then e.setCtr bank unit idx ((v + n) % 2 ^ 40)
  else
    { e.setCtr bank unit idx (min (v + n) 0xFFFFF) with
      recent := { e.recent with ctrs := noteCount e.recent.ctrs (ctrKey bank unit idx) v n } }

/-- A counter as a read of this cycle finds it: before the events of the cycle, where the read clears it (R9). -/
def Eng.ctrRead (e : Eng) (bank unit idx : Nat) : Nat :=
  match Tab.find e.recent.ctrs (ctrKey bank unit idx) with
  | some (o, _) => o
  | none => e.ctr bank unit idx

/-- A read clears a counter but for the events of this cycle (R9). -/
def Eng.ctrClear (e : Eng) (bank unit idx : Nat) : Eng :=
  match Tab.find e.recent.ctrs (ctrKey bank unit idx) with
  | some (_, n) =>
    { e.setCtr bank unit idx (min n 0xFFFFF) with
      recent := { e.recent with ctrs := Tab.put e.recent.ctrs (ctrKey bank unit idx) (0, n) } }
  | none => e.setCtr bank unit idx 0

/-! ### Rings in host memory -/

def Eng.ringN (e : Eng) (r : Nat) : Nat := 2 ^ e.fld F.HRG_RCFG_LOG2 r

/-- The host byte address of a ring (R432). -/
def Eng.ringBase (e : Eng) (r : Nat) : Nat := (e.val .HRG_RBASE0 r <<< 9) + (e.fld F.HRG_RBASE1_BASE_HI r <<< 29)

/-- The initiator ID of a ring (R406). -/
def ringId (r : Nat) : Nat := if r = 0 then 0x10 else if r = 1 then 0x11 else if r < 18 then r - 2 else r - 6

/-- HRG_RSTAT.STATE: 0 OFF, 1 ACTIVE, 2 STOPPED (R412). -/
def Eng.ringState (e : Eng) (r : Nat) : Nat := e.fld F.HRG_RSTAT_STATE r

def Eng.raise (e : Eng) (b : Nat) : Eng := e.postBits .HRG_ISTAT 0 (1 <<< b)

/-- Is an enabled source of output n set in HRG_ISTAT (R430)? -/
def Eng.irqDue (e : Eng) (n : Nat) : Bool :=
  (List.range 9).any (fun b => bit (e.val .HRG_ISTAT 0) b && bit (e.val .HRG_IEN 0) b &&
    bits (e.val .HRG_IMAP0 0) (2 * b + 1) (2 * b) == n)

/-- The flip-flops of JX_IRQ at the start of a cycle (R430, R535): a change of HRG_ISTAT shows in the next cycle; in DORMANT they hold. -/
def Eng.irqStep (e : Eng) : Eng :=
  if e.pwr.lvl = 4 then e
  else { e with sys := { e.sys with irq := (List.range 4).foldl (fun a n => a + b2n (e.irqDue n) * 2 ^ n) 0 } }

/-! ### The path to the initiator port (12_memory_fabric.md R334 to R336) -/

/-- The initiator of an ID: 0 Basin DMA, 1 host-ring unit, 2 to 4 the host-window paths. -/
def initiatorOf (id : Nat) : Nat := if id < 0x10 then 0 else if id < 0x20 then 1 else 2 + (id - 0x20)

/-- The transactions that an initiator may have outstanding (R336). -/
def initShare (i : Nat) : Nat := if i = 0 then 16 else 4

/-- An initiator's transactions, asked for or outstanding. -/
def Eng.txnsOf (e : Eng) (i : Nat) : List Txn := e.initq.filter (fun x => initiatorOf x.id == i)

/-- How many of them are outstanding. -/
def Eng.outOf (e : Eng) (i : Nat) : Nat := Tab.get 0 e.matrix.out i

/-- JX_HWSTAT: the outstanding host-window transactions of each pavilion (R336, R340). -/
def Eng.hwStat (e : Eng) : Nat := e.outOf 2 + e.outOf 3 * 16 + e.outOf 4 * 256

/-- The first transaction of an initiator that waits for the path; while its share is in use it does not ask (R336). -/
def Eng.asking (e : Eng) (i : Nat) : Option Txn := if e.outOf i < initShare i then (e.txnsOf i)[e.outOf i]? else none

/-- The cycles for which a transaction holds the path: its request beats of 64 bits (R334, R399; DESIGN CHOICE, log 71: a beat passes in each cycle). -/
def Txn.beats (x : Txn) : Nat := if x.wr then (x.addr % 8 + x.len + 7) / 8 else 1

/-- The path is granted to an initiator for one transaction or burst (R334). -/
def Eng.grant (e : Eng) (i : Nat) (x : Txn) : Eng :=
  { e with matrix := { out := Tab.put e.matrix.out i (e.outOf i + 1), freeAt := e.now + max 1 x.beats, last := i } }

/-- The path's grant at the start of a cycle: in rotation from the one after the last among those that asked in a cycle before (R335). -/
def Eng.arbitrate (e : Eng) : Eng :=
  if e.now < e.matrix.freeAt then e
  else
    match (List.range 5).findSome? (fun k => (e.asking ((e.matrix.last + 1 + k) % 5)).map (fun x => ((e.matrix.last + 1 + k) % 5, x))) with
    | some (i, x) => e.grant i x
    | none => e

/-- A transaction is asked for. While no other initiator requests the path it is parked on the Basin DMA, whose request then starts in its cycle (R335). -/
def Eng.issueTxn (e : Eng) (x : Txn) : Eng :=
  let parked := decide (e.matrix.freeAt ≤ e.now) && (List.range 5).all (fun i => (e.asking i).isNone) && decide (e.outOf 0 < 16)
  let e := { e with initq := e.initq ++ [x] }
  if initiatorOf x.id = 0 ∧ parked then e.grant 0 x else e

/-- The transactions that are outstanding on the port (R336). -/
def Eng.outstanding (e : Eng) : List Txn :=
  (e.initq.foldl (fun (a : List Nat × List Txn) x =>
    let i := initiatorOf x.id
    if a.1.count i < e.outOf i then (a.1 ++ [i], a.2 ++ [x]) else a) ([], [])).2

/-- The oldest outstanding transaction of an ID, which the next response with it answers (R336). -/
def Eng.oldestTxn (e : Eng) (id : Nat) : Option Txn :=
  ((e.txnsOf (initiatorOf id)).take (e.outOf (initiatorOf id))).find? (fun x => x.id == id)

/-- It leaves the port. -/
def Eng.dropTxn (e : Eng) (id : Nat) : Eng :=
  let i := initiatorOf id
  { e with initq := e.initq.eraseP (fun x => x.id == id), matrix := { e.matrix with out := Tab.put e.matrix.out i (e.outOf i - 1) } }

/-- A transaction answered other than DONE is recorded, with its ring, 31 for the host window (R412, R432, R433). -/
def Eng.busError (e : Eng) (addr ring code : Nat) : Eng :=
  let e := (e.setReg .HRG_BERR0 0 (word addr)).setReg .HRG_BERR1 0 (word (addr / 2 ^ 20))
  let e := (e.setFld F.HRG_BERRSTAT_RING 0 ring).setFld F.HRG_BERRSTAT_CODE 0 (if code = 2 then 2 else 1)
  (e.post F.HRG_BERRSTAT_VALID 0).count 2 0 9 1

/-- Starts the write of the first waiting entry of a ring: all but its last 8 bytes, then those (R413). -/
def Eng.ringKick (e : Eng) (r : Nat) : Eng :=
  let q := e.getRing r
  match q.outq with
  | [] => e
  | (idx, d) :: _ =>
    if q.stage ≠ 0 ∨ e.ringState r = 2 then e
    else
      let a := e.ringBase r + (idx % e.ringN r) * 32 + (32 - d.length)
      if 8 < d.length then
        (e.setRing r { q with stage := 1 }).issueTxn ⟨ringId r, true, a, d.length - 8, d.take (d.length - 8), .entryHead r⟩
      else (e.setRing r { q with stage := 2 }).issueTxn ⟨ringId r, true, a, d.length, d, .entryTail r⟩

/-- Queues an entry's write (its last bytes up to byte 31) at index `idx`. -/
def Eng.ringOut (e : Eng) (r idx : Nat) (d : List Byte) : Eng :=
  let q := e.getRing r
  (e.setRing r { q with outq := q.outq ++ [(idx, d)] }).ringKick r

/-- Is an engine-written ring full (R408)? -/
def Eng.ringFull (e : Eng) (r : Nat) : Bool :=
  (e.fld F.HRG_RIDX_D r + 65536 - e.fld F.HRG_RHOST_H r) % 65536 == e.ringN r

/-- Writes the next entry of an engine-written ring, with its PHASE (R413); `d` holds 31 bytes. -/
def Eng.ringPost (e : Eng) (r : Nat) (d : List Byte) : Eng :=
  let i := e.fld F.HRG_RIDX_D r
  let phase : Byte := if (i / e.ringN r) % 2 = 0 then 0x80 else 0
  (e.setFld F.HRG_RIDX_D r ((i + 1) % 65536)).ringOut r i (d ++ [phase])

def padTo (n : Nat) (l : List Byte) : List Byte := l ++ List.replicate (n - l.length) 0

/-- An EVQ entry without its last byte (R425). -/
def Eng.evqEntry (e : Eng) (type src : Nat) (payload : List Byte) : List Byte :=
  [BitVec.ofNat 8 type, BitVec.ofNat 8 src] ++ leBytes 2 (e.fld F.HRG_EPOCH_EPOCH 0) ++ leBytes 10 e.t80
    ++ padTo 17 payload

/-- An entry for EVQ or TRQ that finds the ring full or STOPPED is lost and counted (R427). -/
def Eng.ringLose (e : Eng) (r : Nat) : Eng :=
  let q := e.getRing r
  let e1 := e.count 2 0 (if r = 18 then 4 else 5) 1
  let e2 := if e.ringState r = 1 ∧ !q.fullSeen then e1.raise 6 else e1
  e2.setRing r { q with lost := min (q.lost + 1) 0xFFFFFFFF, fullSeen := q.fullSeen || e.ringState r == 1 }

/-- Writes an EVQ entry or a TRQ container; after a loss, the LOST entry or the loss marker first (R427). -/
def Eng.ringLog (e : Eng) (r : Nat) (entry lostEntry : List Byte) : Eng :=
  if e.ringState r = 0 then e
  else if e.ringState r = 2 ∨ e.ringFull r then e.ringLose r
  else
    let q := e.getRing r
    if q.lost = 0 then (e.setRing r { q with fullSeen := false }).ringPost r entry
    else
      let e1 := (e.setRing r { q with lost := 0, fullSeen := false }).ringPost r lostEntry
      if e1.ringFull r then e1.ringLose r else e1.ringPost r entry

/-- An event-log entry (R425 to R427). -/
def Eng.evq (e : Eng) (type src : Nat) (payload : List Byte) : Eng :=
  e.ringLog 18 (e.evqEntry type src payload) (e.evqEntry 7 0 (leBytes 4 (e.getRing 18).lost))

/-! ### Firings -/

/-- Domains: 0 to 2 for PAV0 to PAV2, 3 for ENGINE (R362). -/
abbrev domEngine : Nat := 3

/-- Is a channel muted (R372)? -/
def Eng.muted (e : Eng) (ch : Nat) : Bool := bit (e.val .CWY_MUTE (ch / 20)) (ch % 20)

/-- A firing of channel `ch` in domain `dom` in this cycle (R363, R372, R373). -/
def Eng.fire (e : Eng) (ch dom : Nat) : Eng :=
  let key := 4 * ch + dom
  if Tab.get 0 e.cwy.last key = e.now + 1 then e
  else
    let e := { e with cwy := { e.cwy with last := Tab.put e.cwy.last key (e.now + 1) } }
    if e.muted ch ∨ Tab.get 0 e.cwy.unmuted ch = e.now + 1 then e.bumpReg .CWY_DROPCNT 0 1
    else
      let n := Tab.get 0 e.cwy.count ch + 1
      let r : Recent := { e.recent with fired := Tab.put e.recent.fired ch (Tab.get 0 e.recent.fired ch + 1) }
      let e : Eng := { e with cwy := { e.cwy with count := Tab.put e.cwy.count ch n }, recent := r }
      if n ≤ e.fld F.CWY_FLOOD_LIMIT 0 then
        { e with cwy := { e.cwy with inflight := e.cwy.inflight ++
            [⟨ch, dom, e.now, BitVec.ofNat 80 e.t80, false⟩] } }
      else
        let e := e.bumpReg .CWY_DROPCNT 0 1
        let e := e.postBits .CWY_MUTE (ch / 20) (1 <<< (ch % 20))
        let e := e.post F.CWY_STAT_MUTED 0
        let e := (e.setFld F.CWY_LASTMUTE_VALID 0 1).setFld F.CWY_LASTMUTE_CH 0 ch
        e.evq 6 ch (leBytes 2 (e.fld F.CWY_FLOOD_LIMIT 0))

/-- Every flood count returns to 0 and counts the firings of this cycle anew (R372, R373). -/
def Eng.floodZero (e : Eng) : Eng := { e with cwy := { e.cwy with count := e.recent.fired } }

/-- A mapped producer meets its condition (R365); a change of its entry applies from the next cycle on (R367). -/
def Eng.produce (e : Eng) (idx dom : Nat) : Eng :=
  if e.fldWas F.CWY_PMAP_EN idx ≠ 0 then e.fire (e.fldWas F.CWY_PMAP_CH idx) dom else e

/-- A reed FIRE instruction or FIRE action: it declares its channel unless the firing is dropped (R366, R373). -/
def Eng.reedFire (e : Eng) (ch pav : Nat) : Eng :=
  let e1 := e.fire ch pav
  if e1.muted ch then e1
  else
    let e2 := (e1.keepOld .CWY_CHCFG ch).setFld F.CWY_CHCFG_DECL ch 1
    { e2 with cwy := { e2.cwy with declared := Tab.put e2.cwy.declared ch (e.now + 1) } }

/-- SRC of a channel: a mapped producer with EN = 1 names it, or it is declared (R366), as the cycle began (R367). -/
def Eng.chanSrc (e : Eng) (ch : Nat) : Bool :=
  e.fldWas F.CWY_CHCFG_DECL ch ≠ 0 ||
    e.regs.any (fun kv => kv.1 / 1024 == Reg.ctorIdx .CWY_PMAP &&
      ((Tab.find e.recent.was kv.1).getD kv.2).toNat == 128 + ch)

end Sys2Proof.Machine
end

