-- ==== Sys2Proof/Machine/Threads.lean ====
section
/-! DEFINITION. Operations over threads: locks and weights (13_locks_conduits.md R342 to R352; 09 R258), faults (09 R255 to
R257), engine states (19 R485, R490), trace packets and halts (20_hide_debug.md R507 to R515, R521, R522). -/

namespace Sys2Proof.Machine

/-! ### Trace -/

/-- Do packets enter the trace buffer (R521)? -/
def Eng.traceOn (e : Eng) : Bool := e.flag F.HIDE_TRCTL_EN 0 && decide (1 ≤ e.fld F.HIDE_AUTH_LEVEL 0)

/-- Moves full containers from the trace buffer to TRQ while no container is being written (R428). -/
def Eng.traceDrain (e : Eng) : Eng :=
  if 30 ≤ e.hide.buf.length ∧ (e.getRing 19).outq = [] then
    let e1 := { e with hide := { e.hide with buf := e.hide.buf.drop 30 } }
    e1.ringLog 19 (e.hide.buf.take 30 ++ [30]) (padTo 30 (leBytes 4 (e.getRing 19).lost) ++ [0xFF])
  else e

/-- At a tick launch the bytes held are written as a container (R428). -/
def Eng.traceFlush (e : Eng) : Eng :=
  let e := e.traceDrain
  if e.hide.buf = [] then e
  else
    let b := e.hide.buf.take 30
    let e1 := { e with hide := { e.hide with buf := e.hide.buf.drop 30 } }
    e1.ringLog 19 (padTo 30 b ++ [BitVec.ofNat 8 b.length])
      (padTo 30 (leBytes 4 (e.getRing 19).lost) ++ [0xFF])

/-- Enters one packet, a LOSS packet before it after losses (R521). -/
def Eng.tracePut (e : Eng) (pkt : List Byte) : Eng :=
  let loss := if e.hide.lost = 0 then [] else 0xE0 :: leBytes 2 (min e.hide.lost 0xFFFF)
  if e.hide.buf.length + loss.length + pkt.length ≤ 64 then
    { e with hide := { e.hide with buf := e.hide.buf ++ loss ++ pkt, lost := 0, lastCyc := e.now } }
  else
    let e1 := e.bumpReg .HIDE_TRSTAT 0 1
    { e1 with hide := { e1.hide with lost := e1.hide.lost + 1 } }

/-- A SYNC packet (R522). -/
def Eng.traceSync (e : Eng) : Eng := e.tracePut (0x20 :: leBytes 10 e.t80)

/-- A packet enters the buffer: first byte, then DELTA, then the rest; a SYNC packet before it where DELTA is too long (R521). SYNC itself has
no DELTA; the reserved KIND 0 stands for the container that a tick launch writes (R428). -/
def Eng.packetPut (e : Eng) (b0 : Nat) (rest : List Byte) : Eng :=
  if b0 = 0 then e.traceFlush
  else if b0 = 0x20 then e.traceSync
  else
    let e1 := if 65535 < e.now - e.hide.lastCyc then e.traceSync else e
    (e1.tracePut (BitVec.ofNat 8 b0 :: leBytes 2 (min (e1.now - e1.hide.lastCyc) 65535) ++ rest)).traceDrain

/-- The packets of a cycle with one more, behind those of its place and of lower ones. -/
def packetInsert (p : Nat × Nat × List Byte) : List (Nat × Nat × List Byte) → List (Nat × Nat × List Byte)
  | [] => [p]
  | q :: t => if q.1 ≤ p.1 then q :: packetInsert p t else p :: q :: t

/-- A packet of this cycle, if trace is on. `place` is its place in the order of R521: the number of its kind there times 1,024, plus the number
of its port, thread or comparator. -/
def Eng.trace (e : Eng) (place b0 : Nat) (rest : List Byte) : Eng :=
  if e.traceOn then { e with hide := { e.hide with packets := packetInsert (place, b0, rest) e.hide.packets } } else e

/-- At a tick launch the bytes held are written as a container (R428), behind its packets, also where trace is off. -/
def Eng.traceLaunch (e : Eng) : Eng :=
  { e with hide := { e.hide with packets := packetInsert (1024 + 32, 0, []) e.hide.packets } }

/-- The packets of the cycle enter the buffer in their order (R521). -/
def Eng.traceEnd (e : Eng) : Eng :=
  e.hide.packets.foldl (fun e p => e.packetPut p.2.1 p.2.2) { e with hide := { e.hide with packets := [] } }

/-! ### Completions of commands (17_commands_keys.md R416, R439, R441, R445) -/

/-- Is the opcode critical (R438)? -/
def opCritical (op : Nat) : Bool := (decide (0x10 ≤ op) && decide (op < 0x1A)) || decide (0xC0 ≤ op)

/-- Is the command carried out by the Keeper (R438)? -/
def opKeeper (op : Nat) : Bool := op == 0x06 || op == 0x10 || (decide (0x12 ≤ op) && decide (op ≤ 0x14)) || decide (0x80 ≤ op)

def Cmd.op (c : Cmd) : Nat := byteAt c.entry 0

/-- The CPLQ entry of a completed command without its last byte (R416). -/
def Eng.cplEntry (e : Eng) (c : Cmd) (r : Nat) (d : List Byte) : List Byte :=
  [BitVec.ofNat 8 c.op, 0] ++ (c.entry.drop 2).take 2 ++ leBytes 2 c.idx ++ [BitVec.ofNat 8 r, 0] ++ padTo 16 d ++
    leBytes 2 (e.fld F.HRG_EPOCH_EPOCH 0) ++ [0, 0, 0, 0, 0]

/-- Writes the completions that are due, in CMDQ index order (R439). -/
def Eng.cplPump : Nat → Eng → Eng
  | 0, e => e
  | k + 1, e =>
    match e.keys.cmds.find? (fun c => c.idx == e.keys.nextCpl) with
    | none => e
    | some c =>
      match c.res with
      | none => e
      | some (r, d) =>
        let ks := { e.keys with cmds := e.keys.cmds.filter (fun x => x.idx != c.idx),
                                stopped := e.keys.stopped.filter (· != c.idx),
                                nextCpl := (c.idx + 1) % 65536, shown := e.keys.shown ++ [(c.idx, c.entry)] }
        let e := { e with keys := ks }.count 2 0 3 1
        Eng.cplPump k (e.ringPost 1 (e.cplEntry c r d))

/-- Command `idx` has its RESULT and result data; an ABORT that named it and did not stop it reports TOO_LATE (R440, R441). -/
def Eng.cmdFinish (e : Eng) (idx r : Nat) (d : List Byte) : Eng :=
  let upd (c : Cmd) : Cmd :=
    if c.idx = idx then { c with res := some (r, d) }
    else if c.op = 3 ∧ leAt c.entry 4 2 = idx ∧ c.outcome = some 11 ∧ r ≠ 11 then { c with outcome := some 12 }
    else c
  Eng.cplPump 64 { e with keys := { e.keys with cmds := e.keys.cmds.map upd } }

/-- The mailbox is empty again (R442). -/
def Eng.clearMailbox (e : Eng) : Eng :=
  ({ e with keys := { e.keys with taken := false } }.setReg .KEY_CSTAT 0 0).setReg .KEY_CIDX 0 0

/-- Commands of the Keeper that have not completed end with CUT_OFF (R441, R491); `all` also those that read host data. -/
def Eng.cutOff (e : Eng) (all : Bool) : Eng :=
  foldS (fun (c : Cmd) e =>
    if opKeeper c.op ∧ c.res.isNone ∧ c.stage ≠ .testing ∧ (all ∨ c.stage = .posted) then
      (e.cmdFinish c.idx 15 []).clearMailbox
    else e) e.keys.cmds e

/-! ### Engine states -/

/-- JX_STATE: 0 RESET, 1 SETUP, 2 LOADING, 3 RUN, 4 FAULTED, 5 MAINTENANCE (R490). -/
def Eng.engState (e : Eng) : Nat := e.fld F.JX_STATE_STATE 0

/-! ### Locks and weights -/

/-- The effective weight of a thread: its own weight or the one it borrows (R258). -/
def Eng.effW (e : Eng) (t : Nat) : Nat := max (e.fld F.THR_WEIGHT_W t) (e.getThr t).borrow

/-- The waiters of the lock at a canonical address, in join order (R346). -/
def Eng.waitersOf (e : Eng) (a : Nat) : List Nat := (e.waiters.filter (fun w => w.2 == a)).map (·.1)

/-- WAITMAX of a lock (R348). -/
def Eng.waitMax (e : Eng) (a : Nat) : Nat := ((e.waitersOf a).map e.effW).foldl max 0

/-- The waiter that the next grant chooses: highest weight, then earliest join (R347). -/
def Eng.firstWaiter (e : Eng) (a : Nat) : Option Nat :=
  (e.waitersOf a).find? (fun t => e.effW t == e.waitMax a)

/-- The slot that records a lock (thread·4 + slot), if any (R342). -/
def Eng.lockSlot (e : Eng) (a : Nat) : Option (Nat × LockSlot) := e.locks.find? (fun s => s.2.addr == a)

/-- The lowest EMPTY slot of a thread (R342). -/
def Eng.emptySlot (e : Eng) (t : Nat) : Option Nat := [4*t, 4*t+1, 4*t+2, 4*t+3].find? (fun k => !Tab.has e.locks k)

/-- A lock word as any initiator reads it: bits [19:8] are the lock unit's while a slot records it (R345). -/
def Eng.lockView (e : Eng) (a : Nat) (w : Nat) : Nat :=
  match e.lockSlot a with
  | none => w
  | some (k, s) =>
    if s.freed then (1 <<< 18) + w % 256
    else (1 <<< 19) + (b2n s.abandoned <<< 18) + ((k / 4) <<< 12) + (e.waitMax a <<< 8) + w % 256

/-- An access to a word brings it up to date; a FREED slot empties (R345). -/
def Eng.lockSettle (e : Eng) (a : Nat) : Eng :=
  match e.lockSlot a with
  | some (k, s) => if s.freed then { e with locks := Tab.del e.locks k } else e
  | none => e

/-- The lock goes to waiter `t`: it leaves the waiters, its reserved slot records the lock, and its wait ends one cycle
later in the pavilion of thread `frm`, two in another (R309, R344, R349). -/
def Eng.grantTo (e : Eng) (a t frm : Nat) (abandoned : Bool) : Eng :=
  match e.emptySlot t with
  | none => e
  | some k =>
    let x := e.getThr t
    let at' := e.now + (if pavOf t = pavOf frm then 1 else 2)
    let e1 := { e with waiters := e.waiters.filter (fun p => p.1 != t)
                       locks := Tab.put e.locks k ⟨false, a, abandoned⟩ }
    let w := match x.wait with
      | .lock r a' _ => Wait.lock r a' (some (at', abandoned, e1.waitMax a))
      | w => w
    e1.setThr t { x with wait := w }

/-- A HELD lock of slot `k` is handed over or freed with ABANDONED (R349, R350). True where it was handed over. -/
def Eng.abandonLock (e : Eng) (k : Nat) (s : LockSlot) (frm : Nat) : Bool × Eng :=
  let e1 := e.bump F.LCK_CNT_ABANDONS 0 1
  match e1.firstWaiter s.addr with
  | some t => (true, { e1 with locks := Tab.del e1.locks k }.grantTo s.addr t frm true)
  | none => (false, { e1 with locks := Tab.put e1.locks k ⟨true, s.addr, true⟩ })

/-- A thread leaves the waiters without a grant (R347). -/
def Eng.leaveWaiters (e : Eng) (t : Nat) : Eng := { e with waiters := e.waiters.filter (fun p => p.1 != t) }

/-- The borrowed weights of the next cycle: the highest WAITMAX of the locks that a thread holds (R258, R348). -/
def Eng.stepBorrow (e : Eng) : Eng :=
  { e with thr := e.thr.map (fun tx => (tx.1,
      { tx.2 with borrow := ((e.locks.filter (fun s => s.1 / 4 == tx.1 && !s.2.freed)).map
          (fun s => e.waitMax s.2.addr)).foldl max 0 })) }

/-! ### States of a thread -/

def TState.code : TState → Nat
  | .held => 0
  | .run => 1
  | .wait => 2
  | .faulted => 3
  | .halted => 4

def Wait.code : Wait → Nat
  | .none => 0
  | .wtk => 1
  | .wev _ _ => 2
  | .lock _ _ _ => 3
  | .crecv _ _ => 4
  | .csend _ _ _ => 5
  | .atTime => 6

/-- The state a thread is in, or was in before the Hide halted it. -/
def Thr.under (x : Thr) : TState := if x.st = .halted then x.prev else x.st

/-- Sets the state, or PREV of a HALTED thread (R508). -/
def Thr.setUnder (x : Thr) (s : TState) : Thr := if x.st = .halted then { x with prev := s } else { x with st := s }

/-- A waiting instruction is abandoned with no effect; PC points to it (R247). A granted lock wait is no wait (R309). -/
def Eng.abandonWait (e : Eng) (t : Nat) : Eng :=
  let x := e.getThr t
  (e.leaveWaiters t).setThr t { x with wait := .none, atDone := false, atHit := none, atSlept := false }

/-- Is the thread's LKW an instruction in flight, granted and not yet ended (R309)? -/
def Thr.granted (x : Thr) : Bool :=
  match x.wait with
  | .lock _ _ (some _) => true
  | _ => false

/-- Is an instruction of the thread in the pipeline in cycle `now`: issued less than 8 cycles ago (R234; 18_power.md R468, R472)? -/
def Thr.inPipe (x : Thr) (now : Nat) : Bool := x.mem.isSome || (x.issued != 0 && decide (now < x.issued + 7))

/-- Has the thread an instruction in flight: an access held or outstanding, or a granted LKW (R247, R309)? -/
def Thr.inFlight (x : Thr) : Bool := x.mem.isSome || x.granted

/-- The Hide's level is FULL (R500). -/
def Eng.hideFull (e : Eng) : Bool := e.fld F.HIDE_AUTH_LEVEL 0 == 2

/-- Is some thread HALTED? -/
def Eng.anyHalted (e : Eng) : Bool := e.thr.any (fun x => decide (x.2.st = .halted))

/-- The thread becomes HALTED (R507): PREV, HIDE_HCAUSE and the HALT packet. -/
def Eng.becomeHalted (e : Eng) (t cause comp : Nat) (deferred : Bool) : Eng :=
  let x := e.getThr t
  let e := e.setThr t { x with st := .halted, prev := x.st, haltReq := none, step := false, entered := false }
  let e := e.setReg .HIDE_HCAUSE t (word (b2n deferred * 128 + cause * 16 + comp))
  e.trace (5 * 1024 + t) (0xA0 + cause) ([BitVec.ofNat 8 t] ++ leBytes 3 x.pc.toNat)

/-- Did an event of higher precedence reach the thread in this cycle (R246)? Ranks: 5 reset, 4 fault, 3 halt, 2 HOLD, 1 RELEASE, 0 the
end of a wait and an interrupt. -/
def Eng.outranked (e : Eng) (t rank : Nat) : Bool :=
  let m := (e.getThr t).mark
  decide (m.1 = e.now + 1) && decide (rank < m.2)

/-- An event reaches the thread in this cycle (R246). -/
def Eng.markThr (e : Eng) (t rank : Nat) : Eng :=
  if e.outranked t rank then e else let x := e.getThr t; e.setThr t { x with mark := (e.now + 1, rank) }

/-- A HOLD that reached the thread in the same cycle as a halt has no effect (R246): the wait that it ended goes on. -/
def Eng.unhold (e : Eng) (t : Nat) : Eng :=
  let x := e.getThr t
  if x.mark ≠ (e.now + 1, 2) then e
  else
    match x.held with
    | none => e.setThr t { x with holdReq := false }
    | some (st, w, n) =>
      let e1 := e.setThr t { x.setUnder st with wait := w, held := none }
      match w with
      | .lock _ a none => { e1 with waiters := e1.waiters.take n ++ [(t, a)] ++ e1.waiters.drop n }
      | _ => e1

/-- A halt reaches a thread (R507, R510): at once, or once its instruction in flight or its locked sequence ends. -/
def Eng.haltThr (e : Eng) (t cause comp : Nat) : Eng :=
  if (e.getThr t).st = .halted ∨ t = 0 ∨ e.outranked t 3 then e
  else
    let e := (e.unhold t).markThr t 3
    let x := e.getThr t
    if x.mem.isSome ∨ x.seq.isSome then e.setThr t { x with haltReq := some (cause, comp, x.seq.isSome) }
    else e.becomeHalted t cause comp false

/-- The threads of a pavilion. -/
def pavThreads (p : Nat) : List Nat := (List.range 21).map (fun i => 21 * p + 1 + i)

/-- The threads of the engine. -/
def allThreads : List Nat := (List.range 63).map (· + 1)

/-- The halts of a match's action (R515): the matching thread's in this cycle, those of the other threads of its pavilion in the next,
those of the other pavilions in the one after. -/
def Eng.haltAct (e : Eng) (t act cause comp : Nat) : Eng :=
  if act = 0 then e
  else
    let others := if act = 2 then pavThreads (pavOf t) else if act = 3 then allThreads else []
    let later := (others.filter (· != t)).map (fun u => (e.now + (if pavOf u = pavOf t then 1 else 2), u, if act = 2 then 4 else 5, comp))
    { e with hide := { e.hide with halts := e.hide.halts ++ later } }.haltThr t cause comp

/-- The halts that reach their threads in this cycle. -/
def Eng.haltsDue (e : Eng) : Eng :=
  foldS (fun (h : Nat × Nat × Nat × Nat) e => e.haltThr h.2.1 h.2.2.1 h.2.2.2) (e.hide.halts.filter (fun h => decide (h.1 ≤ e.now)))
    { e with hide := { e.hide with halts := e.hide.halts.filter (fun h => decide (e.now < h.1)) } }

/-- The index of comparator `n` of kind `kind` (0 break, 1 watch) of pavilion `p`. -/
def compIdx (p kind n : Nat) : Nat := 16 * p + 8 * kind + n

/-- Does a comparator admit thread `t`? -/
def Eng.compTid (e : Eng) (i t : Nat) : Bool :=
  e.fld F.HIDE_CTID_TLO i == 0 ||
    (decide (e.fld F.HIDE_CTID_TLO i ≤ t) && decide (t ≤ e.fld F.HIDE_CTID_THI i))

/-- The matches of one issue or access over the comparators `n` of one kind of thread `t`'s pavilion: `hit i` says which
match, with the packet after the thread byte. Answers the action that a match asks for (act, comparator), if any
(R512 to R515). -/
def Eng.compMatch (e : Eng) (t kind : Nat) (hit : Nat → Option (List Byte)) : Option (Nat × Nat) × Eng :=
  let p := pavOf t
  [0, 1, 2, 3, 4, 5, 6, 7].foldl (fun (ae : Option (Nat × Nat) × Eng) n =>
    let (a, e) := ae
    let i := compIdx p kind n
    match hit i with
    | none => (a, e)
    | some pkt =>
      let e := e.post F.HIDE_CSTAT_HIT i
      let b0 := (if kind = 0 then 0x60 else 0x80) + p * 8 + n
      let e := if e.flag F.HIDE_CCFG_TRC i then e.trace ((3 + kind) * 1024 + p * 8 + n) b0 ([BitVec.ofNat 8 t] ++ pkt) else e
      let lead := i - n % 2
      let link := e.fld F.HIDE_CCFG_LINK lead
      if link = 0 then
        let act := e.fld F.HIDE_CCFG_ACT i
        (if act = 0 ∨ !e.hideFull ∨ a.isSome then a else some (act, kind * 8 + n), e)
      else if n % 2 = 0 then
        (a, { e with hide := { e.hide with linkA := Tab.put e.hide.linkA i (e.now + 1, t) } }.setFld
          F.HIDE_CSTAT_ARMED (i + 1) (if link = 1 then 1 else e.fld F.HIDE_CSTAT_ARMED (i + 1)))
      else
        let la := Tab.get (0, 0) e.hide.linkA lead
        let acts := if link = 1 then e.flag F.HIDE_CSTAT_ARMED i && decide (la.1 < e.now + 1)
          else decide (la = (e.now + 1, t))
        if !acts then (a, e)
        else
          let e := e.setFld F.HIDE_CSTAT_ARMED i 0
          let act := e.fld F.HIDE_CCFG_ACT i
          (if act = 0 ∨ !e.hideFull ∨ a.isSome then a else some (act, kind * 8 + n), e)) (none, e)

/-- Break comparators at an issue point (R512). -/
def Eng.breakMatch (e : Eng) (t pc : Nat) : Option (Nat × Nat) × Eng :=
  e.compMatch t 0 (fun i => if e.flag F.HIDE_CCFG_EN i && decide (e.val .HIDE_CLO i ≤ pc) &&
    decide (pc ≤ e.val .HIDE_CHI i) && e.compTid i t then some (leBytes 3 pc) else none)

/-- Watch comparators at an access (R513): `vals` the words that it reads (false) and writes (true), with their addresses and values. The packet
carries the first word that matches (DESIGN CHOICE, log 66). -/
def Eng.watchMatch (e : Eng) (t : Nat) (vals : List (Bool × Nat × Nat)) : Option (Nat × Nat) × Eng :=
  let inR (i : Nat) (av : Bool × Nat × Nat) : Bool :=
    bit (e.fld F.HIDE_CCFG_WKIND i) (b2n av.1) && decide (e.val .HIDE_CLO i ≤ av.2.1) && decide (av.2.1 ≤ e.val .HIDE_CHI i) &&
      (!e.flag F.HIDE_CCFG_VEN i ||
        (av.2.2 &&& e.val .HIDE_CVMASK i) == (e.val .HIDE_CVAL i &&& e.val .HIDE_CVMASK i))
  e.compMatch t 1 (fun i => if e.flag F.HIDE_CCFG_EN i && e.compTid i t then
      (vals.find? (inR i)).map (fun v => leBytes 3 v.2.1 ++ leBytes 3 v.2.2 ++ [BitVec.ofNat 8 (b2n v.1)]) else none)

end Sys2Proof.Machine
end

