-- ==== Sys2Proof/Machine/Fabric.lean ====
section
/-! DEFINITION. The memory map and fabric (12_memory_fabric.md R318 to R330): regions, banks, reads and writes of each
memory, ECC. -/

namespace Sys2Proof.Machine

/-! ### Regions -/

/-- A region of the data space (R320); `data` carries the canonical address of the word (R341). -/
inductive Region where
  | data (canon : Nat) (shared : Bool)
  | aperture (canon : Nat)
  | basin (w : Nat)
  | dev (a : Nat)
  | host (w : Nat)
  | none
  deriving DecidableEq, Repr

/-- The region of a data address for a thread of pavilion `p` (R320). -/
def regionOf (p a : Nat) : Region :=
  if a < 0x10000 then .data ((p + 1) * 0x10000 + a) false
  else if a < 0x40000 then .data a false
  else if a < 0x60000 then .data a true
  else if a < 0x80000 then .aperture (a - 0x20000)
  else if a < 0x90000 then .basin (a - 0x80000)
  else if a < 0xC0000 then .none
  else if a < 0xF0000 then .dev a
  else .host (a - 0xF0000)

/-- The row of the data map that an address lies in, for the rule that a PAIR stays in one region (R278). -/
def regionRow (a : Nat) : Nat :=
  if a < 0x40000 then a / 0x10000
  else if a < 0x60000 then 4
  else if a < 0x80000 then 6
  else if a < 0x90000 then 8
  else if a < 0xC0000 then 9
  else if a < 0xF0000 then 12
  else 15

/-- The bank of a data word: 4·p + address [15:14] of PAVp, 12 + address [16:14] of shared data (R320). -/
def bankOf (canon : Nat) : Nat :=
  if canon < 0x40000 then (canon / 0x10000 - 1) * 4 + (canon % 0x10000) / 0x4000
  else 12 + (canon - 0x40000) / 0x4000

/-- The thread whose open locked sequence blocks a bank (R330): it has made an access there. -/
def Eng.blocker (e : Eng) (bank : Nat) : Option Nat :=
  (e.thr.find? (fun x => match x.2.seq with
    | some (b, n) => b == bank && decide (0 < n)
    | none => false)).map (·.1)

/-- The banks that locked sequences block, with their threads (R330). -/
def Eng.blocked (e : Eng) : List (Nat × Nat) :=
  e.thr.filterMap (fun x => match x.2.seq with
    | some (b, n) => if 0 < n then some (b, x.1) else none
    | none => none)

/-- Does a locked sequence of another thread keep thread t from a bank: it is open, or it closed in this cycle (R330)? -/
def Eng.bankHeld (e : Eng) (t bank : Nat) : Bool :=
  (match e.blocker bank with
    | some u => u != t
    | none => false) || e.recent.banks.any (fun x => x.1 == bank && x.2 != t)

/-- The latency Ld of a region for a thread of pavilion `p` (11_isa_reference.md R291). -/
def Region.ld (rg : Region) (p : Nat) : Nat :=
  match rg with
  | .data canon shared => if shared then 8 else if canon / 0x10000 = p + 1 then 0 else 9
  | .aperture _ => 8
  | .basin _ => 12
  | .dev _ => 6
  | _ => 0

/-- The words that an access of `n` words reaches, as the order of R329 takes them: data words by canonical address, Basin half words, device
registers. -/
def Region.words (rg : Region) (n : Nat) (basin : Nat → Nat) : List Nat :=
  match rg with
  | .data canon _ => (List.range n).map (canon + ·)
  | .aperture canon => [canon]
  | .basin w => (List.range n).map (fun i => 2 ^ 20 + basin (w + i))
  | .dev a => [2 ^ 24 + a]
  | _ => []

/-- The place of an access through window `w` among those of its cycle (R292, R329): at local data the lanes of the owning pavilion, then the
global-view path in window order; elsewhere window order. -/
def Region.place (rg : Region) (w : Nat) : Nat :=
  match rg with
  | .data canon false => if w / 4 + 1 = canon / 0x10000 then w else 16 + w
  | _ => w

/-- Has an access that the order of R329 puts behind this one been made in this cycle, to one of these words, with a write among the two? -/
def Eng.placePassed (e : Eng) (ws : List Nat) (place : Nat) (wr : Bool) : Bool :=
  ws.any (fun k => let (r, w) := Tab.get (0, 0) e.recent.acc k; decide (place + 1 < w) || (wr && decide (place + 1 < r)))

/-- An access is made in this cycle. -/
def Eng.placeNote (e : Eng) (ws : List Nat) (place : Nat) (rd wr : Bool) : Eng :=
  { e with recent := { e.recent with acc := ws.foldl (fun a k =>
      let (r, w) := Tab.get (0, 0) a k
      Tab.put a k (if rd then max r (place + 1) else r, if wr then max w (place + 1) else w)) e.recent.acc } }

/-! ### ECC -/

/-- The JX_ECCSRC code and index of a data word (R340). -/
def eccData (canon : Nat) : Nat :=
  if canon < 0x40000 then (canon / 0x10000 - 1) * 2 ^ 20 + canon % 0x10000 else 3 * 2 ^ 20 + (canon - 0x40000)

/-- The code word of a code byte key. -/
def eccCode (k : Nat) : Nat :=
  if k < 0x80000 then (4 + k / 0x20000) * 2 ^ 20 + (k % 0x20000) / 2 else 7 * 2 ^ 20 + (k - 0x80000) / 2

/-- A read of an SRAM word: true for a double-bit error, which is recorded; a single-bit error is counted, in the Basin in ECC_CORR too (R325,
R340; 07_basin_switching.md R164). -/
def Eng.eccRead (e : Eng) (k : Nat) : Bool × Eng :=
  if !Tab.has e.ecc k then (false, e)
  else if Tab.get false e.ecc k = false then (false, if k / 2 ^ 20 = 8 then (e.bump F.JX_ECCCNT_CORR 0 1).count 1 0 11 1 else e.bump F.JX_ECCCNT_CORR 0 1)
  else
    let e := e.bump F.JX_ECCCNT_UNCORR 0 1
    let e := (e.setFld F.JX_ECCSRC_MEM 0 (k / 2 ^ 20)).post F.JX_ECCSRC_VALID 0
    let e := e.setReg .JX_ECCADDR 0 (word (k % 2 ^ 20))
    let e := e.produce 9 domEngine
    (true, if e.flag F.JX_CFG_ECCEVQ 0 then e.evq 5 0 ([BitVec.ofNat 8 (k / 2 ^ 20)] ++ leBytes 3 (k % 2 ^ 20)) else e)

/-- A write stores new check bits. -/
def Eng.eccClear (e : Eng) (k : Nat) : Eng := if Tab.has e.ecc k then { e with ecc := Tab.del e.ecc k } else e

/-! ### Data words -/

/-- A data word as any initiator reads it (R345). -/
def Block.dataWord (b : Block) (canon : Nat) : Nat := b.eng.lockView canon (Tab.get 0 b.mem.data canon).toNat

/-- The memory after data word `canon` is set. -/
def Mem.setData (m : Mem) (canon v : Nat) : Mem := { m with data := Tab.write 0 m.data canon (BitVec.ofNat 20 v) }

/-- A write: bits [19:8] keep the lock unit's values while a slot records the word; a FREED slot empties (R345). -/
def Block.setWord (b : Block) (canon v : Nat) : Block :=
  let new := if (b.eng.lockSlot canon).isSome then b.dataWord canon / 256 * 256 + v % 256 else v
  ⟨b.mem.setData canon new, (b.eng.lockSettle canon).eccClear (eccData canon)⟩

/-- A read brings a lock word up to date in memory (R345). -/
def Block.touchWord (b : Block) (canon : Nat) : Block :=
  if (b.eng.lockSlot canon).isSome then ⟨b.mem.setData canon (b.dataWord canon), (b.eng.lockSettle canon).eccClear (eccData canon)⟩ else b

/-! ### Basin bytes -/

/-- Byte `i` of cell `c`, i from 0 (R160). -/
def Mem.cellByte (m : Mem) (c i : Nat) : Byte := Tab.get 0 m.basin (c * 128 + i)

def Mem.setBasin (m : Mem) (k : Nat) (v : Byte) : Mem := { m with basin := Tab.write 0 m.basin k v }

/-- Writes a list of bytes at consecutive Basin addresses. -/
def Mem.setBasinBytes (m : Mem) (k : Nat) : List Byte → Mem
  | [] => m
  | v :: t => (m.setBasin k v).setBasinBytes (k + 1) t

/-! ### Code bytes -/

/-- The latency Lf of a next instruction at `pc` (09_barrels_threads.md R234, R318). -/
def lfOf (pc : Nat) : Nat := if pc < 0x20000 then 0 else if 0x80000 ≤ pc ∧ pc < 0xC0000 ∨ 0xFC000 ≤ pc then 4 else 0

/-- The key of a code byte for a fetch by pavilion `p`: local code, shared code; none for the boot ROM or no region. -/
def codeKey (p a : Nat) : Option Nat :=
  if a < 0x20000 then some (p * 0x20000 + a)
  else if 0x80000 ≤ a ∧ a < 0xC0000 then some a
  else none

/-- The code region of a byte address: 1 local, 2 shared, 3 boot ROM, 0 none (R318). -/
def codeRegion (a : Nat) : Nat :=
  if a < 0x20000 then 1
  else if 0x80000 ≤ a ∧ a < 0xC0000 then 2
  else if 0xFC000 ≤ a ∧ a < 0x100000 then 3
  else 0

/-- A code byte (R318). -/
def Mem.codeByte (m : Mem) (p a : Nat) : Byte :=
  match codeKey p a with
  | some k => Tab.get 0 m.code k
  | none => if codeRegion a = 3 then Config.bootRom (a - 0xFC000) else 0

def Mem.setCode (m : Mem) (k : Nat) (v : Byte) : Mem := { m with code := Tab.write 0 m.code k v }

/-- Writes a list of code bytes at consecutive keys. -/
def Mem.setCodeBytes (m : Mem) (k : Nat) : List Byte → Mem
  | [] => m
  | v :: t => (m.setCode k v).setCodeBytes (k + 1) t

/-! ### Ledger words -/

def Mem.ledgerWord (m : Mem) (i : Nat) : Nat := (Tab.get 0 m.ledger i).toNat

def Mem.setLedger (m : Mem) (i v : Nat) : Mem := { m with ledger := Tab.write 0 m.ledger i (BitVec.ofNat 32 v) }

/-- Writes Ledger words at consecutive indices. -/
def Mem.setLedgerWords (m : Mem) (i : Nat) : List Nat → Mem
  | [] => m
  | v :: t => (m.setLedger i v).setLedgerWords (i + 1) t

/-- The canonical form of every memory. -/
def Mem.wf (m : Mem) : Bool :=
  Tab.wf 0 m.basin && Tab.wf 0 m.data && Tab.wf 0 m.code && Tab.wf 0 m.ledger

end Sys2Proof.Machine
end

