-- ==== Sys2Proof/Machine/ThreadCtl.lean ====
section
/-! DEFINITION. Control of threads by masters (09_barrels_threads.md R245 to R250), conduits (13 R353 to R357), forced
lock release (R350), still water (09 R259 to R262). -/

namespace Sys2Proof.Machine

/-! ### Thread registers -/

def Thr.greg (x : Thr) (i : Nat) : Nat := (Tab.get 0 x.g i).toNat
def Thr.setGreg (x : Thr) (i v : Nat) : Thr := { x with g := Tab.put x.g i (word v) }

/-- The register of a context by its number: G0 to G15, PC, FLAGS, IPC, IFLAGS (R249). -/
def Thr.ctx (x : Thr) (i : Nat) : Nat :=
  if i < 16 then x.greg i
  else if i = 16 then x.pc.toNat
  else if i = 17 then x.flags.toNat
  else if i = 18 then x.ipc.toNat
  else x.iflags.toNat

def Thr.setCtx (x : Thr) (i v : Nat) : Thr :=
  if i < 16 then x.setGreg i v
  else if i = 16 then { x with pc := word v }
  else if i = 17 then { x with flags := word (v % 32) }
  else if i = 18 then { x with ipc := word v }
  else { x with iflags := word (v % 32) }

/-- Is the value legal for the register of a context: FLAGS has reserved bits [19:5] (R250, R267)? In IFLAGS they stay 0. -/
def ctxLegal (i v : Nat) : Bool := i != 17 || decide (v < 32)

/-! ### HOLD, RELEASE, RESET -/

/-- The fault record ends when the thread leaves FAULTED (R256, R265). -/
def Eng.clearFault (e : Eng) (t : Nat) : Eng :=
  ((e.setReg .THR_FCAUSE t 0).setReg .THR_FPC t 0).setReg .THR_FADDR t 0

/-- A HOLD reaches the barrel (R247, R508). -/
def Eng.holdThr (e : Eng) (t : Nat) : Eng :=
  if e.outranked t 2 then e
  else
    let e := e.markThr t 2
    let x := { e.getThr t with held := none }
    match x.under with
    | .held => e
    | .faulted => (e.clearFault t).setThr t (x.setUnder .held)
    | st =>
      if x.inFlight ∨ x.seq.isSome then e.setThr t { x with holdReq := true }
      else
        let n := e.waiters.findIdx (fun w => w.1 == t)
        let e1 := e.abandonWait t
        e1.setThr t { (e1.getThr t).setUnder .held with held := some (st, x.wait, n) }

/-- A RELEASE (R245, R246, R508). -/
def Eng.releaseThr (e : Eng) (t : Nat) : Eng :=
  if e.outranked t 1 then e
  else
    let x := e.getThr t
    let free := { x.setUnder .run with relCyc := e.now + 1, mark := (e.now + 1, 1), ready := e.now + 2 }
    match x.under with
    | .held => e.setThr t free
    | .faulted => (e.clearFault t).setThr t free
    | _ => e

/-- A conduit's visible buffers in use in this cycle (R354). -/
def Eng.cndUsed (e : Eng) (c : Nat) : Nat :=
  let x := e.getCnd c
  x.closed.length + b2n x.opened.isSome + (x.freeing.filter (fun k => decide (e.now < k))).length

/-- The open message is discarded; its buffer is free from the next cycle (R354). -/
def Eng.dropOpen (e : Eng) (c : Nat) : Eng :=
  let x := e.getCnd c
  e.setCnd c { x with opened := none, freeing := (x.freeing.filter (fun k => decide (e.now < k))) ++ [e.now + 1] }

/-- The conduits at a thread reset (R357). -/
def Eng.cndReset (e : Eng) (t : Nat) : Eng :=
  foldS (fun c e =>
    let e :=
      if e.fld F.CND_CFG_WTID c = t ∧ (e.getCnd c).opened.isSome then (e.dropOpen c).bump F.CND_CNT_DISCARDS 0 1 else e
    let x := e.getCnd c
    if e.fld F.CND_CFG_RTID c = t ∧ 0 < x.taken then
      (e.setCnd c { x with closed := x.closed.drop 1, taken := 0, freeing := x.freeing ++ [e.now + 1] }).bump
        F.CND_CNT_DISCARDS 0 1
    else e) (e.cnd.map (·.1)) e

/-- The locks of a reset thread: each handed over or freed with ABANDONED (R349). -/
def Eng.lockReset (e : Eng) (t : Nat) : Eng :=
  foldS (fun k e =>
    match e.locks.find? (fun s => s.1 == k) with
    | some (_, s) => if s.freed then e else (e.abandonLock k s t).2
    | none => e) [4 * t, 4 * t + 1, 4 * t + 2, 4 * t + 3] (e.leaveWaiters t)

/-- The Basin cells that a reset thread holds are left to the Warden (R248; 07_basin_switching.md R193), and the responses to its
host-window transactions are discarded (R248). -/
def Eng.dropThread (e : Eng) (t : Nat) : Eng :=
  { e with
    cells := e.cells.map (fun c => (c.1, if c.2.owner = .thread t then { c.2 with orphan := true } else c.2))
    sw := { e.sw with allocs := e.sw.allocs.filter (fun a => a.why != .thread t) }
    initq := e.initq.map (fun x => if x.why = .window t then { x with why := .window 0 } else x) }

/-- A thread reset (R248, R11, R349, R357, R508). -/
def Eng.resetThr (e : Eng) (t : Nat) : Eng :=
  let x := e.getThr t
  let e := e.clearFault t
  let e := ((e.lockReset t).cndReset t).dropThread t
  let e := { e with heldBanks := e.heldBanks.filter (· != t), passed := e.passed.filter (· != t) }
  let l := e.getLatch t
  let e := e.setLatch t { l with t80 := [0, 0, 0], count := 0, timer := [0, 0] }
  let e := if (e.hide.feed.map (·.1)) = some t then
      ({ e with hide := { e.hide with feed := none, feedIss := false, feedRes := none } }.setFld F.HIDE_FSTAT_BUSY 0 0).setFld F.HIDE_FSTAT_RESULT 0 3
    else e
  e.setThr t { wtkCyc := x.wtkCyc, borrow := 0, mark := (e.now + 1, 5), issued := x.issued }

/-! ### Conduit registers -/

/-- CND_CTL.ABORT by an accessor (R355). -/
def Eng.cndAbort (e : Eng) (who c : Nat) : Eng :=
  let x := e.getCnd c
  if x.opened.isSome then ((e.dropOpen c).bump F.CND_CNT_ABORTS 0 1).setFld F.CND_ARES_RESULT who 1
  else e.setFld F.CND_ARES_RESULT who (if x.closeCyc = e.now + 1 then 2 else 0)

/-- CND_CTL.FLUSH (R356). -/
def Eng.cndFlush (e : Eng) (c : Nat) : Eng :=
  let x := e.getCnd c
  let n := x.closed.length + b2n x.opened.isSome
  let fr := (x.freeing.filter (fun k => decide (e.now < k))) ++ List.replicate n (e.now + 1)
  (e.setCnd c { x with closed := [], opened := none, taken := 0, freeing := fr }).bump F.CND_CNT_DISCARDS 0 n

/-- Does a thread wait on the conduit (R358)? -/
def Eng.cndWaiting (e : Eng) (c : Nat) (send : Bool) : Bool :=
  e.thr.any (fun x => match x.2.wait with
    | .csend _ d _ => send && d == c
    | .crecv _ d => !send && d == c
    | _ => false)

/-! ### Forced release -/

/-- LCK_FCTL.FORCE on slot `k` (thread·4 + slot) by accessor `who` (R350): 1 FREED, 2 HANDED, 3 NOTHELD. -/
def Eng.lockForce (e : Eng) (who k : Nat) : Eng :=
  match e.locks.find? (fun s => s.1 == k) with
  | some (_, s) =>
    if s.freed then e.setFld F.LCK_FSTAT_RESULT who 3
    else
      let (handed, e1) := e.abandonLock k s (k / 4)
      e1.setFld F.LCK_FSTAT_RESULT who (if handed then 2 else 1)
  | none => e.setFld F.LCK_FSTAT_RESULT who 3

/-- The effect of a write comes after the instruction accesses of its cycle (R350, R355, R356). -/
def Eng.close (e : Eng) (c : Closing) (who k : Nat) : Eng := { e with closing := e.closing ++ [(c, who, k)] }

/-! ### The scrubber (19_reset_recovery.md R495, 12_memory_fabric.md R325) -/

/-- The words of a memory of R340: local and shared data, code stores, shared code, the Basin. The spec gives no size in words for the forwarding
table, the schedule store and the pools (DESIGN CHOICE, log 67: their pass may end after any word). -/
def memWords (mem : Nat) : Option Nat :=
  if mem ≤ 2 then some 0x10000 else if mem = 3 then some 0x20000 else if mem ≤ 6 then some 0x10000
  else if mem = 7 then some 0x20000 else if mem = 8 then some 0x100000 else none

/-- The next word of a memory that the scrubber visits, and the first cycle in which it may. -/
def Eng.scrubAt (e : Eng) (mem : Nat) : Nat × Nat := Tab.get (0, 0) e.sys.scrub mem

/-- Is it the turn of a word: one word of each memory every 64 cycles, one after the other? -/
def Eng.scrubTurn (e : Eng) (mem idx : Nat) : Bool :=
  let (next, first) := e.scrubAt mem
  let n := match memWords mem with
    | some n => n
    | none => 2 ^ 20
  decide (first ≤ e.now) && (decide (idx = next % n) || ((memWords mem).isNone && idx == 0))

/-- Did a lane of a pavilion fetch in this cycle? -/
def Eng.fetched (e : Eng) (p : Nat) : Bool := e.thr.any (fun x => decide (pavOf x.1 = p) && x.2.issued == e.now + 1)

/-- Does a fetch of this cycle keep the scrubber from a code memory? -/
def Eng.scrubBarred (e : Eng) (mem : Nat) : Bool :=
  if 4 ≤ mem ∧ mem ≤ 6 then e.fetched (mem - 4) else mem == 7 && [0, 1, 2].any e.fetched

/-- A word is visited: a single-bit error is rewritten corrected. The last word of the Basin, the largest memory, completes a pass (DESIGN CHOICE,
log 67). -/
def Eng.scrubDo (e : Eng) (mem idx : Nat) : Eng :=
  if e.scrubBarred mem then { e with closing := e.closing ++ [(.scrub, mem, idx)] }
  else
    let k := mem * 2 ^ 20 + idx
    let e := { e with sys := { e.sys with scrub := Tab.put e.sys.scrub mem (idx + 1, e.now + 64) } }
    let (dbl, e) := e.eccRead k
    let e := if dbl then e else e.eccClear k
    if mem = 8 ∧ idx = 0xFFFFF then e.setReg .RST_SCRUBCNT 0 (e.reg .RST_SCRUBCNT 0 + 1) else e

/-- SCRUB_VISIT: a word of a memory is visited after the other accesses of the cycle (R329, R495). -/
def Eng.scrubVisit (e : Eng) (mem idx : Nat) : Eng :=
  let st := e.engState
  if !e.flag F.RST_SCRUB_EN 0 ∨ !(st == 3 || st == 4 || st == 5) ∨ !e.scrubTurn mem idx ∨
      e.closing.any (fun c => c.1 == .scrub && c.2.1 == mem) then e
  else e.close .scrub mem idx

/-- The end of a cycle: forced releases, aborts and flushes written in it, in the order in which they were written, and the scrubber's visits. -/
def Eng.closeEnd (e : Eng) : Eng :=
  foldS (fun (c : Closing × Nat × Nat) e => match c.1 with
    | .force => e.lockForce c.2.1 c.2.2
    | .abort => e.cndAbort c.2.1 c.2.2
    | .flush => e.cndFlush c.2.2
    | .scrub => e.scrubDo c.2.1 c.2.2) e.closing { e with closing := [] }

/-! ### Still water -/

/-- Is an input with this subscription never fired but by software (R260)? -/
def Eng.threadOnly (e : Eng) (en : Bool) (ch : Nat) : Bool := !en || !e.chanSrc ch

/-- Are all waits of a waiting thread thread-only (R260)? A WEV whose masked count is above 0 is ending: the thread does not wait. -/
def Eng.waitThreadOnly (e : Eng) (t : Nat) (x : Thr) : Bool :=
  (match x.wait with
    | .wtk => !e.flag F.TIK_CTL_RUN 0
    | .wev m _ => [0, 1, 2, 3, 4, 5, 6, 7].all (fun i =>
        !(bit m i) || Tab.get 0 x.ev i == 0 && e.threadOnly (e.flag F.THR_EVCFG_EN (8 * t + i)) (e.fld F.THR_EVCFG_CH (8 * t + i)))
    | .lock _ _ g => g.isNone
    | .crecv _ _ => true
    | .csend _ _ _ => true
    | _ => false) &&
  (!(bit x.flags.toNat 4) || e.threadOnly (e.flag F.THR_IRQCFG_EN t) (e.fld F.THR_IRQCFG_CH t))

/-- Still water (R259). -/
def Eng.stillWater (e : Eng) : Bool :=
  e.thr.any (fun x => decide (x.2.st = .run) || decide (x.2.st = .wait)) &&
  e.thr.all (fun x => match x.2.st with
    | .run => false
    | .halted => false
    | .wait => e.waitThreadOnly x.1 x.2
    | _ => true)

/-- Is the force-wake due: a round boundary, after DWELL whole rounds of still water, the Keeper neither HELD nor FAULTED (R261, R262)? -/
def Eng.stillDue (e : Eng) : Bool :=
  let x := e.getThr 1
  let n := e.now - e.clk.roundBase
  match e.swSince with
  | none => false
  | some c => e.flag F.THR_SWCTL_EN 0 && !e.flag F.THR_SWSTAT_PEND 0 && n % 32 == 0 && x.st != .held && x.st != .faulted &&
      decide ((c - e.clk.roundBase + 31) / 32 * 32 + 32 * e.fld F.THR_SWCTL_DWELL 0 ≤ n)

/-- The force-wake (R261, R262). -/
def Eng.stillWake (e : Eng) : Eng :=
  if !e.stillDue then e
  else
    let x := e.getThr 1
    let e1 := (e.setFld F.THR_SWSTAT_PEND 0 1).bump F.THR_SWCNT_COUNT 0 1
    if e.val .THR_SWVEC 0 = 0 then e1
    else
      let e2 := (e1.setReg .THR_SWPC 0 x.pc).abandonWait 1
      e2.setThr 1 { e2.getThr 1 with st := .run, pc := e.reg .THR_SWVEC 0 }

end Sys2Proof.Machine
end

