-- ==== Sys2Proof/Machine/Time.lean ====
section
/-! DEFINITION. Ticks and Sundial (02_time_levels.md R26 to R48; 03_sundial.md R53 to R64). -/

namespace Sys2Proof.Machine

/-- The power state in force: 0 RUN (or GATE), 2 DOZE, 3 NAP, 4 DORMANT (R466). -/
def Eng.power (e : Eng) : Nat := e.pwr.lvl

/-- A wake with its bit of PWR_WSRC (R471, R474): seen in a power state or in an entry, but not while an exit runs. -/
def Eng.wakeBy (e : Eng) (m : Nat) : Eng :=
  if (e.pwr.lvl = 0 ∧ e.pwr.entry.isNone) ∨ e.pwr.exit.isSome then e
  else { e with pwr := { e.pwr with wake := e.pwr.wake ||| m } }

/-- Are the barrels not stopped by a power state (R466, R475)? -/
def Eng.lanesOn (e : Eng) : Bool := decide (e.power ≤ 1)

/-- Do the parts of the pavilions run (R76, R376, R394)? -/
def Eng.awake (e : Eng) : Bool := decide (e.power ≤ 2)

/-! ### Tick settings -/

/-- The launch time of index k (R26). -/
def TickSet.launch (s : TickSet) (k : Nat) : Nat := s.e + k * s.p * 64

/-- The largest index launched at or before a time in ns, or 0 (R27, R45), held to 47 bits (R26). -/
def TickSet.indexAt (s : TickSet) (t : Nat) : Nat := (if t < s.e then 0 else (t - s.e) / (64 * s.p)) % 2 ^ 47

/-- The smallest index launched at or after a Sundial time (R46), held to 47 bits (R26). -/
def TickSet.indexFrom (s : TickSet) (t80 : Nat) : Nat :=
  let t := (t80 + (2 ^ 20 - 1)) / 2 ^ 20
  (if t ≤ s.e then 0 else (t - s.e + 64 * s.p - 1) / (64 * s.p)) % 2 ^ 47

/-- The index after k (R27, R28), held to 47 bits (R26). -/
def tickAfter (k : Nat) : Nat := (k + 1) % 2 ^ 47

/-- Tick in frame and cycle count of an index (R31). -/
def TickSet.pos (s : TickSet) (k : Nat) : Nat × Nat := (k % s.f, (k / s.f) % 2 ^ s.m)

/-- The staged settings (R42, R50). -/
def Eng.stagedTicks (e : Eng) : TickSet :=
  { p := e.val .TIK_PERIOD_LO 0 + e.fld F.TIK_PERIOD_HI_P_HI 0 * 2 ^ 20
    s := e.val .TIK_SLACK 0
    f := e.fld F.TIK_FRAME_F 0
    m := e.fld F.TIK_MATRIX_M 0
    e := e.val .TIK_EPOCH 0 + e.val .TIK_EPOCH 1 * 2 ^ 20 + e.val .TIK_EPOCH 2 * 2 ^ 40 }

/-- The budget of a thread, in units of 16 issues (R35). -/
def Eng.budget (e : Eng) (t : Nat) : Nat := e.val .TIK_BUDGET t

/-- The entries of a slot table that name a thread (R36). -/
def entriesOf (tab : Tab Nat) (t : Nat) : Nat := (tab.filter (fun x => x.2 == t)).length

/-- Does a table supply the budget of thread `t` under the settings (R36)? -/
def Eng.budgetMet (e : Eng) (tab : Tab Nat) (s : TickSet) (t : Nat) : Bool :=
  decide (16 * e.budget t ≤ entriesOf tab t * (s.p - s.s))

/-- The budget check of a tick apply, against the tables in force and pending (R36, R43, R241). -/
def Eng.budgetsMet (e : Eng) (s : TickSet) : Bool :=
  allThreads.all (fun t => e.budget t == 0 ||
    (e.budgetMet (e.getBrl (pavOf t)).force s t &&
      (match (e.getBrl (pavOf t)).pend with
        | some (tab, _) => e.budgetMet tab s t
        | none => true)))

def Eng.running (e : Eng) : Bool := e.flag F.TIK_STAT_RUNNING 0

/-- TIK_CTL.APPLY with its WHEN (R42, R43): 0 passed; 2 RANGE; 5 TIMING_CONTRACT. -/
def Eng.tickApply (e : Eng) (when_ : Bool) : Nat × Eng :=
  let s := e.stagedTicks
  let fail (c : Nat) : Nat × Eng := (c, e.post F.TIK_STAT_APPLY_ERR 0)
  if s.p < 128 ∨ 1562500 < s.p ∨ s.p / 16 < s.s then fail 2
  else if !e.budgetsMet s then fail 5
  else
    (0, { e with tick := { e.tick with pend := some (s, when_), takeNext := !e.flag F.TIK_CTL_RUN 0 } }.setFld F.TIK_STAT_PENDING 0 1)

/-- TIK_CTL.RUN set while it is 0: the sequencer is armed, from the Sundial time of the write (R46). -/
def Eng.tickArm (e : Eng) : Eng :=
  let e := e.setFld F.TIK_CTL_RUN 0 1
  { e with tick := { e.tick with armed := some e.t80 } }

/-! ### Launches -/

/-- What a launch decides: the new index, whether it is a realign, and the indices missed (R27, R28, R30, R46); the settings
under which it was decided (R45). -/
structure LaunchPlan where
  k : Nat
  realign : Bool
  missed : Nat
  first : Bool
  set : TickSet
  deriving DecidableEq, Repr

/-- The decision for the first launch after RUN was set, at T80 `t` (R46): in free mode Sundial at the boundary places it, else
Sundial in a decision cycle after the write. -/
def Eng.firstPlan (e : Eng) (d : Decision) (t : Nat) : Option LaunchPlan :=
  let s := e.tick.set
  let j := s.indexFrom t
  let due : Bool := if s.s = 0 then decide (s.launch j ≤ e.ns) else decide (d.armed = some t) && decide (s.launch j ≤ d.now + 16)
  if due then some ⟨j, false, 0, true, s⟩ else none

/-- The decision for a later launch, under the settings of the decision cycle (R27, R28, R48). Rounds count in every cycle of the
model, in NAP and DORMANT too, and free mode goes on with k + 1 after them (DESIGN CHOICE, log 65). -/
def Eng.nextPlan (e : Eng) (d : Decision) : Option LaunchPlan :=
  let s := d.set
  let r := e.roundsSince e.tick.base
  let k := e.tick.k
  if s.s = 0 then (if s.p ≤ r then some ⟨tickAfter k, false, 0, false, s⟩ else none)
  else if r < s.p - s.s then none
  else if s.launch (k + 1) ≤ d.now + 16 then
    let j := s.indexAt (d.now + 16)
    some ⟨j, false, j - (k + 1), false, s⟩
  else if s.p + s.s ≤ r then
    (if s.launch k ≤ d.now + 16 then some ⟨tickAfter k, false, 0, false, s⟩
     else some ⟨s.indexAt (d.now + 16), true, 0, false, s⟩)
  else none

/-- The decision for the round boundary of this cycle, from its decision cycle's record (R27, R28, R46, R48). -/
def Eng.launchPlan (e : Eng) : Option LaunchPlan :=
  match e.tick.dec with
  | none => none
  | some d =>
    if d.boundary ≠ e.now ∨ !e.awake then none
    else if e.running then (if d.run then e.nextPlan d else none)
    else e.tick.armed.bind (fun t => e.firstPlan d t)

/-- Threads waiting in WTK since before this cycle are released (R33, R34, R303, R508), but for one that the Hide halts in the boundary
cycle (R246). -/
def Eng.releaseWtk (e : Eng) : Eng :=
  { e with thr := e.thr.map (fun tx =>
      if tx.2.wait = .wtk ∧ tx.2.wtkCyc ≤ e.now ∧ tx.2.mark ≠ (e.now + 1, 3) then
        (tx.1, { tx.2.setUnder .run with wait := .none, pc := word tx.2.waitNext, ready := 0 })
      else tx) }

/-- Is thread `t` checked at this launch, and did it overrun (R37, R38)? -/
def Eng.overran (e : Eng) (t : Nat) : Bool :=
  let x := e.getThr t
  decide (e.budget t ≠ 0) && decide (x.relCyc ≠ 0) && decide (x.relCyc ≤ e.tick.base) &&
    (match x.st with
      | .run => true
      | .wait => true
      | _ => false) &&
    !(decide (e.tick.base < x.wtkCyc) && decide (x.wtkCyc ≤ e.now))

/-- The overruns found at a launch (R39). `count` is TIK_COUNT of the launch. -/
def Eng.recordOverruns (e : Eng) (ovs : List Nat) (count : Nat) : Eng :=
  match ovs with
  | [] => e
  | t0 :: _ =>
    let e := if e.flag F.TIK_STAT_OVR 0 then e
      else (e.setFld F.TIK_OVR_FIRST_TICK 0 (count % 2 ^ 14)).setFld F.TIK_OVR_FIRST_TID 0 t0
    let e := foldS (fun t e => e.postBits .TIK_OVR (t / 20) (1 <<< (t % 20))) ovs e
    let e := (e.post F.TIK_STAT_OVR 0).bumpReg .TIK_OVR_CNT 0 ovs.length
    let e := e.produce 3 domEngine
    e.evq 1 t0 (leBytes 2 (count % 2 ^ 14) ++ leBytes 8 (ovs.foldl (fun m t => m + 2 ^ t) 0))

/-- TALLY ports added to since the last launch emit their tally (R520, R522). -/
def Eng.emitTallies (e : Eng) : Eng :=
  let e1 := foldS (fun p e =>
    if (e.hide.touched.contains p) ∧ e.fld F.HIDE_SPCFG_MODE p = 1 then
      e.trace (1024 + p) (0x40 + p) (leBytes 3 (Tab.get 0 e.hide.tally p) ++ [0x40])
    else e) (List.range 32) e
  { e1 with hide := { e1.hide with touched := [] } }

/-- The boundary cycle of a launch but for the parts of other units (R29 to R33, R37 to R39, R45). Answers whether it is
a matrix boundary and whether new settings came into force. The model's choices (log 65, 66): the first launch after RUN was set checks
no thread and writes TIK_DEV 0; TIK_LATE is the whole ns of the boundary's Sundial time minus L(k); at a launch that takes a pending set, a
skip is one of the old settings' indices, and a first launch compares the re-derived k with the index it was armed for. -/
def Eng.launch (e : Eng) (pl : LaunchPlan) : Bool × Bool × Eng :=
  let old := e.tick
  let ns := e.ns
  let ovs := if pl.first then [] else allThreads.filter e.overran
  let opos := pl.set.pos pl.k
  let takes := match old.pend with
    | some (_, w) => w || (opos.1 == 0 && opos.2 == 0)
    | none => false
  let set := match old.pend with
    | some (s, _) => if takes then s else old.set
    | none => old.set
  let fresh := takes || set != pl.set
  let k := if fresh then set.indexAt ns else pl.k
  let realign := pl.realign || (fresh && k != (if pl.first then pl.k else tickAfter old.k))
  let late : Int := (e.t80 : Int) - (set.launch k * 2 ^ 20 : Nat)
  let slip := decide (late < 0) || decide ((64 * 2 ^ 20 : Nat) < late)
  let skip := decide (0 < pl.missed)
  let lateNs : Int := (ns : Int) - set.launch k
  let pos := set.pos k
  let isFrame := pos.1 == 0
  let isMatrix := isFrame && pos.2 == 0
  let dev : Int := if pl.first then 0 else (e.roundsSince old.base : Int) - pl.set.p
  let count := (old.count + 1) % 2 ^ 40
  let tick := { old with k := k, armed := none, base := e.now, set := set, count := count,
                         pend := (if takes then none else old.pend), launch := BitVec.ofNat 80 e.t80 }
  let e := { e.floodZero with tick := tick }
  let e := if takes then e.setFld F.TIK_STAT_PENDING 0 0 else e
  let e := e.setFld F.TIK_STAT_RUNNING 0 1
  let e := (e.setFld F.TIK_POS_CYCLE_COUNT 0 pos.2).setFld F.TIK_POS_TICK_IN_FRAME 0 pos.1
  let e := e.setReg .TIK_DEV 0 (word (toMod 20 dev))
  let e := e.setReg .TIK_LATE 0 (word (toMod 20 (max (-0x7FFFF) (min 0x7FFFF lateNs))))
  let e := if slip then (e.post F.TIK_STAT_SLIP 0).bump F.TIK_EVCNT_SLIPS 0 1 else e
  let e := if skip then (e.post F.TIK_STAT_SKIP 0).bump F.TIK_EVCNT_SKIPS 0 pl.missed else e
  let e := if realign then e.post F.TIK_STAT_REALIGN 0 else e
  let e := (e.trace 0 0x20 []).emitTallies.traceLaunch
  let e := e.recordOverruns ovs count
  let e := if e.lanesOn then e.releaseWtk else { e with pwr := { e.pwr with owed := true } }.wakeBy 32
  let e := e.produce 0 domEngine
  let e := if isFrame then e.produce 1 domEngine else e
  let e := if isMatrix then e.produce 2 domEngine else e
  let e := if slip || skip || realign then e.produce 4 domEngine else e
  (isMatrix, takes, e)

/-! ### Sundial -/

/-- The staged step or load value, 80 bits (R61). -/
def Eng.sunAdj (e : Eng) : Nat :=
  e.val .SUN_ADJ 0 + e.val .SUN_ADJ 1 * 2 ^ 20 + e.val .SUN_ADJ 2 * 2 ^ 40 + e.val .SUN_ADJ 3 * 2 ^ 60

/-- SUN_CTL.OP = STEP (R61, R64). -/
def Eng.sunStep (e : Eng) : Eng :=
  let e := { e with clk := { e.clk with after := some (e.clk.sun + BitVec.ofNat 100 (e.sunAdj * 2 ^ 20)) } }
  (e.post F.SUN_STAT_STEPPED 0).produce 5 domEngine

/-- SUN_CTL.OP = LOAD (R61, R64): the value stands at the start of the next cycle, with no increment. -/
def Eng.sunLoad (e : Eng) : Eng :=
  let e := { e with clk := { e.clk with after := some (BitVec.ofNat 100 (e.sunAdj * 2 ^ 20)), loaded := true } }
  (e.post F.SUN_STAT_STEPPED 0).produce 5 domEngine

/-- The staged rate trim (R54). -/
def Eng.stagedRate (e : Eng) : BitVec 40 := BitVec.ofNat 40 (e.val .SUN_RATE0 0 + e.val .SUN_RATE1 0 * 2 ^ 20)

/-- Is the staged rate within ±500 ppm (R54)? -/
def Eng.rateLegal (e : Eng) : Bool :=
  decide (-1099511627 ≤ e.stagedRate.toInt) && decide (e.stagedRate.toInt ≤ 1099511627)

/-- SUN_CTL.OP = RATE of a legal value (R55, R61, R64). -/
def Eng.sunRate (e : Eng) : Eng :=
  { e with clk := { e.clk with rateNext := e.stagedRate } }.post F.SUN_STAT_RATE_SET 0

/-- An apply of SUN_CTL.OP in this cycle (R61, R62). -/
def Eng.sunApply (e : Eng) (op : Nat) : Eng :=
  let e := { e with clk := { e.clk with applied := op } }
  match op with
  | 1 => e.sunStep
  | 2 => e.sunLoad
  | 3 => if e.rateLegal then e.sunRate else e
  | _ => e

/-- A write of SUN_CTL.OP reaches Sundial, which takes one apply per cycle (R63). The Keeper's, the Hide's and the host's are applied
in this cycle if it is free, else in the next free one; the owner thread's (`owner`) is applied at the end of this cycle, where no other
was, so that the Keeper's goes first in whichever order the two reach it. -/
def Eng.sunOp (e : Eng) (owner : Bool) (op : Nat) : Eng :=
  if op = 0 ∨ 3 < op then e
  else if owner ∧ e.clk.owner = 0 then { e with clk := { e.clk with owner := op } }
  else if !owner ∧ e.clk.applied = 0 then e.sunApply op
  else { e with clk := { e.clk with owed := e.clk.owed ++ [op] } }

/-- The end of a cycle in which the owner thread wrote SUN_CTL.OP: it is applied in it, or waits for the next (R63). -/
def Eng.sunOwner (e : Eng) : Eng :=
  let op := e.clk.owner
  let e := { e with clk := { e.clk with owner := 0 } }
  if op = 0 then e
  else if e.clk.applied = 0 then e.sunApply op
  else { e with clk := { e.clk with owed := op :: e.clk.owed } }

/-- An apply that waits is made in the next cycle (R63). -/
def Eng.sunDue (e : Eng) : Eng :=
  match e.clk.owed with
  | [] => e
  | op :: rest => { e with clk := { e.clk with owed := rest } }.sunApply op

/-- Sundial as a reader of this cycle finds it: after the cycle's step or load (R59), the owner's too. -/
def Eng.clkSeen (e : Eng) : Clk := e.sunOwner.clk

/-- A late AT (R73, R76). -/
def Eng.atLate (e : Eng) : Eng := (e.post F.SUN_STAT_AT_LATE 0).bump F.SUN_LATECNT_AT 0 1

/-- R72: Sundial has reached a 40-bit target. -/
def reached (ns target : Nat) : Bool := decide ((ns % 2 ^ 40 + 2 ^ 40 - target) % 2 ^ 40 < 2 ^ 39)

/-! ### Event captures -/

/-- The T80 that an event capture unit holds. -/
def Eng.ecapT80 (e : Eng) (n : Nat) : Nat := [3, 2, 1, 0].foldl (fun v w => v * 2 ^ 20 + e.val .SUN_ECAP_T (4 * n + w)) 0

/-- An event capture unit records a firing's Sundial time; several firings of one cycle give one capture (R68). -/
def Eng.ecapture (e : Eng) (n : Nat) (v : Nat) : Eng :=
  if Tab.has e.recent.ecap n then e
  else
  let e := { e with recent := { e.recent with ecap := Tab.put e.recent.ecap n (e.ecapT80 n) } }
  let e := if e.flag F.SUN_ECAP_CFG_FRESH n then e.post F.SUN_ECAP_CFG_OVER n else e
  let e := e.setFld F.SUN_ECAP_CFG_FRESH n 1
  foldS (fun w e => e.setReg .SUN_ECAP_T (4 * n + w) (t80Word v w)) [0, 1, 2, 3] e

end Sys2Proof.Machine
end

