-- ==== Sys2Proof/Machine/Timers.lean ====
section
/-! DEFINITION. Timers and counters (15_timers.md R378 to R394). -/

namespace Sys2Proof.Machine

/-- The Sundial field NS[59:K] of the accumulator (R381). -/
def sunField (sun : BitVec 100) (k : Nat) : Nat := (sun.toNat >>> 40) >>> k

/-- TMR_CFG.SRC (R379). -/
def Eng.tmrSrc (e : Eng) (u : Nat) : Nat := e.fld F.TMR_CFG_SRC u

/-- The units of the chain above unit `u` (R382, R388): at most seven. -/
def Eng.chainAbove (e : Eng) (u : Nat) : List Nat :=
  (((List.range (7 - u % 8)).map (fun i => u + 1 + i)).takeWhile (fun v => e.tmrSrc v == 3))

/-- Is unit u an upper unit of a wide chain, which captures and is read with the chain's lowest unit (R393)? -/
def Eng.underWide (e : Eng) (u : Nat) : Bool :=
  (List.range (u % 8)).any (fun n => e.flag F.TMR_CFG_WIDE (u - 1 - n) && (e.chainAbove (u - 1 - n)).contains u)

/-- The rank of the strongest action that reached the unit in this cycle (R386); 9 for none. -/
def Eng.tmrRank (e : Eng) (u : Nat) : Nat := if (e.getTmr u).act.1 = e.now + 1 then (e.getTmr u).act.2 else 9

/-- START in this cycle (R384). -/
def Eng.tmrStart1 (e : Eng) (u : Nat) : Eng :=
  let t := e.getTmr u
  e.setTmr u { t with cnt := e.reg .TMR_OFS u, run := true, phase := e.clk.runCyc, act := (e.now + 1, 2),
                      kept := sunField e.clk.sun (e.fld F.TMR_CFG_K u) }

/-- START of a unit; a lead timer takes its linked units along (R384, R385). -/
def Eng.tmrStart (e : Eng) (u : Nat) : Eng :=
  let e1 := e.tmrStart1 u
  if u % 8 = 0 then
    foldS (fun v e => if e.flag F.TMR_CFG_LINKSTART v then e.tmrStart1 v else e) ((List.range 7).map (fun i => u + 1 + i)) e1
  else e1

/-- A global start: the lead timers with LINKSTART start, and their linked units (R385). -/
def Eng.globalStart (e : Eng) : Eng :=
  foldS (fun u e => if e.flag F.TMR_CFG_LINKSTART u then e.tmrStart u else e) [0, 8, 16] e

/-- STOP; a START of the cycle ranks before it (R384, R386). -/
def Eng.tmrStop (e : Eng) (u : Nat) : Eng :=
  if e.tmrRank u ≤ 2 then e else e.setTmr u { e.getTmr u with run := false, act := (e.now + 1, 3) }

/-- CONT; a START or STOP of the cycle ranks before it (R384, R386). -/
def Eng.tmrCont (e : Eng) (u : Nat) : Eng :=
  let t := e.getTmr u
  if t.run ∨ e.tmrRank u ≤ 3 then e else e.setTmr u { t with run := true, phase := e.clk.runCyc, act := (e.now + 1, 4) }

/-- A write to TMR_CNT (R386, rank 5): a START of the cycle sets the count. -/
def Eng.tmrSetCnt (e : Eng) (u v : Nat) : Eng :=
  if e.tmrRank u ≤ 2 then e else e.setTmr u { e.getTmr u with cnt := word v, setAt := e.now + 1 }

/-- Does the unit match after an increment (R378, R388)? -/
def Eng.tmrMatches (e : Eng) (u : Nat) : Bool :=
  let own (v : Nat) : Bool := (e.getTmr v).cnt == e.reg .TMR_CMP v
  own u && (!e.flag F.TMR_CFG_WIDE u || (e.chainAbove u).all own)

def Eng.tmrMatch (e : Eng) (u : Nat) : Eng := (e.post F.TMR_STAT_MF u).produce (384 + 2 * u) (u / 8)

/-- Does an increment of this cycle reach the unit: it runs, and no other action takes the increment (R378, R386)? -/
def Eng.tmrFree (e : Eng) (u : Nat) : Bool :=
  let t := e.getTmr u
  t.run && e.tmrRank u == 9 && t.setAt != e.now + 1

/-- One increment of a unit: true where it overflows (R378, R389). -/
def Eng.tmrInc1 (e : Eng) (u : Nat) : Bool × Eng :=
  let t := e.getTmr u
  if t.cnt = e.reg .TMR_TOP u ∨ t.cnt = 0xFFFFF then
    (true, ((e.setTmr u { t with cnt := 0 }).post F.TMR_STAT_OF u).produce (384 + 2 * u + 1) (u / 8))
  else (false, e.setTmr u { t with cnt := t.cnt + 1 })

/-- Increments a unit and, on its overflow, the running CHAIN unit above it, and so on (R382). Answers the units that
incremented, lowest first. -/
def Eng.tmrIncChain : Nat → Eng → Nat → List Nat × Eng
  | 0, e, _ => ([], e)
  | n + 1, e, u =>
    let (o, e1) := e.tmrInc1 u
    if o ∧ u % 8 < 7 ∧ e1.tmrSrc (u + 1) = 3 ∧ e1.tmrFree (u + 1) then
      let (l, e2) := Eng.tmrIncChain n e1 (u + 1)
      (u :: l, e2)
    else ([u], e1)

/-- Has the unit's source an increment in this cycle (R379 to R383)? -/
def Eng.tmrDue (e : Eng) (u : Nat) : Bool :=
  let t := e.getTmr u
  let d := e.clk.runCyc - t.phase
  match e.tmrSrc u with
  | 1 => decide (0 < d) && d % (e.fld F.TMR_PRE_PRE u + 1) == 0
  | 2 => sunField e.clk.nextSun (e.fld F.TMR_CFG_K u) != t.kept
  | 4 => t.evAt == e.now + 1
  | _ => false

/-- TIMER_INCREMENT: the source of a unit gives an increment in this cycle (R378), which is made as the cycle ends, after what ranks
before it (R386). -/
def Eng.tmrIncrement (e : Eng) (u : Nat) : Eng :=
  if e.awake then e.setTmr u { e.getTmr u with incAt := e.now + 1 } else e

/-- A capture comes in this cycle; several make one (R391). Captures need running timers (R394), and those of the upper units of a wide
chain have no effect (R393). -/
def Eng.tmrCapture (e : Eng) (u : Nat) : Eng :=
  if !e.awake ∨ e.underWide u then e else e.setTmr u { e.getTmr u with capAt := e.now + 1 }

/-- A unit sees the Sundial field as it stands at the start of the next cycle, also where its increment is lost (R381). -/
def Eng.tmrKeep (e : Eng) (u : Nat) : Eng :=
  if e.tmrSrc u = 2 then e.setTmr u { e.getTmr u with kept := sunField e.clk.nextSun (e.fld F.TMR_CFG_K u) } else e

/-- The increment of a unit at the end of its cycle, with its matches and the chain above (R378 to R389, R386 rank 6): against CMP and TOP
as they then stand. -/
def Eng.tmrStep (e : Eng) (u : Nat) : Eng :=
  if (e.getTmr u).incAt ≠ e.now + 1 ∨ !e.tmrDue u then e
  else if !e.tmrFree u then (if (e.getTmr u).setAt = e.now + 1 then e.tmrKeep u else e)
  else
    let (l, e1) := Eng.tmrIncChain 8 (e.tmrKeep u) u
    foldS (fun v e => if e1.tmrMatches v then e.tmrMatch v else e) l e1

/-- A capture of one unit's count (R392). -/
def Eng.tmrCap1 (e : Eng) (u : Nat) : Eng :=
  let t := e.getTmr u
  match t.caps with
  | [] => e.setTmr u { t with caps := [t.cnt] }
  | [a] => e.setTmr u { t with caps := [a, t.cnt] }
  | a :: _ => (e.setTmr u { t with caps := [a, t.cnt] }).post F.TMR_STAT_OVER u

/-- The captures of a unit at the end of their cycle (R386 rank 7), with the chain under WIDE (R391, R393). -/
def Eng.tmrCapEnd (e : Eng) (u : Nat) : Eng :=
  if (e.getTmr u).capAt ≠ e.now + 1 then e
  else foldS (fun v e => e.tmrCap1 v) (u :: (if e.flag F.TMR_CFG_WIDE u then e.chainAbove u else [])) e

/-- The end of a cycle in the timers: increments, then captures (R386). -/
def Eng.timersEnd (e : Eng) : Eng :=
  let us := e.tmr.map (·.1)
  foldS (fun u e => e.tmrCapEnd u) us (foldS (fun u e => e.tmrStep u) us e)

end Sys2Proof.Machine
end

