-- ==== Sys2Proof/Machine/Switch.lean ====
section
/-! DEFINITION. The Basin and its switch (07_basin_switching.md): cells and the free list, frame records, the forwarding table,
the classifier, the Sluice's levels, the Warden. -/

namespace Sys2Proof.Machine

/-! ### Records -/

def Eng.cell (e : Eng) (c : Nat) : Cell := Tab.get {} e.cells c
def Eng.setCell (e : Eng) (c : Nat) (x : Cell) : Eng := { e with cells := Tab.put e.cells c x }
def Eng.getLink (e : Eng) (n : Nat) : Link := Tab.get {} e.links n
def Eng.setLink (e : Eng) (n : Nat) (x : Link) : Eng := { e with links := Tab.put e.links n x }
def Eng.modLink (e : Eng) (n : Nat) (f : Link → Link) : Eng := e.setLink n (f (e.getLink n))
def Eng.modSw (e : Eng) (f : Switch → Switch) : Eng := { e with sw := f e.sw }
def Eng.frame (e : Eng) (q : Nat) : Option Frame := Tab.find e.sw.frames q
def Eng.setFrame (e : Eng) (q : Nat) (f : Frame) : Eng := e.modSw (fun w => { w with frames := Tab.put w.frames q f })

def Eng.modFrame (e : Eng) (q : Nat) (g : Frame → Frame) : Eng :=
  match e.frame q with
  | some f => e.setFrame q (g f)
  | none => e

/-! ### The free list (R161, R162, R192) -/

/-- FREE. -/
def FreeList.count (f : FreeList) : Nat := f.front.length + (16384 - f.fresh) + f.returned.length - f.voided.length

def Eng.freeCells (e : Eng) : Nat := e.sw.free.count

/-- H7 (R162). -/
def Eng.h7 (e : Eng) : Nat := (e.cells.filter (fun c => c.2.c7)).length

/-- The list without its head. -/
def FreeList.pop (f : FreeList) : Option (Nat × FreeList) :=
  match f.front with
  | c :: t => some (c, { f with front := t })
  | [] =>
    if f.fresh < 16384 then some (f.fresh, { f with fresh := f.fresh + 1 })
    else
      match f.returned with
      | c :: t => some (c, { f with returned := t })
      | [] => none

/-- The head of the free list, past voided entries. -/
def FreeList.take : Nat → FreeList → Option (Nat × FreeList)
  | 0, _ => none
  | k + 1, f =>
    match f.pop with
    | some (c, g) => if f.voided.contains c then FreeList.take k { g with voided := f.voided.erase c } else some (c, g)
    | none => none

/-- What a cell is allocated for (R162): 0 class 7, 1 a cell before the verdict, 2 any other. -/
def Eng.mayAlloc (e : Eng) (kind : Nat) : Bool :=
  if kind = 2 then decide (4096 - e.h7 < e.freeCells) else decide (0 < e.freeCells)

/-- BSN_LOWW (R201). -/
def Eng.lowWater (e : Eng) : Eng :=
  let old := e.fld F.BSN_LOWW_MIN 0
  if e.freeCells < old then
    { e.setFld F.BSN_LOWW_MIN 0 e.freeCells with recent := { e.recent with rc := noteCount e.recent.rc (Reg.key .BSN_LOWW 0 * 32) old 0 } }
  else e

/-- An allocation of one cell by an ingress mover (R161, R162). -/
def Eng.allocCell (e : Eng) (kind : Nat) (own : Owner) (seq : Nat) (c7 : Bool) : Option (Nat × Eng) :=
  if !e.mayAlloc kind then none
  else
    match e.sw.free.take (e.sw.free.voided.length + 1) with
    | none => none
    | some (c, f) => some (c, ((e.modSw (fun w => { w with free := f })).setCell c { owner := own, seq := seq, c7 := c7 }).lowWater)

/-- A release of a cell to the tail of the free list; of a FREE cell refused and recorded (R161, R194). -/
def Eng.freeCell (e : Eng) (c : Nat) : Eng :=
  let x := e.cell c
  if x.owner = .free then
    let e := (e.bump F.WRD_CNT1_DFREES 0 1).modSw (fun w => { w with warden := { w.warden with dfrees := w.warden.dfrees + 1 } })
    ((e.post F.WRD_STAT_DFREE 0).setFld F.WRD_LAST_KIND 0 2).setFld F.WRD_LAST_CELL 0 c
  else
    (e.setCell c { seq := x.seq }).modSw (fun w => { w with free := { w.free with returned := w.free.returned ++ [c] } })

/-- The chain from a cell, while the cells have the owner. -/
def Eng.chain (e : Eng) (own : Owner) : Nat → Nat → List Nat
  | 0, _ => []
  | k + 1, c =>
    if (e.cell c).owner ≠ own then []
    else
      match (e.cell c).next with
      | some d => c :: e.chain own k d
      | none => [c]

/-- The number of cells of a frame of n bytes (R160). -/
def cellsOf (n : Nat) : Nat := (n + 127) / 128

/-- Takes the next SEQ (R165). -/
def Eng.takeSeq (e : Eng) : Nat × Eng :=
  let q := e.val .BSN_NEXTSEQ 0
  (q, e.setReg .BSN_NEXTSEQ 0 (word (q + 1)))

/-- The owner of a frame's cells: of a trapped frame, whose last bytes are still on their way, the trap thread (R199). -/
def Frame.owner (f : Frame) : Owner := if f.trapTid = 0 then .frame else .thread f.trapTid

/-- The cell of a frame that holds its byte `off` (from 0): the chain's cell off / 128. -/
def Eng.frameCell (e : Eng) (f : Frame) (off : Nat) : Option Nat := (e.chain f.owner 73 f.head)[off / 128]?

/-! ### Queues (R176) -/

def queueKey (port cls : Nat) : Nat := 8 * port + cls

def Eng.queue (e : Eng) (port cls : Nat) : List Nat := Tab.get [] e.sw.queues (queueKey port cls)

def Eng.setQueue (e : Eng) (port cls : Nat) (l : List Nat) : Eng :=
  e.modSw (fun w => { w with queues := Tab.put w.queues (queueKey port cls) l })

/-- Queue entries in use. -/
def Eng.entriesUsed (e : Eng) : Nat := (e.sw.queues.map (fun q => q.2.length)).foldl (· + ·) 0

/-- Cells counted against a quota (R188). -/
def Eng.queueCells (e : Eng) (port cls : Nat) : Nat :=
  ((e.queue port cls).map (fun q => match e.frame q with
    | some f => f.cells
    | none => 0)).foldl (· + ·) 0

/-- A frame that did not go out complete at a port: the outcome at the lowest such port, 24 for the whole frame (R419). -/
def Frame.fail (f : Frame) (port status : Nat) : Frame :=
  match f.out with
  | some (_, p) => if port < p then { f with out := some (status, port) } else f
  | none => { f with out := some (status, port) }

/-- The frame's last use has ended (R163): it is in no queue, in no transmission, in no buffer, not trapped and not still
received. -/
def Frame.unused (f : Frame) : Bool :=
  f.queued.isEmpty && f.sending.isEmpty && f.buffer.isEmpty && !f.trapped &&
    (f.committed || f.noVerdict) && (f.ended || f.noVerdict || !f.admitted)

/-- Ends a frame whose last use has ended; a TX entry then has its outcome (R163, R419). -/
def Eng.settle (e : Eng) (q : Nat) : Eng :=
  match e.frame q with
  | none => e
  | some f =>
    if f.done ∨ !f.unused then e
    else
      let e := e.setFrame q { f with done := true, relAt := e.now + 1 }
      match f.tx with
      | none => e
      | some (r, i) =>
        let (st, p) := f.out.getD (0, 0)
        e.setRing r { e.getRing r with res := Tab.put (e.getRing r).res i (st, p, q) }

/-- A frame leaves the queue of its class at a port. -/
def Eng.unqueue (e : Eng) (q port : Nat) : Eng :=
  match e.frame q with
  | none => e
  | some f =>
    let e := e.setQueue port f.cls ((e.queue port f.cls).filter (· != q))
    let e := if port < 24 then e.modLink port (fun l => { l with flush := l.flush.filter (fun x => x.1 != q) }) else e
    e.setFrame q { f with queued := f.queued.filter (· != port) }

/-- A frame leaves every queue unsent (R177). -/
def Eng.unqueueAll (e : Eng) (q : Nat) : Eng :=
  match e.frame q with
  | none => e
  | some f => foldS (fun p e => e.unqueue q p) f.queued e

/-! ### Keys and the forwarding table (R167 to R173) -/

def Eng.fwdKind (e : Eng) (n : Nat) : Nat := e.fld F.FWD_PCFG_KIND n

/-- Byte k of a frame (from 1), 0 where missing. -/
def hdrByte (hdr : List Byte) (k : Nat) : Nat := byteAt hdr (k - 1)

/-- Is a MAC frame tagged (R167)? -/
def Eng.tagged (e : Eng) (hdr : List Byte) : Bool :=
  let t := hdrByte hdr 13 * 256 + hdrByte hdr 14
  t == 0x8100 || t == e.fld F.FWD_TPID_TPID 0

/-- The position of the last lookup byte, where the bytes received say it (R167). -/
def Eng.lastLookup (e : Eng) (n : Nat) (hdr : List Byte) : Option Nat :=
  match e.fwdKind n with
  | 0 => some 1
  | 1 => if hdr.length < 14 then none else some (if e.tagged hdr then 16 else 14)
  | _ => some (e.fld F.FWD_PCFG_FOFF n + 2)

/-- The key of a frame with its PCP (R167). -/
def Eng.frameKey (e : Eng) (n : Nat) (hdr : List Byte) : Nat × Nat :=
  let dcls := e.fld F.FWD_PCFG_DCLS n
  if e.fwdKind n = 1 then
    let da := ([1, 2, 3, 4, 5, 6].map (hdrByte hdr)).foldl (fun a b => a * 256 + b) 0
    if e.tagged hdr then
      (2 ^ 62 + (hdrByte hdr 15 % 16 * 256 + hdrByte hdr 16) * 2 ^ 48 + da, hdrByte hdr 15 / 32)
    else (2 ^ 62 + e.fld F.FWD_PVID_PVID n * 2 ^ 48 + da, dcls)
  else
    let o := e.fld F.FWD_PCFG_FOFF n
    (2 ^ 63 + (hdrByte hdr o * 65536 + hdrByte hdr (o + 1) * 256 + hdrByte hdr (o + 2)) % 2 ^ 20, dcls)

/-- The bucket of a key (R169). -/
def Eng.fwdBucket (e : Eng) (k : Nat) : Nat :=
  (crc32 0xFFFFFFFF (leBytes 8 k).reverse % 2048) ^^^ e.fld F.FWD_SALT_SALT 0

def FwdEntry.valid (x : FwdEntry) : Bool := bit x.w0.toNat 19

/-- The entry of a key: its index (R169). -/
def Eng.fwdFind (e : Eng) (k : Nat) : Option Nat :=
  let b := e.fwdBucket k
  [4 * b, 4 * b + 1, 4 * b + 2, 4 * b + 3].find? (fun i =>
    let x := Tab.get {} e.sw.fwd i
    x.valid && x.key == k)

/-- The class of a hit (R170). -/
def Eng.hitClass (e : Eng) (n : Nat) (x : FwdEntry) (pcp : Nat) : Nat :=
  if bit x.w0.toNat 16 then (if e.fwdKind n = 1 then pcp else e.fld F.FWD_PCFG_DCLS n) else bits x.w0.toNat 15 13

/-- The ingress port's bit is cleared unless HAIRPIN (R171). -/
def Eng.hairpin (e : Eng) (n mask : Nat) : Nat :=
  if e.flag F.FWD_PCFG_HAIRPIN n then mask else setBits mask n n 0

/-- The hardware verdict for a key, or for no lookup, at port n: the entry hit, and the verdict (R171). -/
def Eng.hwVerdict (e : Eng) (n : Nat) (key : Option (Nat × Nat)) : Option Nat × Verdict :=
  let miss : Verdict := ⟨e.hairpin n (e.val .FWD_MISS_LO n + e.fld F.FWD_MISS_HI_MASK n * 2 ^ 20),
    e.fld F.FWD_PCFG_DCLS n, e.flag F.FWD_PCFG_MTRAP n⟩
  match key with
  | none => (none, miss)
  | some (k, pcp) =>
    match e.fwdFind k with
    | none => (none, miss)
    | some i =>
      let x := Tab.get {} e.sw.fwd i
      (some i, ⟨e.hairpin n x.mask, e.hitClass n x pcp, bit x.w0.toNat 17⟩)

/-- The lookup of frame q that entered at port n begins with the word that holds the last lookup byte: its key, from the bytes received, and the
cycle of its verdict (R168, R172). -/
def Eng.lookupFrame (e : Eng) (q n : Nat) (hdr : List Byte) (short : Bool) : Eng :=
  match e.frame q with
  | none => e
  | some f =>
    let key := if e.fwdKind n = 0 then none else some (e.frameKey n hdr)
    let e := if short then e.count 1 0 13 1 else e
    e.setFrame q { f with dueAt := some (e.now + 160), look := some ⟨e.now, key, e.fwdKind n == 1 && e.tagged hdr, false, none⟩ }

/-- 24 cycles later its hardware verdict is ready (R171, R172). DEDUCED: the table is compared in that cycle (log 70). -/
def Eng.lookupEnd (e : Eng) (q : Nat) (f : Frame) (x : Look) : Eng :=
  let (hit, v) := e.hwVerdict f.inPort x.key
  let e := if x.key.isNone then e else e.count 1 0 (if hit.isSome then 0 else 1) 1
  let e := match hit with
    | some i => e.modSw (fun w =>
        let y : FwdEntry := Tab.get {} w.fwd i
        { w with fwd := Tab.put w.fwd i { y with w0 := word (setBits y.w0.toNat 18 18 1) } })
    | none => e
  e.setFrame q { f with verdict := v, look := some { x with ready := true, hit := hit } }

/-- 36 cycles after the word its notice is pushed, where the port has a classifier; KIND NONE makes no lookup and no notice (R171, R172, R174). -/
def Eng.lookupNotice (e : Eng) (q : Nat) (f : Frame) (x : Look) : Eng :=
  let n := f.inPort
  let e := e.setFrame q { f with look := none }
  if x.key.isNone ∨ !e.flag F.FWD_PCFG_CLS n then e
  else if 32 ≤ e.sw.notices.length then (e.count 1 0 4 1).post F.FWD_STAT_NOTE_OVF 0
  else
    let v := f.verdict
    let w1 := n * 2 ^ 15 + b2n x.hit.isSome * 2 ^ 14 + b2n x.tagged * 2 ^ 13 + x.hit.getD 0
    let w2 := f.head * 2 ^ 6 + v.cls * 8 + b2n v.trap * 4
    let note := [word q, word w1, word w2, word v.mask, word (v.mask / 2 ^ 20)]
    (e.modSw (fun w => { w with notices := w.notices ++ [note] })).produce 6 (if n < 24 then n / 8 else domEngine)

/-- A cycle of the lookups on their way. -/
def Eng.lookupsEnd (e : Eng) : Eng :=
  foldS (fun q e => match e.frame q with
    | none => e
    | some f =>
      match f.look with
      | none => e
      | some x =>
        if !x.ready ∧ x.at' + 24 ≤ e.now then e.lookupEnd q f x
        else if x.ready ∧ x.at' + 36 ≤ e.now then e.lookupNotice q f x
        else e)
    ((e.sw.frames.filter (fun f => f.2.look.isSome)).map (·.1)) e

/-- A lookup operation is in progress (R173). -/
def Eng.fwdBusy (e : Eng) : Bool := e.sw.fwdOp.isSome

/-- The staged key and mask. -/
def Eng.stagedKey (e : Eng) : Nat :=
  e.val .FWD_ENT1 0 + e.val .FWD_ENT2 0 * 2 ^ 20 + e.val .FWD_ENT3 0 * 2 ^ 40 + e.fld F.FWD_ENT4_KEY 0 * 2 ^ 60

/-- Copies an entry into the staged words. -/
def Eng.fwdShow (e : Eng) (x : FwdEntry) : Eng :=
  let e := (e.setReg .FWD_ENT0 0 x.w0).setReg .FWD_ENT1 0 (word x.key)
  let e := (e.setReg .FWD_ENT2 0 (word (x.key / 2 ^ 20))).setReg .FWD_ENT3 0 (word (x.key / 2 ^ 40))
  let e := e.setReg .FWD_ENT4 0 (word (x.key / 2 ^ 60))
  (e.setReg .FWD_ENT5 0 (word x.mask)).setReg .FWD_ENT6 0 (word (x.mask / 2 ^ 20))

def Eng.setFwd (e : Eng) (i : Nat) (x : FwdEntry) : Eng := e.modSw (fun w => { w with fwd := Tab.put w.fwd i x })

/-- The effect and RESULT of a table operation (R173): 0 DONE, 1 UPDATED, 2 FULL, 3 NOTFOUND. -/
def Eng.fwdRun (e : Eng) (op : Nat) (clr : Bool) : Nat × Eng :=
  let k := e.stagedKey
  let copy (i : Nat) (e : Eng) : Eng :=
    let x := Tab.get {} e.sw.fwd i
    let e := e.fwdShow x
    if clr then e.setFwd i { x with w0 := word (setBits x.w0.toNat 18 18 0) } else e
  match op with
  | 1 =>
    let x : FwdEntry := ⟨word (setBits (setBits (e.val .FWD_ENT0 0) 19 19 1) 18 18 0), k,
      e.val .FWD_ENT5 0 + e.fld F.FWD_ENT6_MASK 0 * 2 ^ 20⟩
    let b := e.fwdBucket k
    match e.fwdFind k with
    | some i => (1, (e.setFwd i x).setFld F.FWD_IDX_INDEX 0 i)
    | none =>
      match [4 * b, 4 * b + 1, 4 * b + 2, 4 * b + 3].find? (fun i => !(Tab.get ({} : FwdEntry) e.sw.fwd i).valid) with
      | some i => (0, (e.setFwd i x).setFld F.FWD_IDX_INDEX 0 i)
      | none => (2, e)
  | 2 =>
    match e.fwdFind k with
    | some i =>
      let x := Tab.get {} e.sw.fwd i
      (0, e.setFwd i { x with w0 := word (setBits x.w0.toNat 19 19 0) })
    | none => (3, e)
  | 3 =>
    match e.fwdFind k with
    | some i => (0, (copy i e).setFld F.FWD_IDX_INDEX 0 i)
    | none => (3, e)
  | _ => (0, copy (e.fld F.FWD_IDX_INDEX 0) e)

/-- FWD_OP: an operation starts (R173). -/
def Eng.fwdStart (e : Eng) (op : Nat) (clr : Bool) : Eng := e.modSw (fun w => { w with fwdOp := some (op, clr, e.now) })

/-- FWD_OP_RESULT: in the last of the 16 cycles of BUSY (R173). -/
def Eng.fwdEnd (e : Eng) : Eng :=
  match e.sw.fwdOp with
  | none => e
  | some (op, clr, c) =>
    if e.now < c + 16 then e
    else
      let (r, e) := e.fwdRun op clr
      (e.modSw (fun w => { w with fwdOp := none })).setFld F.FWD_OSTAT_RESULT 0 r

/-- An override commit for a SEQ (R175): TAKEN also before the frame's lookup, TOO_LATE while the frame's record lasts after its verdict has
committed (DEDUCED, log entry 43); NOSEQ for a frame whose verdict no lookup gives. -/
def Eng.override (e : Eng) (q act : Nat) : Eng :=
  let res (n : Nat) (e : Eng) : Eng := e.setFld F.FWD_OVRSTAT_RESULT 0 n
  match e.frame q with
  | none => res 2 e
  | some f =>
    let late : Bool := f.committed || (match f.dueAt with
      | some c => decide (c ≤ e.now)
      | none => false)
    if f.noVerdict ∨ (f.committed ∧ f.dueAt.isNone) then res 2 e
    else if late then (res 1 (e.count 1 0 3 1)).post F.FWD_STAT_OVR_LATE 0
    else
      let mask := e.hairpin f.inPort (e.val .FWD_OVR2 0 + e.fld F.FWD_OVR1_MASK 0 * 2 ^ 20)
      let v : Verdict := ⟨if act = 2 then mask else 0, if act = 2 then e.fld F.FWD_OVR1_CLASS 0 else 0, act == 3⟩
      res 0 (e.setFrame q { f with override := if act = 0 then none else some (act, v) })

/-! ### The Sluice's buckets (R187) -/

/-- A bucket's level, in 1/256 byte. -/
def Eng.bucket (e : Eng) (port cls : Nat) : Int := Tab.get 0 e.sw.buckets (queueKey port cls)

/-- Subtracts an admitted frame's length, to a floor of −9,216 bytes. -/
def Eng.charge (e : Eng) (f : Frame) : Eng :=
  if f.inPort ≤ 24 ∧ e.flag F.SLU_TBCFG_EN (queueKey f.inPort f.cls) then
    let k := queueKey f.inPort f.cls
    e.modSw (fun w => { w with buckets := Tab.put w.buckets k (max (-9216 * 256) (Tab.get 0 w.buckets k - 256 * f.len)) })
  else e

/-- TOKEN_REFILL: once in a round, each enabled bucket gains RATE / 256 bytes, up to BURST. -/
def Eng.refill (e : Eng) : Eng :=
  let r := (e.now - e.clk.roundBase) / 32 + 1
  if e.sw.refillAt = r then e
  else
    foldS (fun k e =>
      if e.flag F.SLU_TBCFG_EN k then
        let lvl := min (256 * (e.val .SLU_TBBURST k : Int)) (Tab.get 0 e.sw.buckets k + e.val .SLU_TBRATE k)
        e.modSw (fun w => { w with buckets := Tab.put w.buckets k lvl })
      else e) (List.range 200) (e.modSw (fun w => { w with refillAt := r }))

/-- SLU_DRATE, SLU_DPOOL: drops of an ingress (port, class); SLU_DQUOTA, SLU_DENTRY: skips of an egress one. -/
def Eng.sluCount (e : Eng) (r : Reg) (port cls : Nat) : Eng :=
  if port ≤ 24 then e.bumpReg r (queueKey port cls) 1 else e

/-! ### Traps (R199) -/

/-- A trapped frame has ended good: its record enters the FIFO and its cells pass to the trap thread; the switch keeps a record of them
until their last bytes are written. -/
def Eng.pushTrap (e : Eng) (q : Nat) (f : Frame) : Eng :=
  let t := e.fld F.BSN_TRAPTID_TID 0
  if t = 0 ∨ 16 ≤ e.sw.traps.length then
    ((e.count 1 0 10 1).setFrame q { (f.fail 24 1) with trapped := false, admitted := false }).settle q
  else
    let e := foldS (fun c e => e.setCell c { e.cell c with owner := .thread t, c7 := false }) (e.chain .frame 73 f.head) e
    let e := e.modSw (fun w => { w with traps := w.traps ++ [[q, f.head, f.inPort, f.cls, f.len]] })
    let e := (e.setFrame q { (f.fail 24 8) with trapped := false, cells := 0, trapTid := t }).settle q
    if f.len ≤ f.written then e.modSw (fun w => { w with frames := Tab.del w.frames q }) else e

/-- CELL_CHAIN_RELEASE: one cell of a frame whose last use has ended; the record ends with its last cell (R163). -/
def Eng.releaseStep (e : Eng) (q : Nat) : Eng :=
  match e.frame q with
  | none => e
  | some f =>
    if !f.done ∨ e.now < f.relAt ∨ (f.trapTid ≠ 0 ∧ f.written < f.len) then e
    else if f.cells = 0 then e.modSw (fun w => { w with frames := Tab.del w.frames q })
    else
      let nx := (e.cell f.head).next
      let c := e.now + 1
      let e := e.freeCell f.head
      if f.cells = 1 ∨ nx.isNone then e.modSw (fun w => { w with frames := Tab.del w.frames q })
      else e.setFrame q { f with head := nx.getD 0, cells := f.cells - 1, relAt := c }

/-! ### Threads and cells (R197, R198) -/

/-- The owner of the cells of an allocation. -/
def AllocFor.owner : AllocFor → Owner
  | .thread t => .thread t
  | .tx _ _ _ => .frame
  | .image => .thread 1

/-- The allocation of a chain of n cells begins: it takes one cell a cycle, from this cycle on, after the ingress movers (R162, R197). -/
def Eng.allocStart (e : Eng) (why : AllocFor) (n : Nat) (c7 : Bool) : Eng :=
  let till := e.now + n + 2
  e.modSw (fun w => { w with allocs := w.allocs ++ [{ why := why, n := n, c7 := c7, till := till }] })

/-- The allocation for a purpose, if it is in progress. -/
def Eng.allocOf (e : Eng) (p : AllocFor → Bool) : Option Alloc := e.sw.allocs.find? (fun a => p a.why)

def AllocFor.isThread (t : Nat) : AllocFor → Bool
  | .thread u => u == t
  | _ => false

def AllocFor.isTx (r : Nat) : AllocFor → Bool
  | .tx x _ _ => x == r
  | _ => false

def AllocFor.isImage (x : AllocFor) : Bool := x == .image

/-- The cells of a refused or given up allocation go back to the head of the free list, as if never taken (DESIGN CHOICE, log 70: R197 says that
a refused allocation takes no cell). -/
def Eng.giveBack (e : Eng) (l : List Nat) : Eng :=
  (foldS (fun c e => e.setCell c { seq := (e.cell c).seq }) l e).modSw (fun w => { w with free := { w.free with front := l ++ w.free.front } })

/-- One cycle of an allocation: a cell, linked to the one before it; a refusal; or a voided entry discarded, which costs the cycle (R162, R192, R197). -/
def Eng.allocStep (e : Eng) (a : Alloc) : Alloc × Eng :=
  if a.ok.isSome then (a, e)
  else if !e.mayAlloc (if a.c7 then 0 else 2) then ({ a with ok := some false, cells := [] }, e.giveBack a.cells)
  else
    match e.sw.free.pop with
    | none => ({ a with ok := some false, cells := [] }, e.giveBack a.cells)
    | some (c, f) =>
      if e.sw.free.voided.contains c then
        ({ a with till := a.till + 1 }, e.modSw (fun w => { w with free := { f with voided := e.sw.free.voided.erase c } }))
      else
        let e := ((e.modSw (fun w => { w with free := f })).setCell c { owner := a.why.owner, c7 := a.c7 }).lowWater
        let e := match a.cells.getLast? with
          | some p => e.setCell p { e.cell p with next := some c }
          | none => e
        ({ a with cells := a.cells ++ [c], ok := if a.n ≤ a.cells.length + 1 then some true else none }, e)

/-- A cycle of every allocation, in the order of their starts. -/
def Eng.allocsStep (e : Eng) : Eng :=
  let (l, e) := e.sw.allocs.foldl (fun (x : List Alloc × Eng) a =>
    let (a, e) := x.2.allocStep a
    (x.1 ++ [a], e)) ([], e)
  e.modSw (fun w => { w with allocs := l })

/-- BSN_ALLOC (R197). -/
def Eng.bsnAlloc (e : Eng) (t n : Nat) (c7 : Bool) : Eng := e.allocStart (.thread t) n c7

/-- An allocation leaves the list. -/
def Eng.allocDrop (e : Eng) (p : AllocFor → Bool) : Eng := e.modSw (fun w => { w with allocs := w.allocs.filter (fun a => !p a.why) })

/-- ALLOC_DONE (R197): BUSY ends, with the head cell or with none. -/
def Eng.allocDone (e : Eng) (t : Nat) : Eng :=
  match e.allocOf (AllocFor.isThread t) with
  | none => e
  | some a =>
    match a.ok with
    | none => e
    | some ok =>
      if e.now < a.till then e
      else ((e.allocDrop (AllocFor.isThread t)).setFld F.BSN_AHEAD_VALID t (b2n ok)).setFld F.BSN_AHEAD_HEAD t (a.cells.headD 0)

/-- Is a cell in a chain that is being released? -/
def Eng.leaving (e : Eng) (c : Nat) : Bool := e.sw.drops.any (fun d => d.2.contains c)

def Eng.holds (e : Eng) (t c : Nat) : Bool := decide ((e.cell c).owner = .thread t) && !e.leaving c

/-- The release of a chain begins: one cell a cycle, from the next cycle on (R163). -/
def Eng.releaseChain (e : Eng) (l : List Nat) : Eng :=
  let c := e.now + 1
  if l.isEmpty then e else e.modSw (fun w => { w with drops := w.drops ++ [(c, l)] })

/-- A cycle of the chains in release. -/
def Eng.dropsStep (e : Eng) : Eng :=
  let due := e.sw.drops.filter (fun d => decide (d.1 ≤ e.now))
  let e1 := foldS (fun (d : Nat × List Nat) e => match d.2 with
    | c :: _ => e.freeCell c
    | [] => e) due e
  e1.modSw (fun w => { w with drops := (w.drops.map (fun d => if d.1 ≤ e.now then (d.1, d.2.drop 1) else d)).filter (fun d => !d.2.isEmpty) })

/-- BSN_RELEASE (R194, R197): false for a bus fault. The chain ends where it leaves the thread's cells; a FREE cell that it leads to is a double free. -/
def Eng.bsnRelease (e : Eng) (t c : Nat) : Bool × Eng :=
  if e.holds t c then
    let l := (e.chain (.thread t) 16384 c).takeWhile (fun x => e.holds t x)
    let stop := match l.getLast? with
      | some z => (e.cell z).next
      | none => none
    (true, e.releaseChain (l ++ (match stop with
      | some z => if (e.cell z).owner = .free then [z] else []
      | none => [])))
  else (false, if (e.cell c).owner = .free then e.freeCell c else e)

/-- BSN_CHAIN1: the relinking of the writer's cell (R197): false for a bus fault. -/
def Eng.relink (e : Eng) (t cell nx : Nat) (isEnd : Bool) : Bool × Eng :=
  if !e.holds t cell ∨ (!isEnd ∧ !e.holds t nx) then (false, e)
  else (true, e.setCell cell { e.cell cell with next := if isEnd then none else some nx })

/-- A held chain of exactly ceil(len / 128) cells, ending there (R198). -/
def Eng.heldChain (e : Eng) (t head len : Nat) : Option (List Nat) :=
  let n := cellsOf len
  let l := e.chain (.thread t) (n + 1) head
  if 1 ≤ len ∧ len ≤ 9216 ∧ l.length = n ∧ l.all (fun c => e.holds t c) then some l else none

/-- Cells of a thread pass to a new frame (R198, R213). -/
def Eng.frameOfCells (e : Eng) (l : List Nat) (f : Frame) : Nat × Eng :=
  let (q, e) := e.takeSeq
  let e := foldS (fun c e => e.setCell c { e.cell c with owner := .frame, seq := q, c7 := f.cls == 7, orphan := false, suspect := none }) l e
  (q, e.setFrame q { f with head := l.headD 0, cells := l.length, ended := true, written := f.len })

/-! ### The Warden (R191 to R195) -/

/-- An audit start at this cycle (R191). -/
def Eng.auditStart (e : Eng) : Eng :=
  if !e.flag F.WRD_CTL_EN 0 then e
  else if e.sw.warden.pass.isSome then e.bump F.WRD_SKIPS_COUNT 0 1
  else e.modSw (fun w => { w with warden := { w.warden with pass := some e.now, lastStart := e.now, sum := {} } })

/-- AUDIT_TIMEOUT: 65,536 cycles after the last audit start (R191). -/
def Eng.auditDue (e : Eng) : Eng := if e.sw.warden.lastStart + 65536 ≤ e.now then e.auditStart else e

/-- Is a cell in the free list, with an entry that is not voided (R161, R192)? -/
def FreeList.has (f : FreeList) (c : Nat) : Bool :=
  decide (f.voided.count c < f.front.count c + b2n (decide (f.fresh ≤ c)) + f.returned.count c)

/-- The cells of live frame records, of frames in the Basin DMA, of allocations in progress and of chains in release (R192). -/
def Eng.liveCells (e : Eng) : List Nat :=
  (e.sw.frames.map (fun x => e.chain .frame 73 x.2.head)).foldr (fun a b => a ++ b) [] ++
    e.rings.flatMap (fun r => r.2.dma.flatMap (fun d => d.cells)) ++ e.sw.allocs.flatMap (fun a => a.cells) ++ e.sw.drops.flatMap (fun d => d.2)

/-- The examination of one cell (R192, R193). -/
def Eng.auditCell (live : List Nat) (c : Nat) (a : AuditSum × Eng) : AuditSum × Eng :=
  let (s, e) := a
  let x := e.cell c
  let inFree := e.sw.free.has c
  let last (kind : Nat) (e : Eng) : Eng := (e.setFld F.WRD_LAST_KIND 0 kind).setFld F.WRD_LAST_CELL 0 c
  match x.owner with
  | .free =>
    if inFree then a
    else ({ s with lost := s.lost + 1 },
      last 3 (((e.modSw (fun w => { w with free := { w.free with returned := w.free.returned ++ [c] } })).bump
        F.WRD_CNT2_LOST 0 1).post F.WRD_STAT_LOST 0))
  | own =>
    if inFree then
      ({ s with cross := s.cross + 1 },
        last 3 (((e.modSw (fun w => { w with free := { w.free with voided := c :: w.free.voided } })).bump
          F.WRD_CNT2_CROSS 0 1).post F.WRD_STAT_CROSS 0))
    else
      let linked := match own with
        | .thread _ => !x.orphan || live.contains c
        | _ => live.contains c
      if linked then (s, if x.suspect.isSome then e.setCell c { x with suspect := none } else e)
      else if x.suspect = some x.seq then
        ({ s with leaks := s.leaks + 1 }, last 1 (((e.freeCell c).bump F.WRD_CNT1_LEAKS 0 1).post F.WRD_STAT_LEAK 0))
      else (s, e.setCell c { x with suspect := some x.seq })

/-- A cycle of a pass: cell i in cycle i (R191). -/
def Eng.auditStep (e : Eng) : Eng :=
  match e.sw.warden.pass with
  | none => e
  | some c =>
    if e.now < c + 16384 then
      let (s, e) := Eng.auditCell e.liveCells (e.now - c) (e.sw.warden.sum, e)
      e.modSw (fun w => { w with warden := { w.warden with sum := s } })
    else e

/-- A cycle of the Basin: lookups, allocations, releases, the audit. -/
def Eng.basinStep (e : Eng) : Eng := e.lookupsEnd.allocsStep.dropsStep.auditStep

/-- AUDIT_PASS_END: 16,384 cycles after the start the pass ends; what it found (R191 to R195). -/
def Eng.auditEnd (e : Eng) : Eng :=
  match e.sw.warden.pass with
  | none => e
  | some c =>
    if e.now < c + 16384 then e
    else
      let dfrees := e.sw.warden.dfrees
      let s := e.sw.warden.sum
      let e := e.modSw (fun w => { w with warden := { w.warden with pass := none, dfrees := 0 } })
      let e := e.setReg .WRD_AUDITS 0 (e.reg .WRD_AUDITS 0 + 1)
      if s.leaks + s.lost + s.cross + dfrees = 0 then e
      else
        (e.produce 7 domEngine).evq 3 0 (leBytes 2 (min s.leaks 65535) ++ leBytes 2 (min dfrees 65535) ++
          leBytes 2 (min s.lost 65535) ++ leBytes 2 (min s.cross 65535) ++ leBytes 2 (e.fld F.WRD_LAST_CELL 0) ++
          leBytes 1 (e.fld F.WRD_LAST_KIND 0))

end Sys2Proof.Machine
end

