-- ==== Sys2Proof/Machine/Sched.lean ====
section
/-! DEFINITION. Scheduled windows (08_scheduled_windows.md R206 to R226): where windows fall, row sets, the fit rule, receive
checks, synchronisation, exclusive buffers, reference and null frames. Times are in units of 125 ps. -/

namespace Sys2Proof.Machine

def Eng.layer (e : Eng) (n : Nat) : Layer := Tab.get {} e.sch.layers n
def Eng.setLayer (e : Eng) (n : Nat) (x : Layer) : Eng := { e with sch := { e.sch with layers := Tab.put e.sch.layers n x } }
def Eng.modLayer (e : Eng) (n : Nat) (f : Layer → Layer) : Eng := e.setLayer n (f (e.layer n))
def Eng.schBuf (e : Eng) (b : Nat) : SchBuf := Tab.get {} e.sch.bufs b
def Eng.setSchBuf (e : Eng) (b : Nat) (x : SchBuf) : Eng := { e with sch := { e.sch with bufs := Tab.put e.sch.bufs b x } }

/-- Sundial in units of 125 ps. -/
def Eng.t125 (e : Eng) : Int := (e.t80 / 2 ^ 17 : Nat)

/-- Counts on a counter of link n (R232). -/
def Eng.schCount (e : Eng) (n i : Nat) : Eng := e.count 3 n i 1

/-- LNKn_STAT.STATE (R85). -/
def Eng.linkState (e : Eng) (n : Nat) : Nat := e.fld F.LNK_STAT_STATE n
def Eng.linkUp (e : Eng) (n : Nat) : Bool := e.linkState n == 2
def Eng.linkMode (e : Eng) (n : Nat) : Nat := e.fld F.LNK_CFG_MODE n

/-! ### The store -/

/-- A window entry (R208). -/
def Eng.schEntry (e : Eng) (i : Nat) : List Word := Tab.get [0, 0, 0] e.sch.store i

def entOff (x : List Word) : Nat := (x.getD 0 0).toNat + bits (x.getD 1 0).toNat 15 12 * 2 ^ 20
def entTick (x : List Word) : Nat := bits (x.getD 1 0).toNat 7 0
def entType (x : List Word) : Nat := bits (x.getD 1 0).toNat 19 18
def entChk (x : List Word) : Bool := bit (x.getD 1 0).toNat 17
def entBuf (x : List Word) : Nat := bits (x.getD 2 0).toNat 9 0

/-- The reserved bits of an entry are 0, and BUF is 0 unless EXCL (R208, R209). -/
def entOk (x : List Word) : Bool :=
  let w1 := (x.getD 1 0).toNat
  !bit w1 16 && bits w1 11 8 == 0 && bits (x.getD 2 0).toNat 19 10 == 0 && (entType x == 1 || entBuf x == 0)

/-- Entry of window w of row r (R209). -/
def RowSet.index (s : RowSet) (r w : Nat) : Nat := s.base + r * s.wpr + w

def RowSet.size (s : RowSet) : Nat := 2 ^ s.rb * s.wpr

/-- Is an entry inside the row set? -/
def RowSet.has (s : RowSet) (i : Nat) : Bool := decide (s.base ≤ i) && decide (i < s.base + s.size)

/-- The offset of an entry from its frame start (125 ps). -/
def entAt (t : TickSet) (x : List Word) : Nat := entTick x * t.p * 512 + entOff x * 64

/-- The checks of a row set of link n under tick settings (R209). -/
def Eng.rowSetOk (e : Eng) (n : Nat) (s : RowSet) (t : TickSet) : Bool :=
  let g := e.fld F.SCH_LGUARD_G n * 64
  let sync := e.flag F.SCH_LCFG_SYNC n
  let minLen := max 2048 (2 * g)
  let frameLen := t.f * t.p * 512
  decide (1 ≤ s.wpr) && decide (s.wpr ≤ 256) && decide (s.rb ≤ t.m) && decide (s.base + s.size ≤ 16384) &&
  (List.range (2 ^ s.rb)).all (fun r =>
    let row := (List.range s.wpr).map (fun w => e.schEntry (s.index r w))
    let starts := row.map (entAt t)
    row.all (fun x => entOk x && decide (entTick x < t.f) && decide (entOff x < 8 * t.p) &&
      (entType x != 1 || e.fld F.SCH_BCFG_LINK (entBuf x) == n)) &&
    (List.range s.wpr).all (fun w =>
      let a := starts.getD w 0
      let b := if w + 1 < s.wpr then starts.getD (w + 1) 0 else frameLen
      decide (a < b) && decide (minLen ≤ b - a) &&
        ((entType (row.getD w []) == 3) == (sync && w == 0))))

/-! ### Where windows fall (R206) -/

/-- The link cycle count of the frame that starts at index j0. -/
def Eng.lcc (e : Eng) (n j0 : Nat) : Nat := (j0 / e.tick.set.f + (e.layer n).ccoff) % 2 ^ e.tick.set.m

/-- The row set in force for the frame at j0: frames before a take-over keep the set that was in force for them (R209). -/
def Layer.setOf (y : Layer) (j0 : Nat) : RowSet :=
  let s := y.force.getD ⟨0, 0, 1⟩
  match y.prev with
  | some (p, j) => if j0 < j then p else s
  | none => s

/-- Windows per row of the frame at j0. -/
def Eng.winCount (e : Eng) (n j0 : Nat) : Nat := ((e.layer n).setOf j0).wpr

/-- Entry of window w of the frame at j0 in a row set. -/
def Eng.rowEntry (e : Eng) (n : Nat) (s : RowSet) (j0 w : Nat) : List Word := e.schEntry (s.index (e.lcc n j0 % 2 ^ s.rb) w)

/-- The entry of window w of the frame at j0. -/
def Eng.winEntry (e : Eng) (n j0 w : Nat) : List Word := e.rowEntry n ((e.layer n).setOf j0) j0 w

/-- Does window (j, w) come before window (j', w')? -/
def winBefore (j w j' w' : Nat) : Bool := decide (j < j') || (j == j' && decide (w < w'))

/-- D_n of a window: one that was checked before a correction keeps the value it had (R221). -/
def Layer.dOf (y : Layer) (j w : Nat) : Int :=
  match y.dOld.find? (fun x => winBefore j w x.1 x.2.1) with
  | some x => x.2.2
  | none => y.d

/-- ws of window w of the frame at j0; of w = WPR, the frame's end, with the last window's D_n. -/
def Eng.winStart (e : Eng) (n j0 w : Nat) : Int :=
  let t := e.tick.set
  let k := e.winCount n j0
  let base : Int := (t.launch j0 * 8 : Nat)
  if w < k then base + (e.layer n).dOf j0 w + entAt t (e.winEntry n j0 w) else base + (e.layer n).dOf j0 (k - 1) + (t.f * t.p * 512 : Nat)

/-- The check time of a window that starts at `ws` (R207). -/
def Eng.checkTime (e : Eng) (n : Nat) (ws : Int) : Int := ws - 512 * (e.fld F.SCH_LPREP_PREP n : Int)

/-- The window after one. -/
def Eng.winNext (e : Eng) (n j w : Nat) : Nat × Nat := if w + 1 < e.winCount n j then (j, w + 1) else (j + e.tick.set.f, 0)

/-- A correction of D_n: it applies to the windows whose check time is still to come (R221). -/
def Eng.setD (e : Eng) (n : Nat) (d : Int) : Eng :=
  let y := e.layer n
  let due := y.live && decide (e.checkTime n (e.winStart n y.j0 y.w) ≤ e.t125)
  let (j, w) := if due then e.winNext n y.j0 y.w else (y.j0, y.w)
  e.setLayer n { y with d := d, dOld := (y.dOld ++ [(j, w, y.d)]).drop (y.dOld.length - 3) }

/-- The grid frame (its start index) that holds Sundial time u of link n. -/
def Eng.gridFrame (e : Eng) (u : Int) : Option Nat :=
  let t := e.tick.set
  let d := u - (t.e * 8 : Nat)
  if d < 0 then none else some ((d / (t.f * t.p * 512 : Nat)).toNat * t.f)

/-- The window that holds time u: the last window that starts at or before u (R206, R220). -/
def Eng.windowAt (e : Eng) (n : Nat) (u : Int) : Option (Nat × Nat) :=
  match e.gridFrame (u - (e.layer n).d) with
  | none => none
  | some j =>
    let f := e.tick.set.f
    ([j + f, j] ++ (if f ≤ j then [j - f] else [])).findSome? (fun j =>
      ((List.range (e.winCount n j)).reverse.find? (fun w => decide (e.winStart n j w ≤ u))).map (fun w => (j, w)))

/-- Was a window passed over, and so not run (R207)? -/
def Eng.notRun (e : Eng) (n j w : Nat) : Bool := (e.layer n).skipped.contains (j, w)

/-- Do windows of link n run (R207, R224)? -/
def Eng.windowsRun (e : Eng) (n : Nat) : Bool :=
  let y := e.layer n
  y.live && decide (y.st ≠ 0) && y.force.isSome && e.running && decide (1 ≤ e.tick.set.s)

/-- Is the layer on: SCH_LCTL.EN of link n? -/
def Eng.schEn (e : Eng) (n : Nat) : Bool := e.flag F.SCH_LCTL_EN n

/-- The end of the run of ARB windows of one row from window w (R214). -/
def Eng.arbEnd (e : Eng) (n : Nat) (j0 : Nat) : Nat → Nat → Int
  | 0, w => e.winStart n j0 (w + 1)
  | k + 1, w =>
    if w + 1 < e.winCount n j0 ∧ entType (e.winEntry n j0 (w + 1)) = 2 then e.arbEnd n j0 k (w + 1)
    else e.winStart n j0 (w + 1)

/-- The first window of the run of ARB windows that holds window w. -/
def Eng.arbFirst (e : Eng) (n j0 : Nat) : Nat → Nat
  | 0 => 0
  | w + 1 => if entType (e.winEntry n j0 w) = 2 then e.arbFirst n j0 w else w + 1

/-- T_w of a frame of `len` bytes, in ns, rounded up (R214). -/
def Eng.wireTime (e : Eng) (n len : Nat) : Nat :=
  if e.linkMode n = 3 then
    let r := e.val .BSN_RATE n
    ((len + e.fld F.SCH_LOVH_OVH n) * 8000000 + (r - 1)) / r
  else (len + 20) * (if e.flag F.LNK_CFG_SPEED n then 800 else 80)

/-- May a class 0 to 6 frame of `len` bytes start at time u, in units of 125 ps, in an ARB window (R211, R214)? A window that is not run opens
nothing (R207). -/
def Eng.fitsAt (e : Eng) (n len : Nat) (u : Int) : Bool :=
  e.windowsRun n && decide (2 ≤ (e.layer n).st) && e.linkUp n &&
    (match e.windowAt n u with
      | none => false
      | some (j, w) =>
        entType (e.winEntry n j w) == 2 && !e.notRun n j w &&
          decide (u + (8 * e.wireTime n len : Nat) ≤ e.arbEnd n j 256 w - (64 * e.fld F.SCH_LGUARD_G n : Nat)))

/-- May it start now? -/
def Eng.fits (e : Eng) (n len : Nat) : Bool := e.fitsAt n len e.t125

/-! ### Generated frames (R216 to R218) -/

/-- A 16-bit value, high byte first. -/
def be16 (v : Nat) : List Byte := [BitVec.ofNat 8 (v / 256), BitVec.ofNat 8 v]

/-- A CAN identifier register pair: ID and IDE. -/
def Eng.canId (e : Eng) (n : Nat) (null : Bool) : Nat × Bool :=
  if null then (e.val .SCH_LCANNULL0 n + e.fld F.SCH_LCANNULL1_ID_HI n * 2 ^ 20, e.flag F.SCH_LCANNULL1_IDE n)
  else (e.val .SCH_LCANREF0 n + e.fld F.SCH_LCANREF1_ID_HI n * 2 ^ 20, e.flag F.SCH_LCANREF1_IDE n)

/-- A reference (`isRef`) or null frame of window w of the frame at j0, for buffer `buf`, with window start ws. -/
def Eng.genBytes (e : Eng) (n : Nat) (isRef : Bool) (j0 w buf : Nat) (ws : Int) : List Byte :=
  let lcc := e.lcc n j0
  let mpri := e.fld F.SCH_LCFG_MPRI n
  if e.flag F.SCH_LCFG_FRAMING n then
    let (id, ide) := e.canId n (!isRef)
    let id := if isRef then id / 8 * 8 + mpri % 8 else id
    [BitVec.ofNat 8 (b2n ide * 128)] ++ (leBytes 4 id).reverse ++ (if isRef then [1, BitVec.ofNat 8 lcc]
      else [2, BitVec.ofNat 8 w, BitVec.ofNat 8 lcc])
  else
    let hd := be16 (e.val .SCH_RDA2 0) ++ be16 (e.val .SCH_RDA1 0) ++ be16 (e.val .SCH_RDA0 0) ++
      be16 (e.val .SCH_SA2 0) ++ be16 (e.val .SCH_SA1 0) ++ [BitVec.ofNat 8 (e.fld F.SCH_SA0_SA 0), BitVec.ofNat 8 n] ++
      be16 0x88B5 ++ [if isRef then 0x51 else 0x52, BitVec.ofNat 8 (16 + mpri), BitVec.ofNat 8 lcc,
        BitVec.ofNat 8 (if isRef then 0 else w)] ++ be16 (e.fld F.SCH_NODEID_ID 0) ++ be16 (e.fld F.SCH_LSCHID_SCHID n) ++
      be16 (if isRef then 0 else buf) ++ (leBytes 10 (toMod 80 (ws * 2 ^ 17))).reverse
    let body := padTo 60 hd
    body ++ leBytes 4 (2 ^ 32 - 1 - crc32 0xFFFFFFFF body)

/-! ### Exclusive buffers (R213) -/

/-- Is the head of the class 7 queue of link n eligible (R177)? -/
def Frame.eligible (f : Frame) : Bool := (f.ended && !f.bad) || (f.ct && !f.bad)

def Eng.queueHead (e : Eng) (port cls : Nat) : Option (Nat × Frame) :=
  match e.queue port cls with
  | q :: _ => (e.frame q).map (fun f => (q, f))
  | [] => none

/-- The frame that a buffer has ready for a check in this cycle: a commit in the check cycle is not seen (R213). -/
def SchBuf.readyFrame (x : SchBuf) (now : Nat) : Option Nat := if x.commitAt = now then x.old else if x.ready then x.seq else none

/-- READY of a buffer (R213). -/
def Eng.bufReady (e : Eng) (b : Nat) : Bool :=
  if e.flag F.SCH_BCFG_SRC b then
    match e.queueHead (e.fld F.SCH_BCFG_LINK b) 7 with
    | some (_, f) => f.eligible
    | none => false
  else ((e.schBuf b).readyFrame e.now).isSome

/-- Frame q leaves buffer b (R213). -/
def Eng.bufLet (e : Eng) (b q : Nat) : Eng := (e.modFrame q (fun f => { f with buffer := f.buffer.filter (· != b) })).settle q

/-- A buffer lets go of its frame (R213). -/
def Eng.bufDrop (e : Eng) (b : Nat) : Eng :=
  let x := e.schBuf b
  foldS (fun q e => e.bufLet b q) (x.seq.toList ++ x.old.toList) (e.setSchBuf b {})

/-- The end of a cycle: a frame that a commit has replaced leaves its buffer (R213). -/
def Eng.bufsEnd (e : Eng) : Eng :=
  foldS (fun b e =>
    match (e.schBuf b).old with
    | some q => (e.setSchBuf b { e.schBuf b with old := none }).bufLet b q
    | none => e) ((e.sch.bufs.filter (fun x => x.2.old.isSome)).map (·.1)) e

/-- The frame that a buffer holds (R231): its own, until it has left the buffer and its cells are released. -/
def Eng.bufHeld (e : Eng) (b : Nat) : Option Nat :=
  match (e.schBuf b).seq with
  | some q => if (match e.frame q with
      | some f => !f.done
      | none => false) then some q else none
  | none => none

/-- SCH_BCTL.COMMIT by thread t: false for a fault (R213). -/
def Eng.bufCommit (e : Eng) (t b : Nat) : Bool × Eng :=
  let len := e.fld F.SCH_BLEN_LEN t
  if e.flag F.SCH_BCFG_SRC b then (false, e)
  else
    match e.heldChain t (e.fld F.SCH_BHEAD_HEAD t) len with
    | none => (false, e)
    | some l =>
      let x := e.schBuf b
      let (q, e) := e.frameOfCells l { head := 0, cells := 0, len := len, inPort := 31, cls := 7, committed := true,
                                       admitted := true, buffer := [b] }
      let again := decide (x.commitAt = e.now)
      let old := if again then x.old else if x.ready then x.seq else none
      let gone := if again ∨ !x.ready then x.seq else none
      (true, foldS (fun p e => e.bufLet b p) gone.toList (e.setSchBuf b { seq := some q, ready := true, commitAt := e.now, old := old }))

/-- The frame of a READY buffer is handed to link n with launch time ws (R212, R213). -/
def Eng.bufHand (e : Eng) (n b : Nat) (ws : Nat) : Eng :=
  let hand (q : Nat) (e : Eng) : Eng :=
    (e.modFrame q (fun f => { f with sending := f.sending ++ [n], launch := some ws })).modLink n (fun l => { l with
      handed := l.handed ++ [{ seq := some q, gen := none, cls := 7, startCyc := 0, launch := some ws }] })
  if e.flag F.SCH_BCFG_SRC b then
    match e.queueHead n 7 with
    | some (q, _) => hand q (e.unqueue q n)
    | none => e
  else
    let x := e.schBuf b
    match x.readyFrame e.now with
    | none => e
    | some q =>
      let e := hand q e
      if e.flag F.SCH_BCFG_KEEP b ∨ x.seq ≠ some q then e
      else (e.setSchBuf b { x with ready := false }).modFrame q (fun f => { f with buffer := f.buffer.filter (· != b) })

/-! ### States (R222 to R224) -/

/-- A change of schedule state fires SCH_SYNC. -/
def Eng.schState (e : Eng) (n st : Nat) : Eng :=
  if (e.layer n).st = st then e else (e.modLayer n (fun y => { y with st := st })).produce (16 + 8 * n + 3) (n / 8)

/-- The boundaries that the listen timer waits for (R222). -/
def Eng.listenLen (e : Eng) (n : Nat) : Nat := e.fld F.SCH_LCFG_LISTEN n + e.fld F.SCH_LCFG_MPRI n

/-- Entry to LISTEN; the timer starts if the link is UP (R222, R224). -/
def Eng.toListen (e : Eng) (n : Nat) : Eng :=
  let t := if e.linkUp n then some (e.listenLen n) else none
  (e.modLayer n (fun y => { y with listen := t, missRun := 0, resync := 0 })).schState n 1

/-- The link leaves UP: a reference that waits is not processed (R223, R224). -/
def Eng.schLinkDown (e : Eng) (n : Nat) : Eng :=
  let e := if (e.layer n).refRx.isSome then e.modLayer n (fun y => { y with refRx := none }) else e
  let y := e.layer n
  if 3 ≤ y.st then e.toListen n
  else if y.st = 1 then e.setLayer n { y with listen := none }
  else e

/-- The link returns to UP (R224). -/
def Eng.schLinkUp (e : Eng) (n : Nat) : Eng :=
  let y := e.layer n
  if y.st = 1 ∧ !y.enter then e.setLayer n { y with listen := some (e.listenLen n) } else e

/-- Ticks stop: layers with SYNC = 1 enter LISTEN; all resume at a grid frame boundary after ticks run again (R224). -/
def Eng.schTicksStop (e : Eng) : Eng :=
  foldS (fun n e =>
    if (e.layer n).st = 0 then e
    else
      let e := if e.flag F.SCH_LCFG_SYNC n then e.toListen n else e
      e.modLayer n (fun y => { y with live := false, enter := true, listen := none })) (List.range 24) e

/-- New tick settings: the row sets of enabled links are checked again (R210). -/
def Eng.schRecheck (e : Eng) : Eng :=
  foldS (fun n e =>
    if !e.schEn n then e
    else
      let ok := match (e.layer n).force with
        | some s => e.rowSetOk n s e.tick.set
        | none => false
      if ok then e.modLayer n (fun y => { y with live := false, enter := true, again := true, fb := (e.gridFrame e.t125).getD 0 })
      else
        let e := (e.setFld F.SCH_LCTL_EN n 0).post F.SCH_LSTAT_TIKERR n
        (e.modLayer n (fun y => { y with live := false, listen := none })).schState n 0) (List.range 24) e

/-- EN set to 1: is it legal (R207, R214, R219, R230)? -/
def Eng.schEnOk (e : Eng) (n : Nat) : Bool :=
  let reed := e.linkMode n == 3
  let can := e.flag F.SCH_LCFG_FRAMING n
  decide (1 ≤ e.tick.set.s) && (e.layer n).force.isSome && (!reed || decide (e.val .BSN_RATE n ≠ 0)) && (!can || reed) &&
    (!e.flag F.SCH_LCFG_SYNC n || (if can then e.fwdKind n == 2 && decide (3 ≤ e.fld F.FWD_PCFG_FOFF n) else e.fwdKind n == 1))

/-- SCH_LCTL.EN set to 1 (R222). -/
def Eng.schEnable (e : Eng) (n : Nat) : Eng :=
  let e := e.setFld F.SCH_LCTL_EN n 1
  let y := e.layer n
  if y.st ≠ 0 then e.setLayer n { y with offDue := false }
  else
    let fb := (e.gridFrame e.t125).getD 0
    let e := e.setLayer n { y with d := 0, dOld := [], prev := none, skipped := [], ccoff := 0, live := false, enter := true, offDue := false, listen := none, fb := fb,
                                   missRun := 0, resync := 0 }
    e.schState n (if e.flag F.SCH_LCFG_SYNC n then 1 else 2)

/-- SCH_LCTL.EN set to 0: OFF from the next grid frame boundary (R222). -/
def Eng.schDisable (e : Eng) (n : Nat) : Eng :=
  let c := e.now + 1
  let e := e.setFld F.SCH_LCTL_EN n 0
  if (e.layer n).st = 0 then e else e.modLayer n (fun y => { y with offDue := true, offAt := c })

/-- GRID_FRAME_BOUNDARY of link n (R222, R224). -/
def Eng.gridBoundary (e : Eng) (n : Nat) : Eng :=
  let y := e.layer n
  match e.gridFrame e.t125 with
  | none => e
  | some j =>
    if y.st = 0 ∨ j ≤ y.fb then e
    else
      let e := e.setLayer n { y with fb := j }
      if y.offDue then
        (e.modLayer n (fun y => { y with offDue := false, live := false, listen := none, enter := false, again := false, refRx := none })).schState n 0
      else if y.enter then
        if !e.running then e
        else
          let e := e.modLayer n (fun z => { z with enter := false, again := false, live := true, j0 := j, w := 0 })
          if e.flag F.SCH_LCFG_SYNC n then (if y.again ∨ y.st = 1 then e.toListen n else e) else e.schState n 2
      else
        match y.listen with
        | some k => e.modLayer n (fun y => { y with listen := some (k - 1) })
        | none => e

/-- LISTEN_TIMER_EXPIRY (R222). -/
def Eng.listenExpiry (e : Eng) (n : Nat) : Eng :=
  let y := e.layer n
  if y.st ≠ 1 ∨ y.listen ≠ some 0 then e
  else if !e.linkUp n then e.setLayer n { y with listen := none }
  else if e.fld F.SCH_LCFG_MPRI n = 15 then e.setLayer n { y with listen := some (e.listenLen n) }
  else (e.setLayer n { y with listen := none }).schState n 3

/-! ### Row sets in force (R209) -/

/-- SCH_LCTL.APPLY: the checks start; false where they will fail. -/
def Eng.rowApply (e : Eng) (n : Nat) : Bool × Eng :=
  let s : RowSet := ⟨e.fld F.SCH_LROW_BASE n, e.fld F.SCH_LROW_RB n, e.fld F.SCH_LWPR_WPR n⟩
  let ok := e.rowSetOk n s e.tick.set
  (ok, e.modLayer n (fun y => { y with check := some (s, e.now + 3 * s.size + 16, ok) }))

/-- The first check time of the frame at j0 under a row set. -/
def Eng.firstCheck (e : Eng) (n : Nat) (s : RowSet) (j0 : Nat) : Int :=
  e.checkTime n ((e.tick.set.launch j0 * 8 : Nat) + (e.layer n).d + entAt e.tick.set (e.rowEntry n s j0 0))

/-- The first matrix boundary whose first check time under a row set falls after this cycle (R209). -/
def Eng.takeBoundary (e : Eng) (n : Nat) (s : RowSet) : Nat :=
  let t := e.tick.set
  let m := t.f * 2 ^ t.m
  let u := e.t125 - e.firstCheck n s 0
  if u < 0 then 0 else ((u / (m * t.p * 512 : Nat)).toNat + 1) * m

/-- ROW_SET_CHECKS_END. -/
def Eng.rowChecksEnd (e : Eng) (n : Nat) : Eng :=
  match (e.layer n).check with
  | none => e
  | some (s, c, ok) =>
    if e.now < c then e
    else
      let e := e.modLayer n (fun y => { y with check := none })
      if ok then e.modLayer n (fun y => { y with pend := some (s, e.t125, e.takeBoundary n s) }) else e.post F.SCH_LSTAT_APPLY_ERR n

/-- Is a pending set's take-over due: with EN = 0 in the cycle after its checks, else at its first check in the frame of its matrix
boundary (R209)? -/
def Eng.takeoverDue (e : Eng) (n : Nat) : Bool :=
  match (e.layer n).pend with
  | none => false
  | some (s, u, j) => if !e.schEn n then decide (u < e.t125) else decide (e.firstCheck n s j ≤ e.t125)

/-- ROW_SET_TAKE_EFFECT. -/
def Eng.rowTakeEffect (e : Eng) (n : Nat) : Eng :=
  if !e.takeoverDue n then e
  else
    match (e.layer n).pend with
    | none => e
    | some (s, _, j) => e.modLayer n (fun y => { y with
        force := some s, pend := none, prev := if e.schEn n then y.force.map (fun p => (p, j)) else none })

/-- SCH_LCTL.CANCEL. -/
def Eng.rowCancel (e : Eng) (n : Nat) : Eng :=
  if e.takeoverDue n then e.rowTakeEffect n else e.modLayer n (fun y => { y with pend := none })

/-! ### Windows (R207, R211, R212, R218) -/

/-- A generated frame is handed to link n with launch time ws. -/
def Eng.handGen (e : Eng) (n : Nat) (isRef : Bool) (j0 w buf : Nat) (ws : Int) : Eng :=
  let g : GenFrame := ⟨e.genBytes n isRef j0 w buf ws, isRef⟩
  e.modLink n (fun l => { l with
    handed := l.handed ++ [{ seq := none, gen := some g, cls := 7, startCyc := 0, launch := some (toMod 80 (ws * 2 ^ 17)) }] })

/-- Does the frame at j0 wait for a pending row set, which is in force from its matrix boundary on (R209)? -/
def Layer.awaits (y : Layer) (j0 : Nat) : Bool :=
  match y.pend with
  | some (_, _, j) => decide (j ≤ j0)
  | none => false

/-- WINDOW_CHECK of link n. -/
def Eng.windowCheck (e : Eng) (n : Nat) : Eng :=
  let e := e.rowTakeEffect n
  let y := e.layer n
  let ws := e.winStart n y.j0 y.w
  if !e.windowsRun n ∨ y.awaits y.j0 ∨ e.t125 < e.checkTime n ws then e
  else
    let nx := e.winNext n y.j0 y.w
    let e1 := e.setLayer n { y with j0 := nx.1, w := nx.2 }
    if ws < e.t125 then
      (e1.modLayer n (fun z => { z with
        skipped := z.skipped.filter (fun x => decide (y.j0 ≤ x.1 + 2 * e.tick.set.f)) ++ [(y.j0, y.w)] })).schCount n 13
    else
      let x := e.winEntry n y.j0 y.w
      let sends := y.st == 2 || y.st == 3 || y.st == 4
      if !sends ∨ !e.linkUp n then e1
      else
        match entType x with
        | 1 =>
          let b := entBuf x
          if e.bufReady b then e1.bufHand n b (toMod 80 (ws * 2 ^ 17))
          else (e1.schCount n 2).handGen n false y.j0 y.w b ws
        | 3 => if y.st = 3 then e1.handGen n true y.j0 y.w 0 ws else e1
        | _ => e1

/-! ### Receive checks and references (R219 to R222) -/

/-- The window a received frame belongs to, with d (R220). -/
def Eng.rxWindow (e : Eng) (n : Nat) (x : Int) : Option (Nat × Nat × Int) :=
  let lat : Int := (8 * e.val .SCH_LRXLAT n : Nat)
  (e.windowAt n (x - lat + (64 * e.fld F.SCH_LGUARD_G n : Nat))).map (fun jw =>
    (jw.1, jw.2, x - (e.winStart n jw.1 jw.2 + lat)))

/-- The check of a frame at its start: true where it is rejected (R220); in a window that is not run nothing is checked (R207). -/
def Eng.rxCheck (e : Eng) (n : Nat) (sof : Nat) : Bool × Eng :=
  let y := e.layer n
  if !e.windowsRun n ∨ y.st < 2 then (false, e)
  else
    match e.rxWindow n (sof / 2 ^ 17 : Nat) with
    | none => (false, e)
    | some (j, w, d) =>
      let x := e.winEntry n j w
      let j8 : Int := (64 * e.fld F.SCH_LJIT_J n : Nat)
      let g8 : Int := (64 * e.fld F.SCH_LGUARD_G n : Nat)
      if e.notRun n j w ∨ (!(entChk x) ∧ !(entType x = 3 ∧ y.st ≠ 3)) then (false, e)
      else if g8 < d then (true, e)
      else if j8 < d then (false, e.schCount n 5)
      else if d < -j8 then (false, e.schCount n 4)
      else (false, e)

/-- Is the frame a reference or null frame by its header (R219)? -/
def Eng.recognises (e : Eng) (n : Nat) (hdr : List Byte) : Bool :=
  if (e.layer n).st = 0 then false
  else if e.flag F.SCH_LCFG_FRAMING n then
    let (id, ide) := e.canId n false
    let got := (leVal ((hdr.drop 1).take 4).reverse)
    decide (5 ≤ hdr.length) && byteAt hdr 0 == b2n ide * 128 && got / 8 == id / 8
  else
    decide (14 ≤ hdr.length) && decide (hdr.take 6 = be16 (e.val .SCH_RDA2 0) ++ be16 (e.val .SCH_RDA1 0) ++ be16 (e.val .SCH_RDA0 0)) &&
      decide ((hdr.drop 12).take 2 = be16 0x88B5)

/-- A recognised frame at its last word (R219): a reference waits to be processed. A frame that holds another SCHID counts in IDERR, also where it
ended bad. -/
def Eng.readRecognised (e : Eng) (n : Nat) (hdr : List Byte) (len : Nat) (bad : Bool) (sof : Nat) : Eng :=
  let can := e.flag F.SCH_LCFG_FRAMING n
  let ref (e : Eng) : Eng := e.modLayer n (fun y => { y with refRx := some (hdr, sof) })
  if !can ∧ 22 ≤ len ∧ hdrByte hdr 21 * 256 + hdrByte hdr 22 ≠ e.fld F.SCH_LSCHID_SCHID n then e.schCount n 11
  else if bad ∨ (!can ∧ len < 22) then e.schCount n 12
  else if can then (if len = 7 ∧ byteAt hdr 5 = 1 then ref e else e.schCount n 12)
  else if hdrByte hdr 15 = 0x51 ∧ len = 64 ∧ hdrByte hdr 16 / 16 = 1 then ref e
  else if hdrByte hdr 15 = 0x52 then e.schCount n 3
  else e.schCount n 12

/-- Is the received priority better (lower) than the link's own, or equal (R222)? -/
def Eng.refPriority (e : Eng) (n : Nat) (hdr : List Byte) : Bool × Bool :=
  let own := e.fld F.SCH_LCFG_MPRI n
  if e.flag F.SCH_LCFG_FRAMING n then
    let p := hdrByte hdr 5 % 8
    (decide (p < own), p == own)
  else
    let p := hdrByte hdr 16 % 16
    let id := hdrByte hdr 19 * 256 + hdrByte hdr 20
    let ownId := e.fld F.SCH_NODEID_ID 0
    (decide (p < own) || (p == own && decide (id < ownId)), p == own && id == ownId)

/-- Half the frame length (125 ps). -/
def Eng.halfFrame (e : Eng) : Int := (e.tick.set.f * e.tick.set.p * 256 : Nat)

/-- Join (R222): the frame nearest to x, and |x − e|; `listen`: from LISTEN, where a large |x − e| may lead to SILENT. A correction that would make
|D_n| greater than half the frame length is not applied, and the link enters LISTEN (R221). -/
def Eng.schJoin (e : Eng) (n : Nat) (s : RowSet) (x : Int) (rlcc : Nat) (listen : Bool) : Eng :=
  let t := e.tick.set
  let y := e.layer n
  let lat : Int := (8 * e.val .SCH_LRXLAT n : Nat)
  let off : Int := (entAt t (e.schEntry (s.index (rlcc % 2 ^ s.rb) 0)) : Nat) + lat + y.d
  let exp (j : Nat) : Int := (t.launch j * 8 : Nat) + off
  let j := (e.gridFrame e.t125).getD 0
  let js := (if t.f ≤ j then [j - t.f] else []) ++ [j, j + t.f]
  let dist (k : Nat) : Nat := (x - exp k).natAbs
  let best := js.foldl (fun b k => if dist k < dist b then k else b) j
  let o := x - exp best
  let align := e.flag F.SCH_LCFG_ALIGN n
  let m := 2 ^ t.m
  if align ∧ e.halfFrame < (y.d + o).natAbs then e.toListen n
  else
    let e := if align then e.setD n (y.d + o) else e
    let cc := (rlcc + m - (best / t.f) % m) % m
    let e := e.modLayer n (fun y => { y with ccoff := cc, listen := none, missRun := 0, resync := 0, refDone := best + 1 })
    e.schState n (if listen ∧ !align ∧ 8 * e.val .SCH_LOFFMAX n < o.natAbs then 5 else 4)

/-- An accepted reference in FOLLOWER or SILENT (R221, R222). -/
def Eng.schOffset (e : Eng) (n j0 : Nat) (o : Int) : Eng :=
  let y := e.layer n
  let within := decide (o.natAbs ≤ 8 * e.val .SCH_LOFFMAX n)
  let e := e.setReg .SCH_LOFS n (word (toMod 20 (max (-0x7FFFF) (min 0x7FFFF o))))
  let e := e.produce (16 + 8 * n + 4) (n / 8)
  let e := e.modLayer n (fun y => { y with missRun := 0, refDone := j0 + 1 })
  let e :=
    if y.st = 4 then (if within then e else ((e.schCount n 9).modLayer n (fun y => { y with resync := 0 })).schState n 5)
    else if !within then e.modLayer n (fun y => { y with resync := 0 })
    else if e.fld F.SCH_LCFG_RESYNC n ≤ y.resync + 1 then (e.modLayer n (fun y => { y with resync := 0 })).schState n 4
    else e.modLayer n (fun y => { y with resync := y.resync + 1 })
  if !e.flag F.SCH_LCFG_ALIGN n then e
  else if e.halfFrame < ((e.layer n).d + o).natAbs then e.toListen n
  else e.setD n ((e.layer n).d + o)

/-- A reference received in FOLLOWER or SILENT (R221). -/
def Eng.schFollow (e : Eng) (n : Nat) (x : Int) (rlcc : Nat) : Eng :=
  match e.rxWindow n x with
  | some (j, w, d) =>
    if entType (e.winEntry n j w) ≠ 3 ∨ e.notRun n j w ∨ (64 * e.fld F.SCH_LGUARD_G n : Nat) < d then e
    else
      let e := e.schCount n 1
      if rlcc = e.lcc n j then e.schOffset n j d else (e.schCount n 10).toListen n
  | none => e

/-- A reference is processed (R220 to R222, R226). -/
def Eng.refReceive (e : Eng) (n : Nat) : Eng :=
  let y := e.layer n
  match y.refRx, y.force with
  | some (hdr, sof), some s =>
    let e := e.setLayer n { y with refRx := none }
    if !e.linkUp n then e
    else
      let can := e.flag F.SCH_LCFG_FRAMING n
      let x : Int := (sof / 2 ^ 17 : Nat)
      let rlcc := (if can then hdrByte hdr 7 else hdrByte hdr 17) % 64
      let e := if can ∧ 128 ≤ hdrByte hdr 7 then e.schCount n 16 else e
      let (better, equal) := e.refPriority n hdr
      match y.st with
      | 1 => (e.schCount n 1).schJoin n s x rlcc true
      | 3 =>
        let e := e.schCount n 1
        if better then (e.schCount n 8).schJoin n s x rlcc false else if equal then e.schCount n 15 else e
      | 4 => e.schFollow n x rlcc
      | 5 => e.schFollow n x rlcc
      | _ => e
  | _, _ => e

/-- The REF window of the frame has ended with no accepted reference (R222). -/
def Eng.refMiss (e : Eng) (n : Nat) : Eng :=
  let y := e.layer n
  if !e.windowsRun n ∨ y.st < 4 then e
  else
    match e.rxWindow n e.t125 with
    | none => e
    | some (j, w, _) =>
      let fr := if w = 0 then j - e.tick.set.f else j
      if (w = 0 ∧ (j < e.tick.set.f ∨ 1 < e.winCount n fr)) ∨ fr + 1 ≤ y.refDone ∨ e.notRun n fr 0 then e
      else
        let e := e.schCount n 7
        let k := y.missRun + 1
        if e.fld F.SCH_LCFG_MISSMAX n ≤ k then (e.modLayer n (fun y => { y with refDone := fr + 1 })).toListen n
        else e.modLayer n (fun y => { y with refDone := fr + 1, missRun := k })

/-! ### Events of one cycle (R223) -/

/-- REFERENCE_RECEIVE, REF_WINDOW_MISS and LISTEN_TIMER_EXPIRY: each is taken at the end of its cycle. -/
def Eng.refEvent (e : Eng) (n : Nat) : Eng := if (e.layer n).refRx.isSome then e.modLayer n (fun y => { y with evRef := true }) else e
def Eng.missEvent (e : Eng) (n : Nat) : Eng := if 4 ≤ (e.layer n).st then e.modLayer n (fun y => { y with evMiss := true }) else e
def Eng.listenEvent (e : Eng) (n : Nat) : Eng := if (e.layer n).st = 1 then e.modLayer n (fun y => { y with evExpiry := true }) else e

/-- The first of a cycle's events at link n stands: EN set to 0, the link leaving UP, a reference, a miss, the listen timer (R223); the link has
left UP in `Eng.linksEnd`. -/
def Eng.schEvents (e : Eng) (n : Nat) : Eng :=
  let y := e.layer n
  let e := e.setLayer n { y with evRef := false, evMiss := false, evExpiry := false }
  if y.offAt = e.now + 1 then e.modLayer n (fun y => { y with refRx := none })
  else if !e.linkUp n then e
  else if y.evRef ∧ y.refRx.isSome then e.refReceive n
  else if y.evMiss ∧ 4 ≤ y.st then e.refMiss n
  else if y.evExpiry then e.listenExpiry n
  else e

/-- The end of a cycle at the schedule layers and buffers. -/
def Eng.schedEnd (e : Eng) : Eng :=
  (foldS (fun n e => e.schEvents n) ((e.sch.layers.filter (fun x => x.2.evRef || x.2.evMiss || x.2.evExpiry)).map (·.1)) e).bufsEnd

end Sys2Proof.Machine
end

