-- ==== Sys2Proof/Machine/Pins.lean ====
section
/-! DEFINITION. The pin groups (04_link_ports.md R78 to R84; 05_reeds.md R101 to R104): which reed is bound to which link, what the link logic and
the reeds drive, the levels of the signals. -/

namespace Sys2Proof.Machine

def Eng.reed (e : Eng) (k : Nat) : Reed := Tab.get {} e.reeds k
def Eng.setReed (e : Eng) (k : Nat) (r : Reed) : Eng := { e with reeds := Tab.put e.reeds k r }
def Eng.modReed (e : Eng) (k : Nat) (f : Reed → Reed) : Eng := e.setReed k (f (e.reed k))

/-- The pavilion of a reed. -/
def reedPav (k : Nat) : Nat := k / 16

/-! ### Bindings (R84, R101) -/

/-- Does a BIND field of a link name local reed j? -/
def bindNames (f j : Nat) : Bool := f == 16 + j

/-- The links of a reed's pavilion. -/
def reedLinks (k : Nat) : List Nat := (List.range 8).map (fun i => 8 * reedPav k + i)

/-- The link for which a reed is RXR, TXR, and the link that names it (R84, R101). -/
def Eng.rxLink (e : Eng) (k : Nat) : Option Nat := (reedLinks k).find? (fun n => bindNames (e.fld F.LNK_BIND_RXR n) (k % 16))
def Eng.txLink (e : Eng) (k : Nat) : Option Nat := (reedLinks k).find? (fun n => bindNames (e.fld F.LNK_BIND_TXR n) (k % 16))

/-- The local reed numbers that a BIND value names. -/
def boundReeds (v : Nat) : List Nat := ([bits v 4 0, bits v 9 5, bits v 14 10, bits v 19 15].filter (fun f => 16 ≤ f)).map (· - 16)

def Eng.reedLink (e : Eng) (k : Nat) : Option Nat :=
  (reedLinks k).find? (fun n => (boundReeds (e.val .LNK_BIND n)).contains (k % 16))

/-- The reeds that link n binds. -/
def Eng.linkReeds (e : Eng) (n : Nat) : List Nat := (boundReeds (e.val .LNK_BIND n)).map (16 * (n / 8) + ·)

def Eng.oemask (e : Eng) (k : Nat) : Nat := e.val .REED_PINS k

/-! ### The transmit signals of the MII and RMII logic (R80 to R83, R89, R185). Its transmit clock has its nominal rate from the edge of a frame's
start on (assumption 24). -/

/-- The mode and speed of a link's MII or RMII logic. -/
def Eng.mac (e : Eng) (n : Nat) : Mac := ⟨e.linkMode n, e.flag F.LNK_CFG_SPEED n⟩

/-- Cycles of one byte. -/
def Mac.byteCyc (m : Mac) : Nat := if m.slow then 400 else 40

/-- Cycles of one nibble (MII) or dibit (RMII). -/
def Mac.symCyc (m : Mac) : Nat := m.byteCyc / (if m.mode = 1 then 2 else 4)

/-- Cycles of one period of the transmit clock: TX_CLK, or REF_CLK, which does not slow down at 10 Mbit/s (R80, R83). -/
def Mac.txClkCyc (m : Mac) : Nat := if m.mode = 1 then m.symCyc else 10

/-- The first transmit clock edge in cycle `c` or later. -/
def Mac.txEdgeFrom (m : Mac) (s : Sending) (c : Nat) : Nat :=
  let p := m.txClkCyc
  s.startCyc + (c - s.startCyc + p - 1) / p * p

/-- The cycle in which TX_ER rises for an abort, in MII mode (R89, R185). -/
def Mac.txErAt (m : Mac) (s : Sending) : Nat := if s.clkLost then s.abortAt + 3 else m.txEdgeFrom s (s.abortAt + 2)

/-- The symbol with which the 4 bytes of an aborted frame begin, in RMII mode: the byte in progress completes (R185). -/
def Mac.fcsSym (m : Mac) (s : Sending) : Nat := ((s.abortAt - s.startCyc) / m.symCyc / 4 + 1) * 4

/-- The cycle in which TX_EN falls: after a frame of `len` bytes, or after its abort sequence (R81, R89, R185). -/
def Mac.txEnFall (m : Mac) (s : Sending) (len : Nat) : Nat :=
  if !s.abort then s.startCyc + (8 + len) * m.byteCyc
  else if s.clkLost then s.abortAt + (if m.mode = 1 then 403 else 3)
  else if m.mode = 1 then m.txErAt s + 2 * m.txClkCyc
  else s.startCyc + (m.fcsSym s + 16) * m.symCyc

/-- Byte `i` on the line: preamble, delimiter, the frame (R81). -/
def Sending.lineByte (s : Sending) (i : Nat) : Nat :=
  if i < 7 then 0x55 else if i = 7 then 0xD5 else byteAt s.out (i - 8 - s.outAt)

/-- TXD in cycle `now`: the nibbles of a byte, or its dibits, least significant first; 0 in an abort in MII mode, the uninverted CRC-32 of the
bytes sent in RMII mode (R185). -/
def Mac.txd (m : Mac) (now : Nat) (s : Sending) : Nat :=
  let i := (now - s.startCyc) / m.symCyc
  if m.mode = 1 then
    if s.abort ∧ m.txErAt s ≤ now then 0 else s.lineByte (i / 2) / 16 ^ (i % 2) % 16
  else if s.abort ∧ s.clkLost ∧ s.abortAt + 3 ≤ now then 0
  else if s.abort ∧ !s.clkLost ∧ m.fcsSym s ≤ i then s.crc / 4 ^ (i - m.fcsSym s) % 4
  else s.lineByte (i / 4) / 4 ^ (i % 4) % 4

/-- The bytes of a frame that have left the port whole by the start of cycle `now` (R97, R185). -/
def Mac.bytesSent (m : Mac) (now : Nat) (s : Sending) : Nat :=
  let all := (now - s.startCyc) / m.byteCyc
  let stop := if !s.abort then all
    else if s.clkLost then (s.abortAt + 3 - s.startCyc) / m.byteCyc
    else if m.mode = 1 then (m.txErAt s - s.startCyc) / m.byteCyc
    else m.fcsSym s / 4
  min all stop - 8

/-- The bytes that have left the port leave the mover's buffer (R94) and enter the CRC-32 of what was sent (R185). -/
def Mac.shift (m : Mac) (now : Nat) (s : Sending) : Sending :=
  let k := min (m.bytesSent now s - s.outAt) s.out.length
  { s with out := s.out.drop k, outAt := s.outAt + k, crc := crc32 s.crc (s.out.take k) }

/-- The transmit signals of a frame in transmission: which, and their levels (R80, R82). -/
def Mac.drive (m : Mac) (now : Nat) (s : Sending) : Nat × Nat :=
  if m.mode = 1 then (0x7E, 2 + 4 * b2n (s.abort && decide (m.txErAt s ≤ now)) + 8 * m.txd now s)
  else (0xE, 2 * b2n (!(s.abort && s.clkLost && decide (s.abortAt + 3 ≤ now))) + 4 * m.txd now s)

/-- What the MII or RMII logic drives: its transmit signals while EN is 1 and to the end of the frame in progress, REF_CLK with REFOUT whatever
EN is (R80, R82, R83, R531). -/
def Eng.macDrive (e : Eng) (n : Nat) : Nat × Nat :=
  let m := e.mac n
  let l := e.getLink n
  let tx : Nat × Nat := match l.tail with
    | some (m, s) => m.drive e.now s
    | none =>
      match l.eg.bind (fun s => if s.started then some s else none) with
      | some s => m.drive e.now s
      | none => if e.flag F.LNK_CTL_EN n then (if m.mode = 1 then 0x7E else 0xE, 0) else (0, 0)
  let ref := m.mode == 2 && e.flag F.LNK_CFG_REFOUT n
  if l.tail.isSome ∨ m.mode = 1 ∨ m.mode = 2 then (tx.1 + b2n ref, tx.2 + b2n (ref && decide (e.now % 10 < 5))) else (0, 0)

/-- What a reed drives: the signals of its OEMASK whose enable is 1 (R103), in MII and RMII modes the spare ones alone (R84). -/
def Eng.reedDrive (e : Eng) (k : Nat) : Nat × Nat :=
  let m := e.oemask k &&& (e.reed k).enables
  (m, (e.reed k).levels &&& m)

/-- The signals of a link that the block drives, with their levels; none in OFF mode, but for an abort sequence that
an engine reset left (R78, R101, R483), and none while a self-test runs (R493). -/
def Eng.driven (e : Eng) (n : Nat) : Nat × Nat :=
  if e.sys.bist.isSome then (0, 0)
  else if e.linkMode n = 0 then e.macDrive n
  else (e.linkReeds n).foldl (fun a k => (a.1 ||| (e.reedDrive k).1, a.2 ||| (e.reedDrive k).2)) (e.macDrive n)

/-! ### Levels (R66, R101, R102) -/

/-- The levels of a link's signals where the outside gives `ext`: those that the block drives have its levels (R102). -/
def Eng.levelsWith (e : Eng) (n ext : Nat) : Nat :=
  let (m, v) := e.driven n
  (ext &&& (0xFFFF - m)) ||| v

/-- Edges of the output clock pin, noted for the reeds of the link that take their output ticks from one: the output changes three cycles
later (R107). -/
def Eng.noteEdges (e : Eng) (n pos old new : Nat) : Eng :=
  foldS (fun k e =>
    let p := e.fld F.REED_CLK_OPIN k
    let fall := e.flag F.REED_CLK_OEDGE k
    if e.flag F.REED_CLK_OSRC k ∧ bit old p = fall ∧ bit new p = !fall then
      e.modReed k (fun r => { r with edges := r.edges.filter (fun x => decide (pos < x + 64 ∧ x ≠ pos)) ++ [pos] })
    else e) (e.linkReeds n) e

/-- The signals of link n have their levels anew from a phase of this cycle on. -/
def Eng.relevel (e : Eng) (n phase : Nat) : Eng :=
  let pos := 16 * e.now + phase
  let v := e.levelsWith n (e.getLink n).ext
  let e := e.modLink n (fun l => l.setPins pos v)
  e.noteEdges n pos (e.getLink n).before v

/-- The outside gives the signals of link n levels from a phase of this cycle on. -/
def Eng.setExt (e : Eng) (n phase pins : Nat) : Eng := (e.modLink n (fun l => { l with ext := pins })).relevel n phase

/-- Levels of the pins of a reed's link from a phase of this cycle on. -/
def Eng.setPins (e : Eng) (k phase pins : Nat) : Eng :=
  match e.reedLink k with
  | some n => e.setExt n phase pins
  | none => e

/-- What a reed drives has changed at a phase of this cycle. -/
def Eng.reedRelevel (e : Eng) (k phase : Nat) : Eng :=
  match e.reedLink k with
  | some n => e.relevel n phase
  | none => e

/-- The level of a signal as a reed sees it: `f` picks the levels; an unbound reed reads 0. -/
def Eng.pinLevel (e : Eng) (k : Nat) (f : Link → Nat) (pin : Nat) : Bool :=
  match e.reedLink k with
  | some n => bit (f (e.getLink n)) pin
  | none => false

/-- Did the signal of a reed's link have an edge, rising or falling, at a phase of this cycle (R107)? -/
def Eng.pinEdge (e : Eng) (k pin phase : Nat) (fall : Bool) : Bool :=
  match e.reedLink k with
  | some n =>
    let l := e.getLink n
    l.chg == 16 * e.now + phase + 1 && bit l.before pin == fall && bit l.pins pin == !fall
  | none => false

/-- A cycle begins: what the block drives at its phase 0 (R83, R104). -/
def Eng.pinsDue (e : Eng) : Eng :=
  foldS (fun n e => e.relevel n 0) ((List.range 24).filter (fun n => Tab.has e.links n || (e.driven n).1 != 0)) e

/-- A cycle ends: the levels at its phase 15 (R102). -/
def Eng.pinShift (e : Eng) : Eng := { e with links := e.links.map (fun l => (l.1, l.2.nextCycle)) }

end Sys2Proof.Machine
end

