-- ==== Sys2Proof/Machine/Links.lean ====
section
/-! DEFINITION. Link ports and the switched path (04_link_ports.md R78 to R98; 07_basin_switching.md R162 to R199): frames in, the
commit of verdicts, link states, flushes, frames out. -/

namespace Sys2Proof.Machine

/-! ### The commit of a verdict (R171, R175, R181, R186) -/

/-- A link's rate in kbit/s (R182). -/
def Eng.linkRate (e : Eng) (n : Nat) : Nat :=
  match e.linkMode n with
  | 0 => 0
  | 3 => e.val .BSN_RATE n
  | _ => if e.flag F.LNK_CFG_SPEED n then 10000 else 100000

/-- LNKn_STAT.FLUSHING: from the start through the cycle of the last release (R92). -/
def Eng.flushing (e : Eng) (n : Nat) : Bool :=
  let l := e.getLink n
  !l.flush.isEmpty || decide (e.now + 8 ≤ l.flushAt)

/-- Is an egress link idle for cut-through (R181, R214)? -/
def Eng.egressIdle (e : Eng) (n : Nat) : Bool :=
  (e.getLink n).eg.isNone && (e.getLink n).handed.isEmpty && (List.range 8).all (fun c => (e.queue n c).isEmpty) &&
    (!e.schEn n || e.fits n (e.val .LNK_MAXLEN n))

/-- The ports of a mask, ascending (R20). -/
def maskPorts (m : Nat) : List Nat := (List.range 25).filter (bit m)

/-- The conditions of cut-through but the Sluice's (R181). -/
def Eng.ctOk (e : Eng) (f : Frame) (v : Verdict) (ovr : Bool) : Bool :=
  match maskPorts v.mask with
  | [p] => !ovr && !v.trap && decide (f.inPort < 24) && decide (p < 24) && decide (v.cls ≤ 6) && e.linkUp p && e.egressIdle p &&
      decide (e.linkRate p ≠ 0) && decide (e.linkRate f.inPort ≠ 0) && decide (e.linkRate p ≤ e.linkRate f.inPort)
  | _ => false

/-- HRG ring of port 24's class c. -/
def rxRing (c : Nat) : Nat := 10 + c

/-- Steps 2 and 3 of the Sluice at one port, with the ports that are no port of a link that is UP or in FLAP_HOLD and no RXQ that
is on left out before them (R87, R186, R188, R424); a flush finds its link not UP (R92). -/
def Eng.sluicePort (cls p : Nat) (a : List Nat × Frame × Eng) : List Nat × Frame × Eng :=
  let (l, f, e) := a
  let k := queueKey p cls
  let quota := e.fld F.SLU_QUOTA_CELLS k
  if p < 24 ∧ (e.linkState p ≤ 1 ∨ e.flushing p) then (l, f.fail p 2, e.count 0 p 14 1)
  else if p = 24 ∧ e.ringState (rxRing cls) = 0 then (l, f.fail p 1, e.count 2 0 6 1)
  else if quota ≠ 0 ∧ quota ≤ e.queueCells p cls then (l, f.fail p 1, e.sluCount .SLU_DQUOTA p cls)
  else if 32768 ≤ e.entriesUsed + l.length then (l, f.fail p 1, e.sluCount .SLU_DENTRY p cls)
  else (l ++ [p], f, e)

/-- A committed frame is appended to the queues of its ports, or ends where no port is left (R176, R186). -/
def Eng.enqueue (e : Eng) (q : Nat) (f : Frame) (ports : List Nat) : Eng :=
  if ports.isEmpty then (e.setFrame q { f with admitted := false }).settle q
  else
    let e := foldS (fun p e => e.setQueue p f.cls (e.queue p f.cls ++ [q])) ports e
    e.setFrame q { f with admitted := true, queued := ports }

/-- Steps 2 and 3 of the Sluice for a mask. -/
def Eng.sluice (e : Eng) (f : Frame) (mask : Nat) : List Nat × Frame × Eng :=
  (maskPorts mask).foldl (fun a p => Eng.sluicePort f.cls p a) ([], f, e)

/-- The frame's length leaves its bucket, once, where it was admitted and has ended (R187). -/
def Eng.chargeFrame (e : Eng) (q : Nat) : Eng :=
  match e.frame q with
  | some f => if f.admitted ∧ f.committed ∧ f.ended ∧ !f.charged then (e.charge f).setFrame q { f with charged := true } else e
  | none => e

/-- What follows when a frame has both committed and ended, or one of the two (R177, R187, R199). -/
def Eng.afterEnd (e : Eng) (q : Nat) : Eng :=
  let e := e.chargeFrame q
  match e.frame q with
  | none => e
  | some f =>
    if !f.ended then e
    else if f.bad then
      let e := e.unqueueAll q
      (e.modFrame q (fun f => { f with trapped := false })).settle q
    else if f.trapped then e.pushTrap q f
    else e.settle q

/-- The commit of a frame's verdict (R171, R175, R186, R219). -/
def Eng.commit (e : Eng) (q : Nat) : Eng :=
  match e.frame q with
  | none => e
  | some f =>
    let (v, ovr, act) := match f.override with
      | some (act, v) => (if act = 2 then v else { v with cls := f.verdict.cls }, true, act)
      | none => (f.verdict, false, 0)
    let e := if ovr then e.count 1 0 2 1 else e
    let cls := if f.recog then 7 else v.cls
    let f := { f with committed := true, cls := cls, readyAt := e.t80 }
    let e := foldS (fun c e => e.setCell c { e.cell c with c7 := cls == 7 }) (e.chain .frame 73 f.head) e
    let e := if f.inPort < 24 then e.modLink f.inPort (fun l =>
        if l.ing.seq = some q then { l with ing := { l.ing with cls := cls } } else l) else e
    let drop (e : Eng) : Eng := (e.setFrame q (f.fail 24 1)).settle q
    if f.recog then drop e
    else if !v.trap ∧ v.mask % 2 ^ 25 = 0 then drop (if act = 1 then e else e.count 1 0 9 1)
    else if f.inPort ≤ 24 ∧ e.flag F.SLU_TBCFG_EN (queueKey f.inPort cls) ∧ e.bucket f.inPort cls < 0 then
      drop (e.sluCount .SLU_DRATE f.inPort cls)
    else if v.trap then (e.setFrame q { f with admitted := true, trapped := true }).afterEnd q
    else
      let ct := e.ctOk f v ovr && !f.bad
      let (ports, f, e) := e.sluice f v.mask
      let ct := ct && !ports.isEmpty
      let e := if ct then e.count 1 0 5 1 else e
      (e.enqueue q { f with ct := ct } ports).afterEnd q

/-- VERDICT_COMMIT: 160 cycles after the word with the last lookup byte (R172). -/
def Eng.verdictCommit (e : Eng) (q : Nat) : Eng :=
  match e.frame q with
  | none => e
  | some f =>
    match f.dueAt with
    | none => e
    | some c => if f.committed ∨ f.noVerdict ∨ e.now < c then e else e.commit q

/-- BSN_INJGO by thread t: false for a bus fault (R198). -/
def Eng.inject (e : Eng) (t : Nat) : Bool × Eng :=
  let len := e.fld F.BSN_INJ2_LEN t
  match e.heldChain t (e.fld F.BSN_INJ1_HEAD t) len with
  | none => (false, e)
  | some l =>
    let mask := e.val .BSN_INJ3 t + e.fld F.BSN_INJ4_MASK t * 2 ^ 20
    if 2 ^ 25 ≤ mask then (false, e)
    else
      let at' := if e.flag F.BSN_INJ4_TIMED t then
          some ([0, 1, 2, 3].foldl (fun a w => a + e.val .BSN_INJT (4 * t + w) * 2 ^ (20 * w)) 0) else none
      let f : Frame := { head := 0, cells := 0, len := len, inPort := 31, cls := e.fld F.BSN_INJ1_CLASS t, committed := true,
                         launch := at', readyAt := e.t80, charged := true }
      let (q, e) := e.frameOfCells l f
      match e.frame q with
      | none => (true, e)
      | some f =>
        let (ports, f, e) := e.sluice f mask
        (true, e.enqueue q f ports)

/-! ### Records and counters of links -/

/-- Counts on a counter of link n (R98). -/
def Eng.lnkCount (e : Eng) (n i k : Nat) : Eng := e.count 0 n i k

/-- Pushes a record into the ingress (`eg` false) or egress FIFO of link n; it goes in after the pops of its cycle (R97). -/
def Eng.pushTs (e : Eng) (n : Nat) (eg : Bool) (cls : Nat) (t : Nat) (q : Nat) (bad late : Bool) (len : Nat) : Eng :=
  let cfg := if eg then e.fld F.LNK_TSCFG_TSE_CLS n else e.fld F.LNK_TSCFG_TSI_CLS n
  let r : TsRec := ⟨t / 2 ^ 17 * 2 ^ 17, word (cls * 2 ^ 17 + q % 2 ^ 16), word (b2n bad * 2 ^ 19 + b2n late * 2 ^ 18 + len % 2 ^ 14)⟩
  if !bit cfg cls then e else e.modLink n (fun l => { l with tsx := l.tsx ++ [(eg, r)] })

/-- A record pushed in this cycle enters its FIFO, or is lost where it finds 8 records (R97). -/
def Eng.tsEnter (e : Eng) (n : Nat) (eg : Bool) (r : TsRec) : Eng :=
  let l := e.getLink n
  let full := if eg then 8 ≤ l.tse.length else 8 ≤ l.tsi.length
  if full then (e.post F.LNK_STAT_TS_OVF n).lnkCount n 17 1
  else (e.setLink n (if eg then { l with tse := l.tse ++ [r] } else { l with tsi := l.tsi ++ [r] })).produce
    (16 + 8 * n + (if eg then 2 else 1)) (n / 8)

/-- The end of a cycle in which link n pushed records (R97). -/
def Eng.tsEnd (e : Eng) (n : Nat) : Eng :=
  foldS (fun x e => e.tsEnter n x.1 x.2) (e.getLink n).tsx (e.modLink n (fun l => { l with tsx := [] }))

/-- POP_I, POP_E (R97). -/
def Eng.popTs (e : Eng) (n : Nat) (eg : Bool) : Eng :=
  e.modLink n (fun l => if eg then { l with tse := l.tse.drop 1 } else { l with tsi := l.tsi.drop 1 })

/-! ### Frames in (R87, R94, R95, R165, R172, R189, R544) -/

/-- Is a mover's beat complete? -/
def Beat.complete (b : Beat) : Bool := (b.off + b.bytes.length) % 16 == 0

/-- Does the mover hold 2 beats and the next word needs another: after a complete beat, one to be written in the next slot, or as the first word
of a frame (R94)? -/
def Ingress.full (g : Ingress) (opens : Bool) : Bool :=
  decide (2 ≤ g.beats.length) && (opens || (match g.beats.getLast? with
    | some b => b.complete || b.flush
    | none => false))

/-- Adds bytes of frame q at position `off` to the beats, in cycle `c`. -/
def Ingress.put (g : Ingress) (q off : Nat) (bs : List Byte) (c : Nat) : Ingress :=
  match g.beats.reverse with
  | b :: rest =>
    if b.seq = q ∧ !b.complete ∧ b.off + b.bytes.length = off ∧ !b.flush then
      { g with beats := (({ b with bytes := b.bytes ++ bs, at' := c } : Beat) :: rest).reverse }
    else { g with beats := g.beats ++ [⟨q, off, bs, false, c⟩] }
  | [] => { g with beats := [⟨q, off, bs, false, c⟩] }

/-- The last beat of frame q is to be written in the next slot, complete or not (R94, R172). -/
def Ingress.flushLast (g : Ingress) (q : Nat) : Ingress :=
  match g.beats.reverse with
  | b :: rest => if b.seq = q then { g with beats := (({ b with flush := true } : Beat) :: rest).reverse } else g
  | [] => g

def Eng.modIng (e : Eng) (n : Nat) (f : Ingress → Ingress) : Eng := e.modLink n (fun l => { l with ing := f l.ing })

/-- A cell for byte `off` of frame q (R162, R189): false where it is refused. -/
def Eng.growFrame (e : Eng) (q off : Nat) (f : Frame) : Bool × Eng :=
  if off % 128 ≠ 0 ∨ off / 128 < f.cells then (true, e)
  else
    let kind := if f.committed then (if f.cls = 7 then 0 else 2) else if f.cells < 2 then 1 else 2
    match e.allocCell kind .frame q (f.committed && f.cls == 7) with
    | none => (false, e)
    | some (c, e) =>
      let e := match (e.chain .frame 73 f.head).getLast? with
        | some z => if f.cells = 0 then e else e.setCell z { e.cell z with next := some c }
        | none => e
      (true, e.setFrame q { f with cells := f.cells + 1, head := if f.cells = 0 then c else f.head })

/-- Which error a frame ended with (R98): 0 none, else the counter's index. -/
def errorIndex (abort ovr runt code crc : Bool) : Nat :=
  if abort then 8 else if ovr then 7 else if runt then 6 else if code then 5 else if crc then 4 else 0

/-- The end of the frame open at link n (R95, R97, R168, R219, R544). `bad` for a cause that no counter of R98 counts. -/
def Eng.endIngress (e : Eng) (n : Nat) (abort ovr code crc bad : Bool) : Eng :=
  let g := (e.getLink n).ing
  match g.seq with
  | none => e
  | some q =>
    let runt := decide (g.n < e.val .LNK_MINLEN n)
    let err := errorIndex abort ovr (runt && !bad) code crc
    let bad := bad || err != 0
    let live : Bool := match e.frame q with
      | some f => !f.done
      | none => false
    let noV : Bool := match e.frame q with
      | some f => f.noVerdict
      | none => true
    let e := if !g.looked ∧ live ∧ !noV then e.lookupFrame q n g.hdr true else e
    let recog := match e.frame q with
      | some f => f.recog
      | none => false
    let e := if err ≠ 0 then e.lnkCount n err 1 else e
    let e := if recog then e.readRecognised n g.hdr g.n bad g.sof else e
    let e := e.pushTs n false (if recog then 7 else g.cls) g.sof q bad false g.n
    let e := if bad then e else (e.lnkCount n 0 1).lnkCount n 1 g.n
    let e := e.setLink n { e.getLink n with ing := { (g.flushLast q) with
        seq := none, n := 0, hdr := [], looked := false, reject := false, cls := 0 } }
    let t := e.t80
    let c := e.now
    if live then (e.modFrame q (fun f => { f with
        endCyc := c, ended := true, bad := bad, len := g.n, readyAt := if f.committed && !f.ct then t else f.readyAt })).afterEnd q
    else e

/-- The bytes of a frame-byte word by its tag (R4). DEDUCED: a word with tag 0x8 or a reserved tag carries two, since R4 gives
one valid byte to tag 0x2 alone (log entry 42). -/
def wordBytes (w : Nat) : List Byte :=
  if w / 2 ^ 16 = 2 then [BitVec.ofNat 8 (w / 256)] else [BitVec.ofNat 8 (w / 256), BitVec.ofNat 8 w]

/-- Does the tag end the frame (R4, R5)? -/
def tagEnds (tag : Nat) : Bool := 2 ≤ tag

/-- Does the tag end it bad? -/
def tagBad (tag : Nat) : Bool := 4 ≤ tag

/-- A word of the open frame: its bytes, the lookup, its end (R81, R95, R172, R220, R544). `crcErr`: its tag 0x8 reports a bad
CRC (R119). A rejected frame of a single word has tag 0x8 forced onto that word (DEDUCED, log 70: R220 names its next word, and it ends bad). -/
def Eng.addWord (e : Eng) (n : Nat) (w : Word) (crcErr first : Bool) : Eng :=
  let g := (e.getLink n).ing
  match g.seq with
  | none => e
  | some q =>
    let tag := w.toNat / 2 ^ 16
    let c := e.now
    let bs := wordBytes w.toNat
    let reject := g.reject && (!first || tagEnds tag)
    let e := if reject then e.schCount n 6 else e
    let off := g.n
    let n' := off + bs.length
    let g := { g with n := n', hdr := (g.hdr ++ bs).take 256, crc := crc32 g.crc bs }
    let ovr := decide (e.val .LNK_MAXLEN n + 1 ≤ n')
    let (ok, e) := match e.frame q with
      | some f => if f.done ∨ bs.isEmpty then (true, e) else e.growFrame q off f
      | none => (true, e)
    let live : Bool := match e.frame q with
      | some f => !f.done && !f.noVerdict
      | none => false
    let g := if live ∧ ok ∧ !bs.isEmpty then g.put q off bs c else g
    let e := (e.modLink n (fun l => { l with ing := g })).modFrame q (fun f => { f with len := n', recog := f.recog })
    let e := if live ∧ e.recognises n g.hdr then e.modFrame q (fun f => { f with recog := f.recog || !f.committed }) else e
    let e := if !ok then
        (match e.frame q with
          | some f =>
            if f.committed then e.sluCount .SLU_DPOOL n f.cls
            else (e.setFrame q { f with noVerdict := true }).sluCount .SLU_DPOOL n (e.fld F.FWD_PCFG_DCLS n)
          | none => e)
      else e
    let hit := match e.lastLookup n g.hdr with
      | some k => decide (k ≤ n')
      | none => false
    let e := if !g.looked ∧ hit ∧ live ∧ ok then
        (e.lookupFrame q n g.hdr false).modIng n (fun g => { (g.flushLast q) with looked := true })
      else e
    let mac := decide (e.linkMode n ≠ 3)
    let crcBad := mac && decide (2 ≤ tag) && decide (tag ≤ 3) && g.crc != 0xDEBB20E3
    let code := tagBad tag && !(tag == 8 && crcErr)
    let crc := (tag == 8 && crcErr) || crcBad
    if tagEnds tag ∨ ovr ∨ reject ∨ !ok then
      let e := e.endIngress n false ovr code crc (reject || !ok)
      if tagEnds tag then e else e.modIng n (fun g => { g with discard := true })
    else e

/-- A word that opens a frame (R165, R189, R220). `sof` its start-of-frame point. -/
def Eng.openFrame (e : Eng) (n : Nat) (w : Word) (crcErr : Bool) (sof : Nat) : Eng :=
  match e.allocCell 1 .frame (e.val .BSN_NEXTSEQ 0) false with
  | none =>
    let e := e.sluCount .SLU_DPOOL n (e.fld F.FWD_PCFG_DCLS n)
    e.modIng n (fun g => { g with discard := !tagEnds (w.toNat / 2 ^ 16) })
  | some (c, e) =>
    let (q, e) := e.takeSeq
    let f : Frame := { head := c, cells := 1, inPort := n, cls := e.fld F.FWD_PCFG_DCLS n, sof := sof }
    let e := e.setFrame q f
    let (rej, e) := e.rxCheck n sof
    let e := e.modIng n (fun g => { beats := g.beats, seq := some q, sof := sof, reject := rej })
    e.addWord n w crcErr true

/-- A word reaches the ingress mover of link n (R87, R544). A closed mover goes on with a run that it was discarding, also after the link's return
to UP; of other words it only marks where the source's frames start. -/
def Eng.ingressWord (e : Eng) (n : Nat) (w : Word) (crcErr : Bool) (sof : Nat) : Eng :=
  let tag := w.toNat / 2 ^ 16
  let g := (e.getLink n).ing
  if !e.linkUp n then
    let starts := decide (tag = 1) || (decide (tag = 2) && !g.discard && !g.mid)
    let e := if starts then e.lnkCount n 9 1 else e
    e.modIng n (fun g => { g with discard := g.discard && !tagEnds tag && tag != 1, mid := !tagEnds tag })
  else if g.seq.isSome then
    if tag = 1 then
      let e := e.endIngress n false false true false false
      e.openFrame n w crcErr sof
    else e.addWord n w crcErr false
  else if g.discard ∧ tag ≠ 1 then e.modIng n (fun g => { g with discard := !tagEnds tag })
  else if tag = 1 ∨ tag = 2 then (e.modIng n (fun g => { g with discard := false })).openFrame n w crcErr sof
  else (e.lnkCount n 5 1).modIng n (fun g => { g with discard := !tagEnds tag })

/-- Is a word's arrival the opening of a frame, part of a discarded run, or part of the open frame? -/
inductive WordKind where
  | opens | discards | inside
  deriving DecidableEq, Repr

def Eng.wordKind (e : Eng) (n : Nat) (w : Word) : WordKind :=
  let tag := w.toNat / 2 ^ 16
  let g := (e.getLink n).ing
  if !e.linkUp n then (if tag = 1 ∨ (tag = 2 ∧ !g.discard ∧ !g.mid) then .opens else .discards)
  else if tag = 1 then .opens
  else if g.seq.isSome then .inside
  else if tag = 2 ∧ !g.discard then .opens
  else .discards

/-- Is it the round's write slot (`rd` false) or read slot of link n (R94)? -/
def Eng.inSlot (e : Eng) (n : Nat) (rd : Bool) : Bool :=
  (e.now - e.clk.roundBase) % 32 == 4 * (n % 8) + (if rd then 2 else 0)

/-- Free values for the bytes of a cell beyond a frame's last byte (R160). -/
def Block.fillFree (b : Block) (k : Nat) : Nat → Block
  | 0 => b
  | m + 1 =>
    let (v, e) := b.eng.freeVal 8
    Block.fillFree ⟨b.mem.setBasin k (BitVec.ofNat 8 v), e⟩ (k + 1) m

/-- New check bits for the words of Basin bytes from `k` (R325). -/
def Eng.basinClear (e : Eng) (k n : Nat) : Eng :=
  foldS (fun i e => e.eccClear (8 * 2 ^ 20 + k / 2 + i)) (List.range ((n + 1) / 2)) e

/-- BEAT_WRITE: the ingress mover writes its oldest beat, complete, or to be written in the next slot (R94, R160, R172); the mover holds a word
from the cycle after its arrival (R119). -/
def Block.beatWrite (b : Block) (n : Nat) : Block :=
  let e := b.eng
  let l := e.getLink n
  match l.ing.beats with
  | [] => b
  | x :: rest =>
    if !e.inSlot n false ∨ !(x.complete ∨ x.flush ∨ !rest.isEmpty) ∨ e.now ≤ x.at' then b
    else
      let e := e.setLink n { l with ing := { l.ing with beats := rest } }
      match e.frame x.seq with
      | none => { b with eng := e }
      | some f =>
        match (if f.done ∧ f.trapTid = 0 then none else e.frameCell f x.off) with
        | none => { b with eng := e }
        | some c =>
          let k := c * 128 + x.off % 128
          let stop := x.off + x.bytes.length
          let e := (e.setFrame x.seq { f with written := stop }).basinClear k x.bytes.length
          let e := if f.trapTid ≠ 0 ∧ f.len ≤ stop then e.modSw (fun w => { w with frames := Tab.del w.frames x.seq }) else e
          let b : Block := ⟨b.mem.setBasinBytes k x.bytes, e⟩
          if f.ended ∧ stop = f.len ∧ stop % 128 ≠ 0 then b.fillFree (c * 128 + stop % 128) (128 - stop % 128) else b

/-! ### Frames out (R88, R91, R93, R94, R166, R178, R183 to R185) -/

/-- The launch deadline of a launch time at link n (R93), T80. -/
def Eng.deadlineOf (e : Eng) (n launch : Nat) : Nat := launch + 64 * e.val .LNK_LATEMAX n * 2 ^ 20

/-- Is the link's port served by MII or RMII logic? -/
def Eng.isMac (e : Eng) (n : Nat) : Bool := e.linkMode n == 1 || e.linkMode n == 2

/-- The time of one period of the transmit clock, T80. -/
def Eng.txClkT80 (e : Eng) (n : Nat) : Nat := 2 * (e.mac n).txClkCyc * 2 ^ 20

/-- Can a frame with launch time `t` no longer start: its deadline has passed, and in MII and RMII modes the first transmit clock edge at or after
`t` too (R93)? -/
def Eng.tooLate (e : Eng) (n t : Nat) : Bool :=
  decide (e.deadlineOf n t < e.t80) && (!e.isMac n || decide (t + e.txClkT80 n ≤ e.t80))

/-- The length of a frame in transmission, where its end is known. -/
def Eng.sendLen (e : Eng) (s : Sending) : Option Nat :=
  match s.gen, s.seq with
  | some g, _ => some g.bytes.length
  | none, some q => (e.frame q).bind (fun f => if f.ended then some f.len else none)
  | none, none => none

/-- SEQ of a frame in transmission: 0 for a generated frame, which has none. -/
def Sending.seqNo (s : Sending) : Nat := s.seq.getD 0

/-- The frame leaves the port. -/
def Eng.portFree (e : Eng) (n : Nat) (s : Sending) : Eng :=
  let t := e.t80
  let c := e.now + 1
  let e := e.modLink n (fun l => { l with eg := none, freeAt := t, freeCyc := if s.started then c else l.freeCyc })
  match s.seq with
  | some q => (e.modFrame q (fun f => { f with sending := f.sending.erase n })).settle q
  | none => e

/-- A reference frame's start-of-frame point is placed (R218). -/
def Eng.genPlaced (e : Eng) (n : Nat) (s : Sending) : Eng :=
  match s.gen with
  | some g => if g.isRef then (e.schCount n 0).produce (16 + 8 * n + 4) (n / 8) else e
  | none => e

/-- A frame that launches late, by its deadline, is counted (R71, R77, R93). -/
def Eng.countLate (e : Eng) (n : Nat) (late : Bool) : Eng :=
  if late then ((e.lnkCount n 11 1).post F.SUN_STAT_ACT_LATE 0).bump F.SUN_LATECNT_ACT 0 1 else e

/-- TX_EN rises for the frame chosen, at a transmit clock edge of this cycle; it is late where an edge at or after its launch time has passed
before (R93). -/
def Eng.macStart (e : Eng) (n phase : Nat) (s : Sending) : Eng :=
  let late := match s.launch with
    | some t => decide (t + e.txClkT80 n ≤ e.t80At phase)
    | none => false
  let c := e.now
  let e := e.modLink n (fun l => { l with eg := some { s with started := true, startCyc := c, phase := phase, late := late } })
  (e.countLate n late).relevel n phase

/-- The length that the fit rule takes for a frame in transmission (R214). -/
def Eng.fitLen (e : Eng) (n : Nat) (s : Sending) : Nat := (e.sendLen s).getD (e.val .LNK_MAXLEN n)

/-- May TX_EN rise at a transmit clock edge of this cycle: the first beat is there, the gap of 12 byte times is over (R81), the launch
time has come and the frame is not too late for it (R93), and a frame of a class below 7 fits its window (R214)? -/
def Eng.macReady (e : Eng) (n phase : Nat) (s : Sending) : Bool :=
  let l := e.getLink n
  decide (0 < s.rd) && (decide (l.freeCyc = 0) || decide (l.freeCyc - 1 + 12 * (e.mac n).byteCyc ≤ e.now)) && (match s.launch with
    | some t => decide (t ≤ e.t80At phase) && !e.tooLate n t
    | none => true) && (decide (s.cls = 7) || decide ((e.layer n).st = 0) || e.fits n (e.fitLen n s))

/-- A cycle of a transmission in MII or RMII mode: bytes leave the mover, and the start-of-frame point passes, at the edge of the start eight byte
times later (R66, R94, R96). -/
def Eng.macCycle (e : Eng) (n : Nat) : Eng :=
  let l := e.getLink n
  let m := e.mac n
  match l.tail, l.eg with
  | some (m, s), _ => e.setLink n { l with tail := if e.now < m.txEnFall s 0 then some (m, m.shift e.now s) else none }
  | none, none => e
  | none, some s =>
    if !e.isMac n ∨ !s.started then e
    else
      let at' := s.startCyc + 8 * m.byteCyc
      let now' := !s.placed && decide (at' ≤ e.now) && !(s.abort && decide (m.txEnFall s 0 ≤ at'))
      let t := e.timeAtPhase s.phase
      let e := e.setLink n { l with eg := some { m.shift e.now s with placed := s.placed || now', sof := if now' then t else s.sof } }
      if now' then e.genPlaced n s else e

/-- The same at every link. -/
def Eng.macCycles (e : Eng) : Eng :=
  foldS (fun n e => e.macCycle n) ((e.links.filter (fun x => x.2.eg.isSome || x.2.tail.isSome)).map (·.1)) e

/-- The next frame of the class queues: class 7 first where EN is 0, else the classes 6 to 0 (R178, R211, R215). -/
def Eng.nextQueued (e : Eng) (n : Nat) : Option (Nat × Frame) :=
  let cs := if e.schEn n then [6, 5, 4, 3, 2, 1, 0] else [7, 6, 5, 4, 3, 2, 1, 0]
  cs.findSome? (fun c => match e.queueHead n c with
    | some (q, f) => if f.eligible then some (q, f) else none
    | none => none)

/-- NOFIT counts a first choice that does not fit, once for each window, a run of ARB windows being one (R214). -/
def Eng.countNoFit (e : Eng) (n q : Nat) : Eng :=
  let y := e.layer n
  if !e.windowsRun n ∨ y.st < 2 then e
  else
    match e.windowAt n e.t125 with
    | some (j, w) =>
      if entType (e.winEntry n j w) ≠ 2 then e
      else
        let x := (q, j, e.arbFirst n j w)
        if y.noFit = some x then e else (e.setLayer n { y with noFit := some x }).schCount n 14
    | none => e

/-- FRAME_TX_START at a link: a free port chooses its frame, which its mover then reads; in MII and RMII modes TX_EN rises for the chosen frame, at a
transmit clock edge at a phase of this cycle. A flush keeps its frames (R92). -/
def Eng.txStart (e : Eng) (n phase : Nat) : Eng :=
  let l := e.getLink n
  let go (s : Sending) (e : Eng) : Eng := e.modLink n (fun l => { l with eg := some s })
  let timely (t : Option Nat) : Bool := match t with
    | some t => !e.tooLate n t
    | none => true
  if !e.linkUp n ∨ e.linkMode n = 0 ∨ !l.flush.isEmpty then e
  else
    match l.eg with
    | some s =>
      if !e.isMac n ∨ s.started ∨ s.abort then e
      else if e.macReady n phase s then e.macStart n phase s
      else if s.cls ≠ 7 ∧ (e.layer n).st ≠ 0 ∧ !e.fits n (e.fitLen n s) then e.countNoFit n s.seqNo
      else e
    | none =>
      match l.handed with
      | s :: rest => if timely s.launch then go s (e.setLink n { l with handed := rest }) else e
      | [] =>
        match e.nextQueued n with
        | none => e
        | some (q, f) =>
          let len := if f.ended then f.len else e.val .LNK_MAXLEN n
          if !timely f.launch then e
          else if f.cls ≠ 7 ∧ (e.layer n).st ≠ 0 ∧ !e.fitsAt n len (max e.t125 ((f.launch.getD 0) / 2 ^ 17 : Nat)) then e.countNoFit n q
          else
            let e := (e.unqueue q n).modFrame q (fun f => { f with sending := f.sending ++ [n] })
            go { seq := some q, gen := none, cls := f.cls, startCyc := e.now, ct := f.ct, launch := f.launch } e

/-- The end of a transmission: its counters, its record, its outcome (R97, R98, R184). -/
def Eng.txDone (e : Eng) (n : Nat) (s : Sending) (record : Bool) : Eng :=
  let len := match e.sendLen s with
    | some k => k
    | none => s.rd
  let sent := if e.isMac n then (e.mac n).bytesSent e.now s else s.rd
  let e := if s.abort then
      (let e := e.lnkCount n 10 1
       if s.ct ∧ s.tail then e.count 1 0 6 1 else e)
    else (e.lnkCount n 2 1).lnkCount n 3 len
  let e := if record then e.pushTs n true s.cls s.sof s.seqNo s.abort s.late (if s.abort then min len sent else len) else e
  let e := match s.seq with
    | some q => if s.abort then e.modFrame q (fun f => f.fail n 3) else e
    | none => e
  e.portFree n s

/-- Has a frame sent cut through by link n ended bad: a link in another pavilion learns of it a cycle later (R184)? -/
def Eng.ctBad (e : Eng) (n : Nat) (s : Sending) : Bool :=
  s.ct && (match s.seq.bind e.frame with
    | some f => f.ended && f.bad && (f.inPort / 8 == n / 8 || decide (f.endCyc < e.now))
    | none => false)

/-- FRAME_TX_END at a link in MII or RMII mode: TX_EN falls after the frame, or after its abort sequence (R81, R89, R185). A frame that ended bad is
ended under the bad-tail rule first (R184). -/
def Eng.txEnd (e : Eng) (n : Nat) : Eng :=
  match (e.getLink n).eg with
  | none => e
  | some s =>
    let atEnd : Bool := s.abort || (!e.ctBad n s && (match e.sendLen s with
      | some k => decide (k ≤ s.rd)
      | none => false))
    if !e.isMac n ∨ !s.started ∨ !atEnd ∨ e.now < (e.mac n).txEnFall s ((e.sendLen s).getD 0) then e else e.txDone n s true

/-- The frame in transmission at link n is ended as bad from this cycle on (R88, R89, R184, R185): a reed's mover hands the TXR a word with tag 0x8,
whose data bits are 0 (DESIGN CHOICE, log 65); a frame whose TX_EN has not risen never starts. `tail`: under the bad-tail rule, not at a loss;
`clk`: the transmit clock has stopped. -/
def Eng.abortSend (e : Eng) (n : Nat) (tail clk : Bool) : Eng :=
  let l := e.getLink n
  let c := e.now
  match l.eg with
  | none => e
  | some s =>
    let s := { s with abort := true, tail := tail, abortAt := if s.abort then s.abortAt else c, clkLost := if s.abort then s.clkLost else clk }
    if !e.isMac n then e.setLink n { l with eg := some { s with buf := [0x80000] } }
    else if s.started then e.setLink n { l with eg := some s }
    else e.txDone n s false

/-- BAD_TAIL (R184). -/
def Eng.badTail (e : Eng) (n : Nat) : Eng :=
  match (e.getLink n).eg with
  | some s => if e.ctBad n s ∧ !s.abort then e.abortSend n true false else e
  | none => e

/-- The record of a frame that a flush or a late drop releases: STATUS 4 or 5 (R92, R419, R426). -/
def Eng.dropRecord (e : Eng) (n q status : Nat) : Eng :=
  match e.frame q with
  | none => e
  | some f =>
    let e := e.setFrame q (f.fail n status)
    if f.inPort < 24 ∧ e.flag F.LNK_CFG_FLOG n then
      e.evq 2 n (leBytes 3 q ++ leBytes 1 status ++ leBytes 1 f.cls ++ leBytes 1 f.inPort ++ leBytes 2 f.len)
    else e

/-- LAUNCH_DEADLINE: a timed frame of link n that has not started by its deadline is dropped, while the link is UP; one whose deadline passes in
FLAP_HOLD is dropped after the return to UP, at the head of its queue (R91 to R93). -/
def Eng.launchDeadline (e : Eng) (n : Nat) : Eng :=
  let l := e.getLink n
  let passed (t : Option Nat) : Bool := match t with
    | some t => e.tooLate n t
    | none => false
  let dropS (s : Sending) (e : Eng) : Eng :=
    let e := e.lnkCount n 12 1
    match s.seq with
    | some q => ((e.dropRecord n q 5).modFrame q (fun f => { f with sending := f.sending.erase n })).settle q
    | none => e
  let queueDrop : Eng :=
    match [7, 6, 5, 4, 3, 2, 1, 0].findSome? (fun c => match e.queueHead n c with
        | some (q, f) => if f.eligible && passed f.launch then some q else none
        | none => none) with
    | some q => (((e.lnkCount n 12 1).unqueue q n).dropRecord n q 5).settle q
    | none => e
  if !e.linkUp n ∨ !l.flush.isEmpty then e
  else match l.eg with
  | some s =>
    if !s.started ∧ !s.abort ∧ passed s.launch then dropS s (e.setLink n { l with eg := none }) else e
  | none =>
    match l.handed with
    | s :: rest => if passed s.launch then dropS s (e.setLink n { l with handed := rest }) else queueDrop
    | [] => queueDrop

/-- Words for the TXR of bytes from position `off`; `len` the frame's length where known (R4). The single word of a frame of two bytes carries tag
0x3: R4 lists first and last for it, and the model sends last (DESIGN CHOICE, log 65). -/
def txWords (off : Nat) (len : Option Nat) : List Byte → List Word
  | [] => []
  | [a] => [word (0x20000 + a.toNat * 256)]
  | a :: b :: t =>
    let tag := if len = some (off + 2) then 3 else if off = 0 then 1 else 0
    word (tag * 2 ^ 16 + a.toNat * 256 + b.toNat) :: txWords (off + 2) len t

/-- Is the next beat of a frame in the Basin and readable (R183)? -/
def Frame.beatReady (f : Frame) (rd : Nat) : Bool :=
  if f.ended then decide (rd < f.len) && decide (min (rd + 16) f.len ≤ f.written)
  else decide (rd + 16 ≤ f.written) && decide (rd + 16 < f.len)

/-- The frame of link n meets a fault before it may be sent (R164, R166): it ends bad if it has started, else it is dropped. -/
def Eng.egressFault (e : Eng) (n : Nat) (s : Sending) : Eng :=
  if s.started then e.abortSend n true false
  else
    match s.seq with
    | some q => (e.modFrame q (fun f => f.fail n 3)).portFree n s
    | none => e

/-- Must an egress mover have its next beat now (R183)? -/
def Eng.beatNeeded (e : Eng) (n : Nat) (s : Sending) (waiting : Bool) : Bool :=
  if e.linkMode n = 3 then s.buf.isEmpty && waiting
  else s.started && decide (s.startCyc + (8 + s.rd) * (e.mac n).byteCyc < e.now + 32)

/-- BEAT_READ: the egress mover of link n reads its next beat (R94, R164, R166, R183). `waiting`: the TXR waits in PULLS. -/
def Block.beatRead (b : Block) (n : Nat) (waiting : Bool) : Block :=
  let e := b.eng
  let l := e.getLink n
  match l.eg with
  | none => b
  | some s =>
    if !e.inSlot n true ∨ s.abort ∨ e.ctBad n s ∨ 8 < s.buf.length ∨ 16 < s.out.length then b
    else
      let take (len : Option Nat) (bs : List Byte) (e : Eng) : Eng :=
        e.modLink n (fun l => { l with eg := some (if e.isMac n then { s with rd := s.rd + bs.length, out := s.out ++ bs }
          else { s with rd := s.rd + bs.length, buf := s.buf ++ txWords s.rd len bs }) })
      match s.gen, s.seq with
      | some g, _ => { b with eng := take (some g.bytes.length) ((g.bytes.drop s.rd).take 16) e }
      | none, none => b
      | none, some q =>
        match e.frame q with
        | none => b
        | some f =>
          if f.ended ∧ f.len ≤ s.rd then b
          else if !f.beatReady s.rd then
            (if f.ct ∧ e.beatNeeded n s waiting then { b with eng := (e.count 1 0 7 1).abortSend n true false } else b)
          else
            match e.frameCell f s.rd with
            | none => { b with eng := (e.count 1 0 8 1).egressFault n s }
            | some c =>
              if (e.cell c).seq ≠ q then { b with eng := (e.count 1 0 8 1).egressFault n s }
              else
                let k := c * 128 + s.rd % 128
                let cnt := if f.ended then min 16 (f.len - s.rd) else 16
                let (dbl, e) := foldS (fun i (a : Bool × Eng) =>
                  let (d, e) := a.2.eccRead (8 * 2 ^ 20 + k / 2 + i)
                  (a.1 || d, e)) (List.range 8) (false, e)
                if dbl then { b with eng := (e.count 1 0 12 1).egressFault n s }
                else
                  let bs := (List.range cnt).map (fun i => b.mem.cellByte c (s.rd % 128 + i))
                  { b with eng := take (if f.ended then some f.len else none) bs e }

/-! ### Link states (R85 to R92) -/

/-- A change of the link's state. -/
def Eng.setLinkState (e : Eng) (n st : Nat) (fire : Bool) : Eng :=
  let was := e.linkState n
  let c := e.now + 1
  let e := (e.setFld F.LNK_STAT_STATE n st).modLink n (fun l => { l with ticks := 0, ticksAt := c })
  let e := if was = 2 ∧ st ≠ 2 then e.schLinkDown n else if st = 2 then e.schLinkUp n else e
  if fire then e.produce (16 + 8 * n) (n / 8) else e

/-- One flush release: the frame leaves the queue with its record (R92). -/
def Eng.flushOne (e : Eng) (n : Nat) : Eng :=
  match (e.getLink n).flush with
  | [] => e
  | (q, _) :: rest =>
    let c := e.now + 8
    let e := e.modLink n (fun l => { l with flush := rest, flushAt := c })
    ((((e.lnkCount n 13 1).dropRecord n q 4).unqueue q n)).settle q

/-- A flush starts with its first release; true where it finds a frame (R92). `fire`: LNK_STATE fires when FLUSHING clears. -/
def Eng.flushStart (e : Eng) (n : Nat) (fire : Bool) : Bool × Eng :=
  let snap := [7, 6, 5, 4, 3, 2, 1, 0].flatMap (fun c => (e.queue n c).map (fun q => (q, c)))
  if snap.isEmpty then (false, e)
  else (true, (e.modLink n (fun l => { l with flush := snap, flushFire := fire })).flushOne n)

/-- FLUSH_RELEASE (R92). -/
def Eng.flushRelease (e : Eng) (n : Nat) : Eng :=
  let l := e.getLink n
  if l.flush.isEmpty ∨ e.now < l.flushAt then e else e.flushOne n

/-- In the cycle in which FLUSHING clears, the LNK_STATE that waits for it fires (R85, R92). -/
def Eng.flushClears (e : Eng) : Eng :=
  foldS (fun n e =>
    if (e.getLink n).flushFire ∧ !e.flushing n then
      (e.modLink n (fun l => { l with flushFire := false })).produce (16 + 8 * n) (n / 8)
    else e) ((e.links.filter (fun x => x.2.flushFire)).map (·.1)) e

/-- Both movers close: a frame being received ends bad, a frame being transmitted is aborted, frames handed over do not start
(R88); `clk`: the transmit clock has stopped (R89). -/
def Eng.closeMovers (e : Eng) (n : Nat) (clk : Bool) : Eng :=
  let isOpen := (e.getLink n).ing.seq.isSome
  let e := if isOpen then (e.endIngress n true false false false false).modIng n (fun g => { g with discard := true }) else e
  let e := foldS (fun s e =>
    match s.seq with
    | some q => ((e.lnkCount n 10 1).modFrame q (fun f => { (f.fail n 3) with sending := f.sending.erase n })).settle q
    | none => e.lnkCount n 10 1) (e.getLink n).handed e
  (e.modLink n (fun l => { l with handed := [] })).abortSend n false clk

/-- LNKn_CTL.EN set to 1 (R85). -/
def Eng.linkEnable (e : Eng) (n : Nat) : Eng :=
  let c := e.now + 1
  if e.flag F.LNK_CTL_EN n then e
  else ((e.setFld F.LNK_CTL_EN n 1).setLinkState n 1 true).modLink n (fun l => { l with enAt := c })

/-- LNKn_CTL.EN set to 0 (R85, R86, R92). -/
def Eng.linkDisable (e : Eng) (n : Nat) : Eng :=
  if !e.flag F.LNK_CTL_EN n then e
  else
    let c := e.now + 1
    let e := ((e.setFld F.LNK_CTL_EN n 0).closeMovers n false).modLink n (fun l => { l with enAt := c })
    let e := e.setLinkState n 0 false
    let (some', e) := e.flushStart n true
    if some' then e else e.produce (16 + 8 * n) (n / 8)

/-- UP_REQ (R85, R91): both movers open. -/
def Eng.linkUpReq (e : Eng) (n : Nat) : Eng :=
  let st := e.linkState n
  let opened (e : Eng) : Eng := (e.modIng n (fun g => { g with mid := false })).setLinkState n 2 true
  if st = 1 then opened e else if st = 3 then (opened e).lnkCount n 16 1 else e

/-- A loss of source 1 CLOCK, 2 WRITE or 3 CHANNEL (R85, R88); 4 is a CLOCK loss of the transmit clock (R89). -/
def Eng.linkLoss (e : Eng) (n src : Nat) : Eng :=
  if e.linkState n ≠ 2 then e
  else
    let e := ((e.closeMovers n (src == 4)).setFld F.LNK_STAT_LOSS_SRC n (if src = 4 then 1 else src)).lnkCount n 15 1
    if e.val .LNK_HOLD n ≠ 0 then e.setLinkState n 3 true
    else ((e.setLinkState n 1 true).flushStart n false).2

/-- The hold expires (R85, R90). -/
def Eng.flapExpiry (e : Eng) (n : Nat) : Eng :=
  if e.linkState n = 3 then ((e.setLinkState n 1 true).flushStart n false).2 else e

/-- An event of a link is taken with the others of its cycle against the state at the cycle's start (R86). -/
def Eng.lossEvent (e : Eng) (n src : Nat) : Eng := e.modLink n (fun l => { l with loss := if l.loss = 0 then src else l.loss })
def Eng.upEvent (e : Eng) (n : Nat) : Eng := e.modLink n (fun l => { l with upReq := true })

/-- FLAP_HOLD_EXPIRY (R90). -/
def Eng.expiryEvent (e : Eng) (n : Nat) : Eng :=
  if e.linkState n = 3 ∧ (!e.running ∨ e.val .LNK_HOLD n ≤ (e.getLink n).ticks) then e.modLink n (fun l => { l with expire := true }) else e

/-- A CLOCK loss can happen to MII links, and to RMII links that receive REF_CLK (R85); `tx`: TX_CLK or REF_CLK has stopped, not RX_CLK alone. -/
def Eng.clockLoss (e : Eng) (n : Nat) (tx : Bool) : Eng :=
  let m := e.linkMode n
  if m = 1 ∨ (m = 2 ∧ !e.flag F.LNK_CFG_REFOUT n) then e.lossEvent n (if tx then 4 else 1) else e

/-- The events of this cycle at link n, each against the state at its start: a write of EN prevails over every other, a loss over UP_REQ, UP_REQ over
the expiry of the hold (R86). -/
def Eng.linkEvents (e : Eng) (n : Nat) : Eng :=
  let l := e.getLink n
  let e := e.setLink n { l with loss := 0, upReq := false, expire := false }
  if l.enAt = e.now + 1 then e
  else if l.loss ≠ 0 then e.linkLoss n l.loss
  else if l.upReq then e.linkUpReq n
  else if l.expire then e.flapExpiry n
  else e

/-- The end of a cycle at the links: their events, then the records pushed (R86, R97). -/
def Eng.linksEnd (e : Eng) : Eng :=
  foldS (fun n e => (e.linkEvents n).tsEnd n)
    ((e.links.filter (fun x => decide (x.2.loss ≠ 0) || x.2.upReq || x.2.expire || !x.2.tsx.isEmpty)).map (·.1)) e

/-- TRAINING_TIMEOUT (R85). -/
def Eng.trainTimeout (e : Eng) (n : Nat) : Eng :=
  let t := e.val .LNK_TRAIN n
  if e.linkState n = 1 ∧ t ≠ 0 ∧ t ≤ (e.getLink n).ticks then
    (e.post F.LNK_STAT_TRAIN_TO n).setLinkState n 1 true
  else e

/-- A launch is counted by the training timers and the holds (R85, R90). -/
def Eng.linkTicks (e : Eng) : Eng :=
  foldS (fun n e =>
    if (e.linkState n = 1 ∨ e.linkState n = 3) ∧ (e.getLink n).ticksAt ≠ e.now + 1 then
      e.modLink n (fun l => { l with ticks := l.ticks + 1 })
    else e) (List.range 24) e

end Sys2Proof.Machine
end

