-- ==== Sys2Proof/Machine/Reeds.lean ====
section
/-! DEFINITION. Reeds (05_reeds.md R100 to R131): pins, ticks, stages, states, timed actions, the execution of reed
instructions. Positions are in units of 2^-20 cycle. -/

namespace Sys2Proof.Machine

/-- The width of a side: 1, 2 or 4 signals (R109, R111). -/
def Eng.inW (e : Eng) (k : Nat) : Nat := 2 ^ e.fld F.REED_CFG_IW k
def Eng.outW (e : Eng) (k : Nat) : Nat := 2 ^ e.fld F.REED_CFG_OW k

/-! ### Ticks (R105 to R107, R151, R153) -/

/-- A cycle as a position. -/
def posOf (cyc : Nat) : Nat := cyc * 2 ^ 20

/-- The divider set in force: period and PHASE (R106, R151). -/
def Eng.divSet (e : Eng) (k : Nat) (dset : Bool) : Nat × Nat :=
  if dset then (e.val .COD_DDIVI k * 2 ^ 20 + e.val .COD_DDIVF k, e.val .COD_DPHASE k)
  else (e.val .REED_DIVI k * 2 ^ 20 + e.val .REED_DIVF k, e.val .REED_PHASE k)

/-- The first tick in cycle c or later (R106, R127). -/
def Side.skipTo (s : Side) (c : Nat) : Side :=
  if s.next < posOf c then { s with next := s.next + (posOf c - s.next + s.per - 1) / s.per * s.per } else s

/-- The tick at `next` has happened. -/
def Side.advance (s : Side) : Side := { s with last := s.next, next := ((s.next + s.per : Nat) + s.shift).toNat, shift := 0 }

/-- A restart of a side with its tick 0 at a position, in cycle c; ticks of cycles before it are skipped, and edges of a clock pin count from
position `anchor` on (R106, R107). The last tick stays the last that happened (R151). -/
def Side.restart (s : Side) (pos per anchor c : Nat) : Side :=
  ({ next := pos, last := s.last, per := per, after := max anchor (posOf c), fresh := c + 1 } : Side).skipTo c

/-- A restart at an anchor (position), with PHASE (R106). -/
def Eng.reedRestart (e : Eng) (k : Nat) (inp out : Bool) (anchor : Nat) (withPhase : Bool) : Eng :=
  let r := e.reed k
  let (per, ph) := e.divSet k r.dset
  let s (old : Side) : Side := old.restart (anchor + (if withPhase then ph * 2 ^ 16 else 0)) per anchor e.now
  let kept := if e.flag F.REED_CLK_ISRC k then r.ipath.filter (fun x => decide (e.now ≤ x.1)) else []
  let r := if inp then { r with iside := s r.iside, istage := [], ipath := kept } else r
  e.setReed k (if out then { r with oside := s r.oside } else r)

/-- Samples whose path ends with this cycle enter the input stage at its end; one that finds no room is lost (R109). -/
def Eng.reedSettle (e : Eng) (k : Nat) : Eng :=
  let r := e.reed k
  let (now', later) := (r.ipath.filter (fun x => decide (x.1 + 2 ≤ e.now)), r.ipath.filter (fun x => decide (e.now < x.1 + 2)))
  let (st, lost) := now'.foldl (fun (a : List Bool × Bool) x =>
    if a.1.length + x.2.length ≤ 20 then (a.1 ++ x.2, a.2) else (a.1, true)) (r.istage, false)
  let e := e.setReed k { r with istage := st, ipath := later }
  if lost then e.post F.REED_STAT_IOVF k else e

/-- INPUT_TICK: the W signals are sampled (R105, R107, R109); `phase` is that of the levels. A divider side samples at its tick's own phase, a side
clocked by a pin at an edge of it. -/
def Eng.inputTick (e : Eng) (k pins phase : Nat) : Eng :=
  let e := e.setPins k phase pins
  let r := e.reed k
  let pinSrc := e.flag F.REED_CLK_ISRC k
  let s := r.iside.skipTo e.now
  let pos := posOf e.now + phase * 2 ^ 16
  let tick := if pinSrc then decide (s.after ≤ pos) && e.pinEdge k (e.fld F.REED_CLK_IPIN k) phase (e.flag F.REED_CLK_IEDGE k)
    else decide (s.next / 2 ^ 16 = 16 * e.now + phase)
  if r.st ≠ 2 ∨ !e.awake ∨ !tick then e
  else
    let base := e.fld F.REED_CFG_IBASE k
    let bs := (List.range (e.inW k)).map (fun i => e.pinLevel k (·.pins) (base + i))
    let side := if pinSrc then { s with last := pos } else s.advance
    let c := e.now
    e.setReed k { r with iside := side, ipath := r.ipath ++ [(c, bs)], lastSample := bs.headD false, corrected := false }

/-- OUTPUT_TICK: the next W bits are driven (R105, R107, R111), with the egress start-of-frame point of MARK (R117). An edge of a clock pin
three cycles before, at `phase`, changes bits at that phase of this cycle. -/
def Eng.outputTick (e : Eng) (k phase : Nat) : Eng :=
  let r := e.reed k
  let pinSrc := e.flag F.REED_CLK_OSRC k
  let s := r.oside.skipTo e.now
  let pos := posOf e.now + phase * 2 ^ 16
  let edge := 16 * e.now + phase - 48
  let tick := if pinSrc then decide (s.after + posOf 3 ≤ pos) && decide (48 ≤ 16 * e.now + phase) && r.edges.contains edge
    else decide (s.next / 2 ^ 20 = e.now)
  if r.st ≠ 2 ∨ !e.awake ∨ !tick then e
  else
    let p := if pinSrc then phase else s.next % 2 ^ 20 / 2 ^ 16
    let side := if pinSrc then { s with last := pos } else s.advance
    let r := { r with oside := side, edges := r.edges.filter (fun x => decide (x ≠ edge)) }
    if r.ostage.isEmpty ∨ e.now < r.ofrom then e.setReed k r
    else
      let w := e.outW k
      let base := e.fld F.REED_CFG_OBASE k
      let lv := (List.range w).foldl (fun v i => setBits v (base + i) (base + i) (b2n (r.ostage.getD i false))) r.levels
      let e1 := (e.setReed k { r with levels := lv, ostage := r.ostage.drop w, markOut := if r.markOut = 2 then 0 else r.markOut }).reedRelevel k p
      if r.markOut ≠ 2 then e1
      else
        match e.txLink k with
        | some n =>
          let t := e.timeAtPhase p
          e1.modLink n (fun l => { l with eg := l.eg.map (fun s => { s with sof := t }) })
        | none => e1

/-- Does an edge at position x in cycle c correct this side: neither in the cycle of its restart nor before its new anchor (R154)? -/
def Side.tracks (s : Side) (x c : Nat) : Bool := decide (s.fresh ≤ c) && decide (s.after ≤ x)

/-- A correction of the edge tracker moves a side's later ticks (R153). -/
def Side.correct (s : Side) (cyc : Nat) (corr : Int) : Side :=
  if cyc + 3 < s.next / 2 ^ 20 then { s with next := ((s.next : Int) + corr).toNat } else { s with shift := s.shift + corr }

/-- TRACKER_CORRECTION: an edge on IBASE in this cycle at a phase (R153, R154). -/
def Eng.trackerEdge (e : Eng) (k pins phase : Nat) : Eng :=
  let base := e.fld F.REED_CFG_IBASE k
  let e := e.setPins k phase pins
  let r := e.reed k
  let old := e.pinLevel k (·.before) base
  let new := e.pinLevel k (·.pins) base
  let falling := old && !new
  let divI := !e.flag F.REED_CLK_ISRC k
  let divO := !e.flag F.REED_CLK_OSRC k
  let qualifies := e.flag F.COD_TRK_EN k && !r.hold && divI && (old != new) && (falling || !e.flag F.COD_TRK_EDGES k) &&
    (!e.flag F.COD_TRK_CANRULE k || (falling && r.lastSample && !r.corrected)) && decide (r.st = 2) && e.awake
  if !qualifies then e
  else
    let x := posOf e.now + phase * 2 ^ 16
    let s := r.iside.skipTo e.now
    let tickN := if s.next ≤ x then ((s.next + s.per : Nat) + s.shift).toNat else s.next
    let err : Int := (x : Int) - ((tickN : Int) - (e.val .COD_TRKOFF k * 2 ^ 16 : Nat))
    let lim : Int := (e.val .COD_TRKSJW k * 2 ^ 16 : Nat)
    let corr := max (-lim) (min lim err)
    let o := r.oside.skipTo e.now
    e.setReed k { r with iside := if s.tracks x e.now then s.correct e.now corr else s,
                         oside := if divO && o.tracks x e.now then o.correct e.now corr else o, corrected := true }

/-! ### States (R125, R126, R130, R131) -/

/-- A change of output signals takes place (R104). -/
def Reed.applySet (r : Reed) (s : PinSet) : Reed :=
  let mix (old : Nat) : Nat := (old &&& (0xFFFF - s.mask)) ||| s.val
  if s.enable then { r with enables := mix r.enables } else { r with levels := mix r.levels }

/-- The changes due by cycle c take place. -/
def Reed.setsDue (r : Reed) (c : Nat) : Reed :=
  if r.sets.isEmpty then r
  else (r.sets.filter (fun s => decide (s.due ≤ c))).foldl Reed.applySet { r with sets := r.sets.filter (fun s => decide (c < s.due)) }

/-- Entry to STOPPED with its cause (R125, R135). The model's choices (DESIGN CHOICE, log 65): a pending SWAP is cleared, an awaited start of a frame
(R121) and a MARK for the egress side are forgotten, a MARK for the ingress side stays. -/
def Eng.reedStop (e : Eng) (k cause : Nat) : Eng :=
  let r := e.reed k
  let e := e.setReed k { r with st := 0, acts := [], istage := [], ipath := [], ostage := [], late := false, waitCode := 0, swap := false,
                                slots := [], dset := false, hold := false, frame := none, markOut := 0, code := none, hit := none }
  (e.setFld F.REED_STAT_CAUSE k cause).produce (256 + 2 * k + 1) (reedPav k)

/-- ENTRY, BOTTOM and TOP of the active bank. -/
def Reed.entry (r : Reed) : Nat := bits r.wrap0.toNat 17 12
def Reed.bottom (r : Reed) : Nat := bits r.wrap0.toNat 11 6
def Reed.top (r : Reed) : Nat := bits r.wrap0.toNat 5 0

/-- The banks and wrap sets exchange: bank 0 is the active one, bank 1 the shadow (R128, R129). -/
def Reed.exchange (r : Reed) : Reed :=
  { r with bank0 := r.bank1, bank1 := r.bank0, wrap0 := r.wrap1, wrap1 := r.wrap0, abank := !r.abank, swap := false }

/-- START acting in this cycle, but for a cycle in which CTL.HALT acts (R125). -/
def Eng.reedRun (e : Eng) (k : Nat) : Eng :=
  let r := e.reed k
  let c := e.now + 1
  if r.haltAt = c then e
  else
    (e.setReed k { r with st := 2, pc := r.entry, waitCode := 0, ready := c, startAt := c, startOf := (r.st, r.pc) }).reedRestart k true true
      (posOf e.now) true

/-- CTL.START. -/
def Eng.reedStart (e : Eng) (k : Nat) : Eng := if (e.reed k).st = 2 then e else e.reedRun k

/-- CTL.ARM. -/
def Eng.reedArm (e : Eng) (k : Nat) : Eng := e.modReed k (fun r => if r.st = 0 then { r with st := 1 } else r)

/-- CTL.HALT: it prevails over a START of the same cycle, which then has no effect (R125). -/
def Eng.reedHalt (e : Eng) (k : Nat) : Eng :=
  let c := e.now + 1
  let e := e.modReed k (fun r => if r.startAt = c then { r with st := r.startOf.1, pc := r.startOf.2, startAt := 0 } else r)
  let e := e.modReed k (fun r => { r with haltAt := c })
  if (e.reed k).st = 0 then e else e.reedStop k 2

/-- CTL.SWAP (R130). -/
def Eng.reedSwap (e : Eng) (k : Nat) : Eng :=
  let c := e.now + 1
  e.modReed k (fun r => if r.st = 2 then { r with swap := true, swapAt := c } else r.exchange)

/-- CTL.FORCE: in RUN the swap takes place at the instruction boundary (R131). -/
def Eng.reedForce (e : Eng) (k : Nat) : Eng :=
  e.modReed k (fun r => if r.st = 2 then { r with force := true, swap := false } else r.exchange)

/-- A FORCE at the end of a cycle: an instruction that waits is abandoned in the next cycle; one that has completed is followed by the new
ENTRY; a CODE in its first cycle completes first (R131). A reed that stopped in the cycle exchanges its banks (R125). -/
def Eng.forceEnd (e : Eng) (k : Nat) : Eng :=
  let r := e.reed k
  if !r.force ∨ (r.st = 2 ∧ r.code.isSome) then e
  else
    let x := { r.exchange with force := false }
    if r.st ≠ 2 then e.setReed k x
    else if r.waitCode = 0 then e.setReed k { x with pc := x.entry, ready := max r.ready (e.now + 1) }
    else (e.setReed k { x with pc := x.entry, waitCode := 0, hit := none, ready := e.now + 2 }).post F.REED_STAT_ABANDON k

/-- A sync event of a pavilion (R126). -/
def Eng.reedSync (e : Eng) (p : Nat) : Eng :=
  foldS (fun i e =>
    let k := 16 * p + i
    if !e.flag F.REED_CFG_SYNC k then e
    else
      match (e.reed k).st with
      | 1 => e.reedRun k
      | 2 => if (e.reed k).startAt = e.now + 1 then e else e.reedRestart k true true (posOf e.now) true
      | _ => e) (List.range 16) e

/-! ### Timed actions (R69 to R71, R117, R118, R121) -/

/-- Is a time more than 2^39 ns ahead of Sundial (R71)? -/
def Eng.tooFar (e : Eng) (t : Nat) : Bool :=
  let d := (t + 2 ^ 80 - e.t80) % 2 ^ 80
  decide (2 ^ 39 * 2 ^ 20 < d)

/-- The earliest of some actions by their times seen from a Sundial time, posting order among equals: one that counts as passed comes before one
that does not (R69, R71). -/
def earliest (t80 : Nat) : List ReedAct → Option ReedAct
  | [] => none
  | a :: t =>
    let key (x : ReedAct) : Nat := (x.time + 2 ^ 80 + 2 ^ 80 - t80 - 2 ^ 59 - 1) % 2 ^ 80
    match earliest t80 t with
    | some b => if key b < key a then some b else some a
    | none => some a

/-- Does an action execute in this cycle: 6 cycles after its posting or later, where Sundial, but for a step or load of this cycle, reaches
its time in it, or has passed it (R65, R70, R71)? -/
def Eng.actDue (e : Eng) (a : ReedAct) : Bool :=
  decide (a.posted + 6 ≤ e.now) && (decide (a.time < e.clk.plainNext.toNat >>> 20) || e.tooFar a.time)

/-- The effect of an action at a phase. -/
def Eng.actEffect (e : Eng) (k : Nat) (a : ReedAct) (p : Nat) : Eng :=
  match a.kind with
  | 0 => (e.modReed k (fun r => { r with levels := setBits r.levels a.pin a.pin (b2n a.level) })).reedRelevel k p
  | 1 => e.reedRestart k false true (posOf e.now + p * 2 ^ 16) false
  | _ => e.reedFire a.ch (reedPav k)

/-- A frame's start executes (R93, R121, R218). -/
def Eng.startPlaced (e : Eng) (k : Nat) (late : Bool) : Eng :=
  match e.txLink k with
  | none => e
  | some n =>
    match (e.getLink n).eg with
    | none => e
    | some s =>
      let e := e.modLink n (fun l => { l with eg := some { s with late := late } })
      (if late then e.lnkCount n 11 1 else e).genPlaced n s

/-- A frame's start comes after its deadline: the frame is dropped (R121). -/
def Eng.startDropped (e : Eng) (k : Nat) : Eng :=
  let e := e.modReed k (fun r => { r with bad := true })
  match e.txLink k with
  | none => e
  | some n =>
    match (e.getLink n).eg with
    | none => e
    | some s =>
      let e := (e.modLink n (fun l => { l with eg := some { s with dropped := true } })).lnkCount n 12 1
      match s.seq with
      | some q => e.dropRecord n q 5
      | none => e

/-- REED_ACTION_EXECUTE: the earliest action due, in its placement cycle, or late. -/
def Eng.reedAction (e : Eng) (k : Nat) : Eng :=
  let r := e.reed k
  match earliest e.t80 (r.acts.filter e.actDue) with
  | none => e
  | some a =>
    if !e.awake then e
    else
      let late := e.tooFar a.time || decide (a.time < e.t80)
      let e := e.setReed k { r with acts := r.acts.erase a }
      let p := if late then 0 else 16 * ((a.time - e.t80) * 2 ^ 20) / incOf e.clk.rate
      let e := if late then
          ((((e.post F.REED_STAT_LATE k).modReed k (fun r => { r with late := true })).post F.SUN_STAT_ACT_LATE 0).bump
            F.SUN_LATECNT_ACT 0 1) else e
      match a.start with
      | none => e.actEffect k a p
      | some dl =>
        match dl with
        | some d => if d < (if late then e.t80 else a.time) then e.startDropped k else (e.actEffect k a p).startPlaced k late
        | none => (e.actEffect k a p).startPlaced k false

/-! ### Operands (R114) -/

/-- The CRC accumulator: its bits at or above the width read 0 (R155). -/
def Eng.reedCrc (e : Eng) (k : Nat) : Nat := (e.reed k).crc % 2 ^ (e.fld F.COD_CRCCFG_WM1 k + 1)

def Eng.reedS (e : Eng) (k c : Nat) : Nat :=
  let r := e.reed k
  match c with
  | 0 => r.rxw.toNat
  | 1 => r.txw.toNat
  | 2 => r.qa.toNat
  | 3 => r.qb.toNat
  | 4 => r.cdo.toNat
  | 5 => e.reedCrc k % 2 ^ 20
  | 6 => e.reedCrc k / 2 ^ 20 % 2 ^ 12
  | _ => r.atime / 2 ^ 20 % 2 ^ 20

def Eng.setReedD (e : Eng) (k c v : Nat) : Eng :=
  e.modReed k (fun r =>
    match c with
    | 0 => { r with rxw := word v }
    | 1 => { r with txw := word v }
    | 2 => { r with qa := word v }
    | _ => { r with qb := word v })

/-! ### Issue (R112, R113, R115, R129) -/

/-- What an instruction does when it issues, or when its wait is looked at again: it completes (the next one issues `cost` cycles
later), completes at the end of the next cycle, jumps, waits with a code of R133, or stops the reed with a cause. -/
inductive ROut where
  | done (cost : Nat) (e : Eng)
  | busy (e : Eng)
  | jump (a : Nat) (e : Eng)
  | wait (code : Nat) (e : Eng)
  | stop (cause : Nat)

/-- The word at PC. -/
def Eng.reedWord (e : Eng) (k : Nat) : Nat := (Tab.get 0 (e.reed k).bank0 (e.reed k).pc).toNat

/-- The next PC after an instruction that completes in cycle `c` without a jump (R129); a wrap in the cycle of the write of SWAP does not take
the swap (R130). -/
def Reed.nextPc (r : Reed) (c : Nat) : Reed :=
  if r.pc = r.top then
    if r.swap ∧ r.swapAt ≠ c + 1 then
      let x := r.exchange
      { x with pc := x.entry }
    else { r with pc := r.bottom }
  else { r with pc := (r.pc + 1) % 64 }

/-- The outcome of an instruction. -/
def Eng.reedOut (e : Eng) (k : Nat) (o : ROut) : Eng :=
  match o with
  | .done cost e' => e'.modReed k (fun r => if r.st = 2 then { r.nextPc e.now with waitCode := 0, ready := e.now + cost } else r)
  | .busy e' => e'.modReed k (fun r => { r with ready := e.now + 2 })
  | .jump a e' => e'.modReed k (fun r => { r with pc := a, waitCode := 0, ready := e.now + 1 })
  | .wait c e' => e'.modReed k (fun r => { r with waitCode := c })
  | .stop c => e.reedStop k c

/-- May the reed issue in this cycle? -/
def Eng.reedReady (e : Eng) (k : Nat) : Bool :=
  let r := e.reed k
  decide (r.st = 2) && decide (r.waitCode = 0) && decide (r.ready ≤ e.now) && e.awake

/-- A reed instruction issues: the word at PC must be one that `is` recognises; `ok` says its operands are listed (R112). -/
def Eng.reedInsn (e : Eng) (k : Nat) (is ok : Nat → Bool) (run : Eng → Nat → Nat → ROut) : Eng :=
  let w := e.reedWord k
  if !e.reedReady k ∨ !(is w) then e
  else if !(ok w) then e.reedStop k 3
  else e.reedOut k (run e k w)

def rop (w : Nat) : Nat := bits w 19 15

/-! ### The instructions (R110, R113, R115 to R124) -/

/-- NOP D: D + 1 cycles. -/
def rNop (e : Eng) (k w : Nat) : ROut := if bits w 14 0 = 0 then .done 1 e
  else .wait 10 (e.modReed k (fun r => { r with waitUntil := e.now + bits w 14 0 + 1 }))

/-- The stage bits of SIN as its field (R110). -/
def sinField (lsb : Bool) (b : List Bool) : Nat := if lsb then ofLsb b else ofMsb b

/-- The oldest `n` bits of the input stage and of the samples that enter it with this cycle, with what is left of both (R109, R110). -/
def Reed.takeBits (r : Reed) (n c : Nat) : Option (List Bool × Reed) :=
  let due := r.ipath.filter (fun x => decide (x.1 + 2 ≤ c))
  let all := r.istage ++ due.flatMap (·.2)
  if all.length < n then none
  else
    let m := n - r.istage.length
    let cut (l : List (Nat × List Bool)) : List (Nat × List Bool) :=
      (l.foldl (fun (a : Nat × List (Nat × List Bool)) x => (a.1 - x.2.length, a.2 ++ [(x.1, x.2.drop a.1)])) (m, [])).2.filter (fun x => !x.2.isEmpty)
    some (all.take n, { r with istage := r.istage.drop n, ipath := cut due ++ r.ipath.filter (fun x => decide (c < x.1 + 2)) })

/-- SIN n. -/
def rSin (e : Eng) (k w : Nat) : ROut :=
  let n := bits w 14 10 + 1
  let r := e.reed k
  if 20 < n ∨ n % e.inW k ≠ 0 then .stop 3
  else
    match r.takeBits n e.now with
    | none => .wait 1 e
    | some (b, r) =>
      let f := sinField (e.flag F.REED_CFG_IDIR k) b
      let v := if e.flag F.REED_CFG_IJUST k then r.rxw.toNat >>> n + f <<< (20 - n) else (r.rxw.toNat <<< n + f) % 2 ^ 20
      .done 1 (e.setReed k { r with rxw := word v })

/-- SOUT n. -/
def rSout (e : Eng) (k w : Nat) : ROut :=
  let n := bits w 14 10 + 1
  let r := e.reed k
  let base := e.fld F.REED_CFG_OBASE k
  if 20 < n ∨ n % e.outW k ≠ 0 ∨ !((List.range (e.outW k)).all (fun i => bit (e.oemask k) (base + i))) then .stop 3
  else if !r.ostage.isEmpty then .wait 2 e
  else
    let f := if e.flag F.REED_CFG_OJUST k then r.txw.toNat >>> (20 - n) else r.txw.toNat % 2 ^ n
    let b := if e.flag F.REED_CFG_ODIR k then bitsLsb n f else bitsMsb n f
    .done 1 (e.setReed k { r with ostage := b, ofrom := e.now + 3, markOut := if r.markOut = 1 then 2 else r.markOut })

/-- MOV. -/
def rMov (e : Eng) (k w : Nat) : ROut := .done 1 (e.setReedD k (bits w 14 13) (e.reedS k (bits w 12 10)))

/-- LDI. -/
def rLdi (e : Eng) (k w : Nat) : ROut := .done 1 (e.setReedD k (bits w 14 13) (bits w 12 0))

/-- LDH. -/
def rLdh (e : Eng) (k w : Nat) : ROut :=
  let d := bits w 14 13
  .done 1 (e.setReedD k d (bits w 12 6 * 2 ^ 13 + e.reedS k d % 2 ^ 13))

/-- ALU with an operation on D and S. -/
def rAlu (op : Nat → Nat → Nat) (e : Eng) (k w : Nat) : ROut :=
  let d := bits w 14 13
  .done 1 (e.setReedD k d (op (e.reedS k d) (e.reedS k (bits w 12 10))))

/-- SHI. -/
def rShi (e : Eng) (k w : Nat) : ROut :=
  let d := bits w 14 13
  let n := bits w 11 7
  let v := e.reedS k d
  .done 1 (e.setReedD k d (if bit w 12 then v >>> n else v <<< n))

/-- CRCOK: the accumulator equals the check value, at w bits (R115, R155). -/
def Eng.crcOk (e : Eng) (k : Nat) : Bool :=
  e.reedCrc k == (e.val .COD_CHECK0 k + e.val .COD_CHECK1 k * 2 ^ 20) % 2 ^ (e.fld F.COD_CRCCFG_WM1 k + 1)

/-- The condition of a JMP (R115). -/
def Eng.reedCond (e : Eng) (k c pin : Nat) : Bool :=
  let r := e.reed k
  match c with
  | 0 => true
  | 1 => r.qa == 0
  | 2 => r.qa != 0
  | 3 => r.qb == 0
  | 4 => r.qb != 0
  | 5 => e.pinLevel k (·.pins3) pin
  | 6 => !e.pinLevel k (·.pins3) pin
  | 7 => decide (0 < r.ev)
  | 8 => r.cv
  | 9 => r.ck
  | 10 => e.crcOk k
  | 11 => r.first
  | 12 => r.last
  | 13 => r.bad
  | 14 => r.timed
  | _ => r.late

/-- JMP. -/
def rJmp (e : Eng) (k w : Nat) : ROut :=
  let c := bits w 14 11
  let taken := e.reedCond k c (bits w 10 7)
  let e := if c = 15 then e.modReed k (fun r => { r with late := false }) else e
  if taken then .jump (bits w 5 0) e else .done 1 e

/-- DJNZ. -/
def rDjnz (e : Eng) (k w : Nat) : ROut :=
  let d := if bit w 14 then 3 else 2
  let v := (e.reedS k d + 2 ^ 20 - 1) % 2 ^ 20
  let e := e.setReedD k d v
  if v = 0 then .done 1 e else .jump (bits w 5 0) e

/-- WAITP waits for a sample (R115). -/
def rWaitp (e : Eng) (_k _w : Nat) : ROut := .wait 3 e

/-- WAITE. -/
def rWaite (e : Eng) (k _w : Nat) : ROut :=
  let r := e.reed k
  if r.ev = 0 then .wait 4 e else .done 1 (e.setReed k { r with ev := r.ev - 1 })

/-- SETP modes 0 and 2: one signal. -/
def rSetpOne (enable : Bool) (e : Eng) (k w : Nat) : ROut :=
  let p := bits w 12 9
  if !bit (e.oemask k) p then .stop 3
  else .done 1 (e.modReed k (fun r => { r with sets := r.sets ++ [⟨e.now + 3, enable, 2 ^ p, b2n (bit w 8) * 2 ^ p⟩] }))

/-- SETP modes 1 and 3: the signals in QA[15:0], from QB. -/
def rSetpMany (enable : Bool) (e : Eng) (k _w : Nat) : ROut :=
  let r := e.reed k
  let m := r.qa.toNat % 2 ^ 16
  if m &&& (0xFFFF - e.oemask k) ≠ 0 then .stop 3
  else .done 1 (e.setReed k { r with sets := r.sets ++ [⟨e.now + 3, enable, m, r.qb.toNat &&& m⟩] })

/-- PUSHF: the level is that at the start of the cycle, and the word can be read from the next cycle on (R122). -/
def rPushf (e : Eng) (k w : Nat) : ROut :=
  let r := e.reed k
  if 8 ≤ r.fifo.length + r.fpops then .wait 5 e
  else .done 1 ((e.setReed k { r with fpush := r.fpush ++ [word (e.reedS k (bits w 14 12))] }).produce (256 + 2 * k) (reedPav k))

/-- PULLM (R123). -/
def rPullm (e : Eng) (k w : Nat) : ROut :=
  match (e.reed k).mbx with
  | some (v, c) =>
    if c < e.now then .done 1 ((e.modReed k (fun r => { r with mbx := none })).setReedD k (bits w 14 13) v.toNat) else .wait 8 e
  | none => .wait 8 e

/-- PUSHS (R119). -/
def rPushs (e : Eng) (k w : Nat) : ROut :=
  match e.rxLink k with
  | none => .stop 4
  | some n =>
    let v := e.reedS k (bits w 14 12)
    let sel := bits w 11 10
    let opens := decide ((if sel = 0 then bits w 9 6 else v / 2 ^ 16) = 1) && decide (sel ≤ 1)
    if e.linkUp n ∧ (e.getLink n).ing.full (opens || (e.getLink n).ing.seq.isNone) then .wait 6 e
    else
      let ok := e.reedCond k 10 0
      let tag := match sel with
        | 0 => bits w 9 6
        | 1 => v / 2 ^ 16
        | 2 => if ok then 3 else 8
        | _ => if ok then 2 else 8
      let fw := word (tag * 2 ^ 16 + v % 2 ^ 16)
      let opens := decide (e.wordKind n fw = .opens)
      let e := e.ingressWord n fw (decide (2 ≤ sel)) (e.reed k).markIn
      .done 1 (if opens then e.modReed k (fun r => { r with markIn := 0 }) else e)

/-- S(i + 6) (R120). -/
def Eng.sunIn6 (e : Eng) : Nat := (e.clk.sun.toNat + 6 * incOf e.clk.rate) >>> 20

/-- The timed frames whose deadline PULLS finds too near are dropped before their first word is taken (R120). -/
def Eng.pullDrop (e : Eng) (n : Nat) : Eng :=
  match (e.getLink n).eg with
  | some s =>
    match s.launch with
    | some t =>
      if !s.started ∧ !s.abort ∧ !s.buf.isEmpty ∧ e.deadlineOf n t < e.sunIn6 then
        let e := (e.modLink n (fun l => { l with eg := none })).lnkCount n 12 1
        match s.seq with
        | some q => ((e.dropRecord n q 5).modFrame q (fun f => { f with sending := f.sending.erase n })).settle q
        | none => e
      else e
    | none => e
  | none => e

/-- The TXR takes the next word of the frame in transmission (R97, R98, R120). -/
def Eng.pullWord (e : Eng) (k n d : Nat) (s : Sending) (v : Word) (rest : List Word) : Eng :=
  let tag := v.toNat / 2 ^ 16
  let lastW := decide (tag ≠ 0 ∧ tag ≠ 1)
  let firstW := !s.started
  let dl := s.launch.map (e.deadlineOf n)
  let e := (e.modReed k (fun r => { r with
      first := decide (tag = 1) || (decide (tag = 2) && firstW), last := lastW, bad := decide (tag = 8),
      timed := if firstW then s.launch.isSome else r.timed,
      flt := if firstW then s.launch.getD r.flt else r.flt,
      frame := if firstW then some dl else r.frame })).setReedD k d v.toNat
  let s := { s with started := true, buf := rest }
  let e := e.modLink n (fun l => { l with eg := some s })
  if !lastW then e
  else if s.dropped then e.portFree n s
  else e.txDone n s (decide (tag ≠ 8))

/-- PULLS (R120). -/
def rPulls (e : Eng) (k w : Nat) : ROut :=
  match e.txLink k with
  | none => .stop 4
  | some n =>
    let e := e.pullDrop n
    match (e.getLink n).eg with
    | some s =>
      match s.buf with
      | v :: rest => .done 1 (e.pullWord k n (bits w 14 13) s v rest)
      | [] => .wait 7 e
    | none => .wait 7 e

/-- CRC feed by the settings of the reed (R155). -/
def Eng.reedFeed (e : Eng) (k : Nat) (l : List Bool) : Eng :=
  let poly := e.val .COD_POLY0 k + e.val .COD_POLY1 k * 2 ^ 20
  e.modReed k (fun r => { r with crc := crcFeed (e.fld F.COD_CRCCFG_WM1 k + 1) poly (e.flag F.COD_CRCCFG_REFL k) (e.reedCrc k) l })

/-- CRC INIT. -/
def rCrcInit (e : Eng) (k _w : Nat) : ROut :=
  let seed := (e.val .COD_SEED0 k + e.val .COD_SEED1 k * 2 ^ 20) % 2 ^ (e.fld F.COD_CRCCFG_WM1 k + 1)
  .done 1 (e.modReed k (fun r => { r with crc := seed }))

/-- CRC FEED. -/
def rCrcFeed (e : Eng) (k w : Nat) : ROut :=
  let n := bits w 9 5 + 1
  let s := e.reedS k (bits w 12 10)
  .done 1 (e.reedFeed k (if e.flag F.COD_CRCCFG_REFL k then bitsLsb n s else bitsMsb n s))

/-- DRST (R106). -/
def rDrst (e : Eng) (k w : Nat) : ROut :=
  let side := bits w 14 13
  let anchor := if bit w 12 then (e.reed k).captPos else posOf e.now
  .done 1 (e.reedRestart k (side % 2 == 1) (decide (2 ≤ side)) anchor true)

/-- TLD (R116). -/
def rTld (e : Eng) (k w : Nat) : ROut :=
  let r := e.reed k
  let t := match bits w 14 13 with
    | 0 => r.capt
    | 1 => r.flt
    | 2 => e.t80
    | _ => r.tset
  .done 1 (e.setReed k { r with atime := t / 2 ^ 17 * 2 ^ 17 })

/-- TADD (R116). -/
def rTadd (e : Eng) (k w : Nat) : ROut :=
  let r := e.reed k
  let v := if bit w 14 then signed 20 r.qa.toNat else signed 12 (bits w 11 0)
  let u : Nat := match bits w 13 12 with
    | 0 => 2 ^ 17
    | 1 => 2 ^ 23
    | _ => 2 ^ 30
  .done 1 (e.setReed k { r with atime := toMod 80 ((r.atime : Int) + v * (u : Int)) })

/-- POST (R104, R117): an action on a signal outside OEMASK stops the reed when it posts. -/
def rPost (e : Eng) (k w : Nat) : ROut :=
  let r := e.reed k
  let kind := bits w 14 13
  let pin := bits w 12 9
  if 4 ≤ r.acts.length then .wait 9 e
  else if kind = 0 ∧ !bit (e.oemask k) pin then .stop 3
  else
    let start := if kind = 1 then r.frame else none
    let a : ReedAct := ⟨r.atime, kind, pin, bit w 8, bits w 6 0, e.now, start⟩
    .done 1 (e.setReed k { r with acts := r.acts ++ [a], frame := if kind = 1 then none else r.frame })

/-- MARK: with effect in an RXR (E = 0) or a TXR (E = 1) alone (R117). -/
def rMark (e : Eng) (k w : Nat) : ROut :=
  if (if bit w 14 then e.txLink k else e.rxLink k).isNone then .done 1 e
  else .done 1 (e.modReed k (fun r => if bit w 14 then { r with markOut := 1 } else { r with markIn := r.capt }))

/-- FIRE. -/
def rFire (e : Eng) (k w : Nat) : ROut := .done 1 (e.reedFire (bits w 6 0) (reedPav k))

/-- STOP: cause PROG; an opcode that is none stops with ILLEGAL (R112). -/
def rStop (_e : Eng) (_k w : Nat) : ROut := if rop w = 0x19 then .stop 1 else .stop 3

/-- The requests of a CAN slot to the divider sets and the tracker; `s` the latest input tick at the issue of the CODE (R148, R151). -/
def Eng.codeReq (e : Eng) (k n s : Nat) : Eng :=
  if n = 6 then e.modReed k (fun r => { r with hold := true })
  else if n = 7 then e.modReed k (fun r => { r with hold := false })
  else
    let r := e.reed k
    let dset := n == 4
    let (b, ph) := e.divSet k dset
    let iside := r.iside.restart (s + b) b (s + b) e.now
    let oside := r.oside.restart (s + b - ph * 2 ^ 16) b (s + b - ph * 2 ^ 16) e.now
    e.setReed k { r with dset := dset, iside := iside, oside := oside, istage := [], ipath := [] }

/-- CODE with the function of its slot's mode: it takes two cycles and has its effect at the end of the second (R134, R136, R155). -/
def rCode (f : Nat → Nat → Coder → CodeOut) (e : Eng) (k w : Nat) : ROut :=
  let slot := bits w 11 9
  let r := e.reed k
  let o := f (e.val .COD_PARAM (8 * k + slot)) (e.reedS k (bits w 14 12)) (Tab.get {} r.slots slot)
  .busy (e.setReed k { r with code := some ⟨e.now + 1, slot, bit w 8, o, r.iside.last⟩ })

/-- What a CODE that completes gives: CDO, the latches, its slot's state, the CRC, a request (R134, R148, R155). -/
def Eng.codeEffect (e : Eng) (k : Nat) (p : CodePend) : Eng :=
  let o := p.out
  let e := e.modReed k (fun r => { r with cdo := word o.cdo, cv := o.cv, ck := o.ck, slots := Tab.put r.slots p.slot o.st, code := none })
  let e := if p.crc then e.reedFeed k o.feed else e
  match o.req with
  | some n => e.codeReq k n p.tick
  | none => e

/-- The end of a cycle in which a CODE completes. -/
def Eng.codeEnd (e : Eng) (k : Nat) : Eng :=
  match (e.reed k).code with
  | some p => if e.now < p.till then e else (e.codeEffect k p).modReed k (fun r => r.nextPc e.now)
  | none => e

/-- A waiting WAITP meets its sample in this cycle at a phase (R66, R115): it completes two cycles later. The level of a cycle is that of
phase 15 (R102). -/
def Eng.waitpHit (e : Eng) (k w phase : Nat) : Eng :=
  let mode := bits w 14 13
  let pin := bits w 12 9
  let old := e.pinLevel k (·.before) pin
  let new := e.pinLevel k (·.pins) pin
  let met := match mode with
    | 0 => new && phase == 15
    | 1 => !new && phase == 15
    | 2 => !old && new
    | _ => old && !new
  if !met ∨ (e.reed k).hit.isSome then e
  else e.modReed k (fun r => { r with hit := some (e.now, posOf e.now + phase * 2 ^ 16, e.timeAtPhase phase) })

/-- The end of the cycle in which a WAITP completes: an edge mode loads CAPT (R115). -/
def Eng.waitpEnd (e : Eng) (k : Nat) : Eng :=
  match (e.reed k).hit with
  | none => e
  | some (c, pos, t) =>
    if e.now < c + 2 then e
    else
      let edge := decide (2 ≤ bits (e.reedWord k) 14 13)
      e.modReed k (fun r =>
        let r := if edge then { r with capt := t, captPos := pos } else r
        { r.nextPc e.now with waitCode := 0, hit := none, ready := e.now + 1 })

/-- REED_WAIT_END: the waiting instruction's condition is looked at again (R110, R115, R117, R119 to R124). -/
def Eng.reedWaitEnd (e : Eng) (k pins phase : Nat) : Eng :=
  let e := e.setPins k phase pins
  let r := e.reed k
  if r.st ≠ 2 ∨ r.waitCode = 0 ∨ !e.awake then e
  else
    let w := e.reedWord k
    match r.waitCode with
    | 1 => e.reedOut k (rSin e k w)
    | 2 => e.reedOut k (rSout e k w)
    | 3 => e.waitpHit k w phase
    | 4 => e.reedOut k (rWaite e k w)
    | 5 => e.reedOut k (rPushf e k w)
    | 6 => e.reedOut k (rPushs e k w)
    | 7 => e.reedOut k (rPulls e k w)
    | 8 => e.reedOut k (rPullm e k w)
    | 9 => e.reedOut k (rPost e k w)
    | _ => if r.waitUntil ≤ e.now + 1 then e.reedOut k (.done 1 e) else e

/-- COD_CTL and COD_MODE: a slot's state returns to its reset value (R135). -/
def Eng.slotReset (e : Eng) (k slot : Nat) : Eng := e.modReed k (fun r => { r with slots := Tab.del r.slots slot })

/-- All slots of a reed. -/
def Eng.slotResetAll (e : Eng) (k : Nat) : Eng := e.modReed k (fun r => { r with slots := [] })

/-- A write to the mailbox (R123). -/
def Eng.mbxWrite (e : Eng) (k : Nat) (v : Word) : Eng :=
  let r := e.reed k
  let c := e.now
  if r.mbx.isSome then e.post F.REED_STAT_MB_OVF k else e.setReed k { r with mbx := some (v, c) }

/-- A write of a program word (R128). -/
def Eng.progWrite (e : Eng) (k : Nat) (v : Word) : Eng :=
  let a := e.fld F.REED_PADDR_ADDR k
  (e.modReed k (fun r => { r with bank1 := Tab.put r.bank1 a v })).setFld F.REED_PADDR_ADDR k ((a + 1) % 64)

/-- A write of REEDk_TSET0 commits the staged time, from the next cycle on (R116, R133). -/
def Eng.tsetCommit (e : Eng) (k v : Nat) : Eng :=
  let t := v / 2 ^ 17 * 2 ^ 17 + e.val .REED_TSET (4 * k + 1) * 2 ^ 20 + e.val .REED_TSET (4 * k + 2) * 2 ^ 40 +
    e.val .REED_TSET (4 * k + 3) * 2 ^ 60
  e.modReed k (fun r => { r with tsetNext := some t })

/-! ### The end of a cycle -/

/-- What the reed's cycle brought stands from the next cycle on: words pushed, the time committed (R122, R133). In NAP and DORMANT the reed is frozen:
what it waits for moves on with it (R127). -/
def Reed.endCycle (r : Reed) (awake : Bool) : Reed :=
  let r := { r with fifo := r.fifo ++ r.fpush, fpush := [], fpops := 0, tset := r.tsetNext.getD r.tset, tsetNext := none }
  if awake then r
  else
    { r with
      waitUntil := r.waitUntil + 1, ready := r.ready + 1, ofrom := r.ofrom + 1
      ipath := r.ipath.map (fun x => (x.1 + 1, x.2)), sets := r.sets.map (fun s => { s with due := s.due + 1 })
      code := r.code.map (fun p => { p with till := p.till + 1 }), hit := r.hit.map (fun h => (h.1 + 1, h.2)) }

/-- The end of a cycle at a reed: samples enter the stage, a WAITP or a CODE completes, a FORCE takes place (R109, R115, R131, R134). -/
def Eng.reedEnd (e : Eng) (k : Nat) : Eng :=
  let e := if e.awake then (((e.reedSettle k).waitpEnd k).codeEnd k).forceEnd k else e
  e.modReed k (fun r => r.endCycle e.awake)

def Eng.reedsEnd (e : Eng) : Eng := foldS (fun k e => e.reedEnd k) (e.reeds.map (·.1)) e

end Sys2Proof.Machine
end

