-- ==== Sys2Proof/Machine/Causeway.lean ====
section
/-! DEFINITION. Deliveries of the Causeway to its consumers (14_causeway.md R364 to R373) and what a tick launch and the end of
ticks do in every unit (02_time_levels.md R33, R46). -/

namespace Sys2Proof.Machine

/-- A counting input with `k` arrivals: the count, and the arrivals lost (R369). -/
def countIn (old k : Nat) : Nat × Nat := (min (old + k) 15, old + k - 15)

/-- Lost arrivals (R369). -/
def Eng.saturated (e : Eng) (lost : Nat) : Eng :=
  if lost = 0 then e else (e.bumpReg .CWY_SATCNT 0 lost).post F.CWY_STAT_SAT 0

/-- Arrivals at event input i of thread t, or at its interrupt input (i = 8). -/
def Eng.threadArrive (e : Eng) (t i k : Nat) : Eng :=
  let x := e.getThr t
  if i = 8 then
    let (n, lost) := countIn x.irq k
    (e.setThr t { x with irq := n }).saturated lost
  else
    let (n, lost) := countIn (Tab.get 0 x.ev i) k
    (e.setThr t { x with ev := Tab.put x.ev i n }).saturated lost

/-- Does thread t wait on its input i (R474)? -/
def Eng.waitsOn (e : Eng) (t i : Nat) : Bool :=
  let x := e.getThr t
  if i = 8 then decide (x.st = .wait) && bit x.flags.toNat 4
  else match x.wait with
    | .wev m _ => bit m i
    | _ => false

/-- Does an input of thread t subscribe channel ch (R371)? Input 8 is the interrupt input. -/
def Eng.threadSub (e : Eng) (t i ch : Nat) : Bool :=
  if i = 8 then e.subscribes F.THR_IRQCFG_EN F.THR_IRQCFG_CH t ch else e.subscribes F.THR_EVCFG_EN F.THR_EVCFG_CH (8 * t + i) ch

/-- `k` firings of channel ch reach the parts of pavilion p in this cycle (R364, R369, R370). -/
def Eng.deliverPav (e : Eng) (p ch k : Nat) : Eng :=
  if k = 0 then e
  else
    let e := foldS (fun t e => foldS (fun i e =>
      if e.threadSub t i ch then (if e.waitsOn t i then e.wakeBy 32 else e).threadArrive t i k else e) (List.range 9) e)
      (pavThreads p) e
    let e := foldS (fun r e =>
      if e.subscribes F.REED_EVT_EN F.REED_EVT_CH r ch then
        let e := if (e.reed r).waitCode = 0 then e else e.wakeBy 32
        let (n, lost) := countIn (e.reed r).ev k
        (e.modReed r (fun x => { x with ev := n })).saturated lost
      else e) ((List.range 16).map (16 * p + ·)) e
    let e := if e.subscribes F.REED_SYNC_ONCH F.REED_SYNC_CH (16 * p) ch then e.reedSync p else e
    let e := foldS (fun n e =>
      if e.subscribes F.LNK_LOSSCH_EN F.LNK_LOSSCH_CH n ch then e.lossEvent n 3 else e) ((List.range 8).map (8 * p + ·)) e
    foldS (fun u e =>
      let e := if e.subscribes F.TMR_EVT_EEN F.TMR_EVT_ECH u ch then
          e.setTmr u { e.getTmr u with evAt := e.now + 1 } else e
      if e.subscribes F.TMR_EVT_CEN F.TMR_EVT_CCH u ch then e.tmrCapture u else e) ((List.range 8).map (8 * p + ·)) e

/-- The firings of channel ch that have reached pavilion p by now. -/
def Firing.due (now ch p : Nat) (f : Firing) : Bool :=
  f.ch == ch && decide (f.cyc + (if f.dom = p then 2 else 3) ≤ now) && !(f.dom == p && f.near)

/-- A global start in this cycle: the lead timers start in the next one (R385). -/
def Eng.requestStart (e : Eng) : Eng := { e with sys := { e.sys with gstart := e.now + 1 } }

/-- CHANNEL_DELIVERY: the firings of channel ch whose delivery is due reach their consumers (R364). -/
def Eng.channelDelivery (e : Eng) (ch : Nat) : Eng :=
  if !e.awake then e
  else
    let fs := e.cwy.inflight
    let far := fs.filter (fun f => f.ch == ch && decide (f.cyc + 3 ≤ e.now))
    let rest := (fs.filter (fun f => !(f.ch == ch && decide (f.cyc + 3 ≤ e.now)))).map
      (fun f => if f.ch = ch ∧ f.cyc + 2 ≤ e.now then { f with near := true } else f)
    let e := { e with cwy := { e.cwy with inflight := rest } }
    let e := foldS (fun p e => e.deliverPav p ch (fs.filter (fun f => f.due e.now ch p)).length) [0, 1, 2] e
    let e :=
      if e.subscribes F.TMR_GSTART_ONCH F.TMR_GSTART_CH 0 ch && !far.isEmpty then e.requestStart else e
    match far.getLast? with
    | none => e
    | some f => foldS (fun n e =>
        if e.subscribes F.SUN_ECAP_CFG_EN F.SUN_ECAP_CFG_CH n ch then e.ecapture n f.t80.toNat else e) [0, 1, 2, 3] e

/-- The channels with a firing whose delivery is due (R364). -/
def Eng.chansDue (e : Eng) : List Nat :=
  ((e.cwy.inflight.filter (fun f => decide (f.cyc + 3 ≤ e.now) || (decide (f.dom < 3) && !f.near && decide (f.cyc + 2 ≤ e.now)))).map
    (fun f => f.ch)).eraseDups

/-- Every delivery that is due has been made: those of a cycle come before the issues of threads and reeds in it, which find their counts
(R304, R369), and at the latest as it ends (DESIGN CHOICE, log 3). -/
def Eng.deliverDue (e : Eng) : Eng := foldS (fun ch e => e.channelDelivery ch) e.chansDue e

/-- FLOOD_COUNT_RESET (R372): every 131,072 cycles while ticks do not run. -/
def Eng.floodReset (e : Eng) : Eng :=
  if e.running ∨ e.now < e.tick.floodBase + 131072 then e
  else { e.floodZero with tick := { e.tick with floodBase := e.tick.floodBase + 131072 } }

/-- A W1C write of ones to CWY_MUTEw unmutes channels (R373), but for those muted in this cycle (R9). -/
def Eng.unmuteBits (e : Eng) (w v : Nat) : Eng :=
  foldS (fun i e =>
    if bit v i ∧ bit (e.val .CWY_MUTE w) i ∧ !bit (Tab.get 0 e.recent.bits (Reg.key .CWY_MUTE w)) i then
      let e := e.setReg .CWY_MUTE w (word (setBits (e.val .CWY_MUTE w) i i 0))
      let c := { e.cwy with count := Tab.put e.cwy.count (20 * w + i) 0, unmuted := Tab.put e.cwy.unmuted (20 * w + i) (e.now + 1) }
      { e with cwy := c }
    else e) (List.range 20) e

/-- A write of 0 to DECL in a cycle in which a reed fired the channel leaves it 1 (R366). -/
def Eng.declWrite (e : Eng) (ch v : Nat) : Eng :=
  if Tab.get 0 e.cwy.declared ch = e.now + 1 then e else (e.keepOld .CWY_CHCFG ch).setFld F.CWY_CHCFG_DECL ch v

/-- Does a change of the register apply from the next cycle on (R367, R371)? -/
def Reg.nextCycle : Reg → Bool
  | .CWY_PMAP | .THR_EVCFG | .THR_IRQCFG | .REED_EVT | .LNK_LOSSCH | .TMR_EVT | .TMR_GSTART | .SUN_ECAP_CFG => true
  | _ => false

/-! ### The launch of a tick in every unit -/

/-- A pending slot table of pavilion p comes into force (R240). -/
def Eng.takeTable (e : Eng) (p : Nat) : Eng :=
  let x := e.getBrl p
  match x.pend with
  | some (tab, _) => (e.setBrl p { x with force := tab, pend := none }).setFld F.BRL_STAT_PENDING p 0
  | none => e

/-- Slot tables that become due at a launch (R240): WHEN 1 at any tick, WHEN 0 at a matrix boundary. -/
def Eng.launchTables (e : Eng) (isMatrix : Bool) : Eng :=
  foldS (fun p e => match (e.getBrl p).pend with
    | some (_, w) => if w || isMatrix then e.takeTable p else e
    | none => e) [0, 1, 2] e

/-- SLOT_TABLE_TAKE_EFFECT: while ticks do not run, the first round boundary after the checks end and after RUNNING cleared (R240). -/
def Eng.tableDue (e : Eng) (p : Nat) : Eng :=
  if !e.running ∧ e.atRound ∧ (e.getBrl p).pendAt < e.now ∧ e.tick.stopAt < e.now then e.takeTable p else e

/-- A doorbell pass is requested (R410). -/
def Eng.requestPass (e : Eng) : Eng := { e with sys := { e.sys with passReq := true, passAt := if e.sys.passReq then e.sys.passAt else e.now } }

/-- TICK_LAUNCH: the decision for this round boundary and, at a launch, its boundary cycle in every unit (R27, R33). -/
def Eng.tickLaunch (e : Eng) : Eng :=
  match e.launchPlan with
  | none => e
  | some pl =>
    let (isMatrix, took, e) := e.launch pl
    let e := e.launchTables isMatrix
    let e := e.linkTicks
    let e := if isMatrix then e.auditStart else e
    let e := if took then e.schRecheck else e
    let p := { e.pwr with barred := false }
    { e with tick := { e.tick with dec := none }, pwr := p }.requestPass

/-- The pending tick settings take effect without a launch (R42): the row sets of enabled links are checked again (R210). -/
def Eng.tickTake (e : Eng) : Eng :=
  match e.tick.pend with
  | some (s, _) =>
    ({ e with tick := { e.tick with set := s, pend := none, takeNext := false } }.setFld F.TIK_STAT_PENDING 0 0).schRecheck
  | none => e

/-- Settings applied in the cycle before while TIK_CTL.RUN was 0 (R42). -/
def Eng.tickDue (e : Eng) : Eng := if e.tick.takeNext then e.tickTake else e

/-- TIK_CTL.RUN cleared: launches stop from the next decision on; an armed sequencer is disarmed (R46), and settings that are
pending then take effect at once (DESIGN CHOICE, log 66). -/
def Eng.tickDisarm (e : Eng) : Eng :=
  let e := e.setFld F.TIK_CTL_RUN 0 0
  let e := { e with tick := { e.tick with armed := none, stopping := e.tick.stopping || e.running } }
  if e.running then e else e.tickTake

/-- TIK_STAT.RUNNING clears (R46, R47): pending settings take effect (R42), flap holds expire (04_link_ports.md R90), schedule layers
leave their windows (08_scheduled_windows.md R224), and flood counts and doorbell polls are counted from here (R372, R410). -/
def Eng.ticksEnd (e : Eng) : Eng :=
  let e := (e.setFld F.TIK_STAT_RUNNING 0 0).tickTake.schTicksStop
  let e := foldS (fun n e => e.expiryEvent n) (List.range 24) e
  let t := { e.tick with stopAt := e.now, floodBase := e.now, pollBase := e.now, dec := none, stopping := false }
  { e with tick := t }

/-- TICK_RUNNING_CLEAR: at the first round boundary whose decision cycle follows the clearing of RUN (R46). -/
def Eng.tickRunningClear (e : Eng) : Eng :=
  match e.tick.dec with
  | none => e
  | some d => if d.boundary ≠ e.now ∨ d.run ∨ !e.running then e else e.ticksEnd

/-! ### Engine states and faults -/

/-- The engine leaves RUN: TIK_CTL.RUN clears, and RUNNING with it (R47). -/
def Eng.leaveRun (e : Eng) : Eng :=
  let e := e.setFld F.TIK_CTL_RUN 0 0
  let e := { e with tick := { e.tick with armed := none } }
  if e.running then e.ticksEnd else e.tickTake

/-- An image load is given up: its cells go back and are released. -/
def Eng.loadDrop (e : Eng) : Eng :=
  match e.keys.img with
  | none => e
  | some g =>
    let held := (e.allocOf AllocFor.isImage).elim [] (fun a => a.cells)
    (({ e with keys := { e.keys with img := none } }.giveBack held).allocDrop AllocFor.isImage).releaseChain g.cells

/-- A change of engine state other than entry to RESET, with its STATE entry (19_reset_recovery.md R485, R490). Leaving RUN clears
TIK_CTL.RUN and RUNNING (R47); the doorbell passes asked for in RESET merge into one in the cycle after it (R484); entry to FAULTED cuts off a pending command (R491), and a load in progress ends there, since only a
reset leaves FAULTED. -/
def Eng.changeState (e : Eng) (new : Nat) : Eng :=
  let old := e.engState
  let e1 := if old = 3 then e.leaveRun else if old = 0 then { e with sys := { e.sys with passAt := e.now } } else e
  let e2 := e1.setFld F.JX_STATE_STATE 0 new
  let e3 := e2.evq 17 0 ([BitVec.ofNat 8 old, BitVec.ofNat 8 new] ++ leBytes 3 (if new = 4 then e.val .THR_FPC 1 else 0))
  if new = 4 then (e3.cutOff false).loadDrop else e3

/-- The fault of a thread (09_barrels_threads.md R255 to R257): the record, THR_FAULT, the EVQ entry; thread 1 takes the engine
to FAULTED. -/
def Eng.faultThr (e : Eng) (t cause pc addr : Nat) : Eng :=
  let x := e.getThr t
  let e := e.setThr t { x with st := .faulted, wait := .none, seq := none, mem := none, hostWin := false,
                               holdReq := false, haltReq := none, step := false, atDone := false, entered := false, pc := word pc
                               mark := (e.now + 1, 4) }
  let e := ((e.setReg .THR_FCAUSE t (word cause)).setReg .THR_FPC t (word pc)).setReg .THR_FADDR t (word addr)
  let e := e.postBits .THR_FPEND (t / 20) (1 <<< (t % 20))
  let e := e.bumpReg .THR_FCNT 0 1
  let e := e.produce 8 domEngine
  let e := e.evq 4 t ([BitVec.ofNat 8 cause] ++ leBytes 3 pc ++ leBytes 3 addr)
  if t = 1 ∧ e.engState ≠ 4 then e.changeState 4 else e

end Sys2Proof.Machine
end

