-- ==== Sys2Proof/Machine/Rings.lean ====
section
/-! DEFINITION. Host rings (16_host_rings.md R405 to R424, R429): the doorbell pass, fetching, frames from and to port 24, stopped
rings, and each kind of response on the initiator port. -/

namespace Sys2Proof.Machine

/-- `len` bytes at host address `a` as transactions that cross no 128-byte boundary (R404): (address, length). -/
def chunks : Nat → Nat → Nat → List (Nat × Nat)
  | 0, _, _ => []
  | k + 1, a, n =>
    if n = 0 then []
    else
      let m := min n (128 - a % 128)
      (a, m) :: chunks k (a + m) (n - m)

/-- The transactions of a frame or buffer of at most 9,216 bytes. -/
def frameChunks (a n : Nat) : List (Nat × Nat) := chunks 74 a n

/-! ### Ring states (R412) -/

/-- A failed transaction stops a ring that is ACTIVE; it is made again at RESTART. -/
def Eng.stopRing (e : Eng) (r cause : Nat) (again : List Txn) : Eng :=
  let q := e.getRing r
  if e.ringState r = 0 then e
  else
    let e := e.setRing r { q with retry := q.retry ++ again }
    if e.ringState r = 1 then ((e.setFld F.HRG_RSTAT_STATE r 2).setFld F.HRG_RSTAT_CAUSE r cause).raise 5 else e

/-- Fetches entries up to H − 1, up to four in a burst (R410). -/
def Eng.fetchRing : Nat → Nat → Eng → Eng
  | 0, _, e => e
  | k + 1, r, e =>
    let q := e.getRing r
    let h := e.fld F.HRG_RHOST_H r
    let d := e.fld F.HRG_RIDX_D r
    if e.ringState r ≠ 1 ∨ q.wait.isSome ∨ (h + 65536 - d) % 65536 ≤ (q.next + 65536 - d) % 65536 then e
    else
      let n := min ((h + 65536 - q.next) % 65536) (4 - q.next % 4)
      let e := e.setRing r { q with next := (q.next + n) % 65536 }
      Eng.fetchRing k r (e.issueTxn ⟨ringId r, false, e.ringBase r + q.next % e.ringN r * 32, 32 * n, [], .fetch r q.next n⟩)

/-- The rings whose entries the engine fetches: CMDQ, TXQ, RXQ. -/
def fetchedRings : List Nat := 0 :: (List.range 16).map (· + 2)

/-- Is work of an OFF ring still outstanding (R412)? -/
def Eng.ringDrains (e : Eng) (r : Nat) : Bool :=
  let q := e.getRing r
  decide (e.ringState r = 0) &&
    (!q.outq.isEmpty || !q.dma.isEmpty || (e.allocOf (AllocFor.isTx r)).isSome || q.rx.isSome ||
      e.sw.frames.any (fun f => match f.2.tx with
        | some (r', _) => r' == r && !f.2.done
        | none => false))

/-- OFF to ACTIVE: the ring starts anew (R412). -/
def Eng.ringActive (e : Eng) (r : Nat) : Eng :=
  let e := (e.setFld F.HRG_RIDX_D r 0).setFld F.HRG_RHOST_H r 0
  let e := (e.setFld F.HRG_RSTAT_STATE r 1).setFld F.HRG_RSTAT_CAUSE r 0
  let e := if r = 0 then { e with keys := { e.keys with nextCpl := 0, stopped := [] } } else e
  e.setRing r { lost := (e.getRing r).lost }

/-- EN set to 1 (R412): while work of the ring still completes, it becomes ACTIVE once that has ended (DESIGN CHOICE, log 40). -/
def Eng.ringOn (e : Eng) (r : Nat) : Eng :=
  let e := e.setFld F.HRG_RCTL_EN r 1
  if e.ringState r ≠ 0 ∨ e.ringDrains r then e else e.ringActive r

/-- Rings that were set to 1 while their work completed become ACTIVE (R412). -/
def Eng.ringsUp (e : Eng) : Eng :=
  foldS (fun r e => if e.flag F.HRG_RCTL_EN r ∧ e.ringState r = 0 ∧ !e.ringDrains r then e.ringActive r else e) (List.range 20) e

/-- EN set to 0: no further fetch; what is under way completes (R412). -/
def Eng.ringOff (e : Eng) (r : Nat) : Eng :=
  let e := e.setFld F.HRG_RCTL_EN r 0
  if e.ringState r = 0 then e
  else
    let q := e.getRing r
    let e := (e.setFld F.HRG_RSTAT_STATE r 0).setFld F.HRG_RSTAT_CAUSE r 0
    e.setRing r { q with fetched := [], wait := none, retry := [], bufs := [] }

/-- RESTART (R412): STOPPED to ACTIVE; the failed read or write is made again first. -/
def Eng.ringRestart (e : Eng) (r : Nat) : Eng :=
  if e.ringState r ≠ 2 then e
  else
    let q := e.getRing r
    let e := (e.setFld F.HRG_RSTAT_STATE r 1).setFld F.HRG_RSTAT_CAUSE r 0
    let e := e.setRing r { q with retry := [] }
    (foldS (fun x e => e.issueTxn x) q.retry e).ringKick r

/-! ### The doorbell pass (R410) -/

/-- DOORBELL_PASS: a requested pass starts, from the cycle after its request on, once none runs and the engine has left RESET (R484). -/
def Eng.passStart (e : Eng) : Eng :=
  if !e.sys.passReq ∨ e.now ≤ e.sys.passAt ∨ e.flag F.HRG_STAT_PASS 0 ∨ e.engState = 0 ∨ !e.awake then e
  else
    let a := e.val .HRG_DBBASE0 0 * 128 + e.fld F.HRG_DBBASE1_BASE_HI 0 * 2 ^ 27
    let e := { e with sys := { e.sys with passReq := false } }
    (e.setFld F.HRG_STAT_PASS 0 1).issueTxn ⟨0x10, false, a, 128, [], .doorbell⟩

/-- The doorbell word of a ring (R406). -/
def doorbellWord (r : Nat) : Nat := if r = 0 then 0 else if r = 1 then 17 else if r < 18 then r - 1 else r

/-- Does a doorbell word keep the limits of R408? -/
def Eng.doorbellOk (e : Eng) (r w : Nat) : Bool :=
  let d := e.fld F.HRG_RIDX_D r
  let gap := if r = 1 ∨ 18 ≤ r then (d + 65536 - w % 65536) % 65536 else (w + 65536 - d) % 65536
  decide (w < 65536) && decide (gap ≤ e.ringN r)

/-- The pass ends once no fetch is outstanding; PASSES counts it. -/
def Eng.passEnd (e : Eng) : Eng :=
  let busy := e.initq.any (fun x => match x.why with
    | .fetch _ _ _ => true
    | .doorbell => true
    | _ => false)
  if e.flag F.HRG_STAT_PASS 0 ∧ !busy then (e.setFld F.HRG_STAT_PASS 0 0).count 2 0 2 1 else e

/-- The snapshot of the doorbell block: checks, host indices, fetches (R408 to R410). -/
def Eng.passTake (e : Eng) (data : List Byte) : Eng :=
  let e := foldS (fun r e =>
    if e.ringState r ≠ 1 then e
    else
      let w := leAt data (4 * doorbellWord r) 4
      if e.doorbellOk r w then e.setFld F.HRG_RHOST_H r w
      else e.stopRing r 3 []) (List.range 20) e
  (foldS (fun r e => Eng.fetchRing 1100 r e) fetchedRings e).passEnd

/-- Entries that were fetched (R410); a ring that has stopped since reads them again at RESTART. -/
def Eng.fetchTake (e : Eng) (x : Txn) (r idx n : Nat) (data : List Byte) : Eng :=
  let q := e.getRing r
  let es := (List.range n).map (fun i => ((idx + i) % 65536, (data.drop (32 * i)).take 32))
  (if e.ringState r = 1 then e.setRing r { q with fetched := q.fetched ++ es }
    else if e.ringState r = 2 then e.setRing r { q with retry := q.retry ++ [x] } else e).passEnd

/-- DOORBELL_POLL: a pass is requested every 65,536 cycles while ticks do not run and POLL is 1 (R410). -/
def Eng.doorbellPoll (e : Eng) : Eng :=
  if e.running ∨ !e.flag F.HRG_CFG_POLL 0 ∨ e.now < e.tick.pollBase + 65536 then e
  else { e with tick := { e.tick with pollBase := e.tick.pollBase + (e.now - e.tick.pollBase) / 65536 * 65536 } }.requestPass

/-- KNOCK: the level of JX_KNOCK after its synchroniser; a rising edge requests a pass (R410, R411) and wakes (R471). -/
def Eng.knock (e : Eng) (level : Bool) : Eng :=
  let rise := level && !e.sys.knock
  let e := { e with sys := { e.sys with knock := level } }
  if rise then (e.wakeBy 8).requestPass else e

/-! ### TX frames (R417 to R420) -/

/-- Does a TXQ entry keep R417? -/
def txEntryOk (d : List Byte) : Bool :=
  decide (byteAt d 5 < 4) && decide (1 ≤ leAt d 6 2) && decide (leAt d 6 2 ≤ 9216) && decide (leAt d 8 4 < 2 ^ 24) &&
    leAt d 22 10 == 0

/-- The outcome of TX entry `idx` of ring r: status, port, SEQ (R419). -/
def Eng.txResult (e : Eng) (r idx st port seq : Nat) : Eng :=
  e.setRing r { e.getRing r with res := Tab.put (e.getRing r).res idx (st, port, seq) }

/-- The outcome of an entry whose frame took no SEQ: the SEQ written back is a free value. -/
def Eng.txNoSeq (e : Eng) (r idx st : Nat) : Eng :=
  let (q, e) := e.freeVal 20
  e.txResult r idx st 24 q

/-- The allocation of the cells of an entry begins (R418). -/
def Eng.txAlloc (e : Eng) (r idx : Nat) (d : List Byte) : Eng := e.allocStart (.tx r idx d) (cellsOf (leAt d 6 2)) (r == 9)

/-- Is ring r allocating? -/
def Eng.allocating (e : Eng) (r : Nat) : Bool := (e.allocOf (AllocFor.isTx r)).isSome

/-- The cells of an entry are there, and its reads start, or they are refused and the entry waits for the next round boundary (R418). -/
def Eng.txCells (e : Eng) (r idx : Nat) (d : List Byte) (a : Alloc) (ok : Bool) : Eng :=
  let e := e.allocDrop (AllocFor.isTx r)
  let q := e.getRing r
  let len := leAt d 6 2
  if !ok then e.setRing r { q with wait := some (idx, d, e.now) }
  else
    let e := e.setRing r { q with wait := none, dma := q.dma ++ [{ idx := idx, entry := d, cells := a.cells, len := len }] }
    let h := leAt d 0 5
    let e := foldS (fun (c : Nat × Nat) e => e.issueTxn ⟨ringId r, false, c.1, c.2, [], .txData r idx (c.1 - h)⟩) (frameChunks h len) e
    if q.wait.isSome then Eng.fetchRing 1100 r e else e

/-- TX_DESCRIPTOR: the next fetched entry of TXQk starts a frame (R418). -/
def Eng.txDescriptor (e : Eng) (k : Nat) : Eng :=
  let r := 2 + k
  let q := e.getRing r
  if e.ringState r ≠ 1 ∨ q.wait.isSome ∨ e.allocating r ∨ !e.awake then e
  else
    match q.fetched with
    | [] => e
    | (idx, d) :: rest =>
      let e := e.setRing r { q with fetched := rest }
      if !txEntryOk d then (e.count 2 0 8 1).txNoSeq r idx 7 else e.txAlloc r idx d

/-- TX_CELL_RETRY: the refused allocation of TXQk is tried again at a round boundary (R418). -/
def Eng.txCellRetry (e : Eng) (k : Nat) : Eng :=
  let r := 2 + k
  match (e.getRing r).wait with
  | none => e
  | some (idx, d, c) =>
    if !e.atRound ∨ e.now ≤ c ∨ e.allocating r then e else e.txAlloc r idx d

/-- The frame record of a TX frame, with its SEQ (R165, R418). -/
def Eng.txFrame (e : Eng) (r : Nat) (x : TxDma) : Nat × Eng :=
  let d := x.entry
  let look := bit (byteAt d 5) 0
  let (q, e) := e.takeSeq
  let e := foldS (fun c e => e.setCell c { e.cell c with seq := q }) x.cells e
  let launch := if bit (byteAt d 5) 1 then some (leAt d 12 10) else none
  (q, e.setFrame q { head := x.cells.headD 0, cells := x.cells.length, len := x.len, inPort := 24,
                     cls := if look then e.fld F.FWD_PCFG_DCLS 24 else r - 2, sof := e.t80, tx := some (r, x.idx), launch := launch })

/-- The lookup of a TX frame once the bytes read hold its last lookup byte (R172, R418). -/
def Block.txLook (b : Block) (q : Nat) (x : TxDma) : Bool × Eng :=
  let e := b.eng
  if x.looked ∨ !bit (byteAt x.entry 5) 0 then (x.looked, e)
  else
    let hdr := (List.range (min x.got 256)).map (fun i => b.mem.cellByte (x.cells.getD (i / 128) 0) (i % 128))
    let hit : Bool := match e.lastLookup 24 hdr with
      | some p => decide (p ≤ x.got)
      | none => false
    if hit then (true, e.lookupFrame q 24 hdr false)
    else if x.got = x.len then (true, e.lookupFrame q 24 hdr true)
    else (false, e)

/-- Bytes of a TX frame have been read into the Basin (R418). -/
def Block.txData (b : Block) (r idx : Nat) (data : List Byte) : Block :=
  let e := b.eng
  match (e.getRing r).dma.find? (fun x => x.idx == idx) with
  | none => b
  | some x =>
    let (q, e) : Nat × Eng := match x.seq with
      | some q => (q, e)
      | none => e.txFrame r x
    let place (a : Mem × Nat) (v : Byte) : Mem × Nat :=
      (a.1.setBasin (x.cells.getD (a.2 / 128) 0 * 128 + a.2 % 128) v, a.2 + 1)
    let m := (data.foldl place (b.mem, x.got)).1
    let e := foldS (fun i e => e.eccClear (8 * 2 ^ 20 + (x.cells.getD ((x.got + i) / 128) 0 * 128 + (x.got + i) % 128) / 2))
      (List.range data.length) e
    let x := { x with got := x.got + data.length, seq := some q }
    let (looked, e) := Block.txLook ⟨m, e⟩ q x
    let x := { x with looked := looked }
    let e := e.modFrame q (fun f => { f with written := x.got })
    let y := e.getRing r
    if x.got < x.len then
      ⟨m, e.setRing r { y with dma := y.dma.map (fun z => if z.idx = idx then x else z) }⟩
    else
      let e := e.setRing r { y with dma := y.dma.filter (fun z => z.idx != idx) }
      let t := e.t80
      let e := e.modFrame q (fun f => { f with ended := true, readyAt := t })
      let b : Block := ⟨m, if bit (byteAt x.entry 5) 0 then e.afterEnd q
        else (e.modFrame q (fun f => { f with verdict := ⟨leAt x.entry 8 4, r - 2, false⟩, dueAt := some (e.now + 1) })).afterEnd q⟩
      if x.len % 128 = 0 then b
      else b.fillFree (x.cells.getD (x.len / 128) 0 * 128 + x.len % 128) (128 - x.len % 128)

/-- A read of TX frame data failed (R419): DMA_ERR; the cells are released. -/
def Eng.txDataErr (e : Eng) (r idx : Nat) : Eng :=
  let y := e.getRing r
  match y.dma.find? (fun x => x.idx == idx) with
  | none => e
  | some x =>
    let e := (e.setRing r { y with dma := y.dma.filter (fun z => z.idx != idx) }).count 2 0 7 1
    match x.seq with
    | none => (e.releaseChain x.cells).txNoSeq r idx 6
    | some q =>
      let e := e.unqueueAll q
      (e.modFrame q (fun f => { f with ended := true, bad := true, committed := true, trapped := false, out := some (6, 24) })).settle q

/-- The index of the next write-back of a TX ring. -/
def Eng.nextWriteback (e : Eng) (r : Nat) : Nat := (e.fld F.HRG_RIDX_D r + (e.getRing r).outq.length) % 65536

/-- TX_WRITEBACK: the next entry of TXQk in index order is written back once its outcome is known (R419, R420); PORT of a frame that
was SENT is a free value (assumption 12). -/
def Eng.txWriteback (e : Eng) (k : Nat) : Eng :=
  let r := 2 + k
  let idx := e.nextWriteback r
  match Tab.find (e.getRing r).res idx with
  | none => e
  | some (st, port, seq) =>
    if !e.awake then e
    else
      let q := e.getRing r
      let e := e.setRing r { q with res := Tab.del q.res idx }
      let e := if st = 0 then e.count 2 0 0 1 else e
      let (port, e) : Nat × Eng := if st = 0 then e.freeVal 8 else (port, e)
      e.ringOut r idx (leBytes 3 seq ++ [0] ++ leBytes 1 st ++ leBytes 1 port ++ [0, 0x80])

/-! ### RX frames (R421 to R424) -/

/-- RX_BUFFER_POST: the next fetched entry of RXQk offers its buffer; a BUFLEN outside 1 to 9,216 stops the ring (R421). -/
def Eng.rxBufferPost (e : Eng) (k : Nat) : Eng :=
  let r := 10 + k
  let q := e.getRing r
  if e.ringState r ≠ 1 ∨ !e.awake then e
  else
    match q.fetched with
    | [] => e
    | (idx, d) :: rest =>
      let n := leAt d 6 2 % 2 ^ 14
      if n = 0 ∨ 9216 < n then (e.setRing r { q with fetched := [], next := idx }).stopRing r 3 []
      else e.setRing r { q with fetched := rest, bufs := q.bufs ++ [(idx, d)] }

/-- The buffers that take `len` bytes, with the bytes in each; none where there are too few (R422). -/
def rxTake : List (Nat × List Byte) → Nat → Option (List RxPart)
  | _, 0 => some []
  | [], _ + 1 => none
  | (idx, d) :: rest, len + 1 =>
    let n := min (len + 1) (leAt d 6 2 % 2 ^ 14)
    (rxTake rest (len + 1 - n)).map (fun l => ⟨idx, d, n, (frameChunks (leAt d 0 5) n).length⟩ :: l)

/-- The frame of class k that port 24 could take now, with its buffers. -/
def Eng.rxHead (e : Eng) (k : Nat) : Option (Nat × Frame × Option (List RxPart)) :=
  match e.queueHead 24 k with
  | some (q, f) =>
    if f.eligible ∧ f.ended then
      some (q, f, if e.ringState (10 + k) = 1 then rxTake (e.getRing (10 + k)).bufs f.len else none)
    else none
  | none => none

/-- The frames at the heads of port 24's queues, highest class first. -/
def Eng.rxHeads (e : Eng) : List (Nat × Nat × Frame × Option (List RxPart)) :=
  [7, 6, 5, 4, 3, 2, 1, 0].filterMap (fun k => (e.rxHead k).map (fun x => (k, x)))

/-- RXWAIT as a cycle ends: some head frame lacks its buffers (R424). -/
def Eng.rxWaits (e : Eng) : Eng :=
  let waits := e.rxHeads.any (fun x => x.2.2.2.isNone)
  if waits = e.flag F.HRG_STAT_RXWAIT 0 then e
  else (if waits then e.raise 7 else e).setFld F.HRG_STAT_RXWAIT 0 (b2n waits)

/-- FRAME_TX_START at port 24: the free port chooses the highest class whose head frame has its buffers (R178, R215, R422). -/
def Eng.rxStart (e : Eng) : Eng :=
  if (e.getLink 24).eg.isSome then e
  else
    match e.rxHeads.find? (fun x => x.2.2.2.isSome) with
    | none => e
    | some (k, q, f, _) =>
      let e := (e.unqueue q 24).modFrame q (fun f => { f with sending := f.sending ++ [24] })
      let c := e.now
      e.modLink 24 (fun l => { l with eg := some { seq := some q, gen := none, cls := k, startCyc := c, launch := f.launch } })

/-- A byte of a frame in the Basin. -/
def Block.frameByte (b : Block) (f : Frame) (cs : List Nat) (i : Nat) : Byte :=
  if i < f.len then b.mem.cellByte (cs.getD (i / 128) 0) (i % 128) else 0

/-- RX_FRAME_WRITE: the frame that port 24 sends is written to the buffers of RXQk (R422); a mismatch of SEQ or a double-bit error
aborts it (R164, R166). -/
def Block.rxFrameWrite (b : Block) (k : Nat) : Block :=
  let e := b.eng
  let r := 10 + k
  match (e.getLink 24).eg with
  | none => b
  | some s =>
    if s.cls ≠ k ∨ s.started ∨ !e.awake then b
    else
      match s.seq.bind (fun q => (e.frame q).map (fun f => (q, f))) with
      | none => b
      | some (q, f) =>
        let cs := e.chain .frame 73 f.head
        let (dbl, e) := foldS (fun c (a : Bool × Eng) => foldS (fun i (a : Bool × Eng) =>
          let (d, e) := a.2.eccRead (8 * 2 ^ 20 + c * 64 + i)
          (a.1 || d, e)) (List.range 64) a) cs (false, e)
        let lost (i : Nat) : Block := { b with eng := ((e.count 1 0 i 1).modFrame q (fun f => f.fail 24 3)).portFree 24 s }
        if cs.length ≠ f.cells ∨ cs.any (fun c => (e.cell c).seq != q) then lost 8
        else if dbl then lost 12
        else
          match rxTake (e.getRing r).bufs f.len with
          | none => b
          | some parts =>
            let y := e.getRing r
            let (ip, e) : Nat × Eng := if f.inPort ≤ 24 then (f.inPort, e) else e.freeVal 8
            let e := e.modLink 24 (fun l => { l with eg := some { s with started := true, rd := f.len } })
            let e := e.setRing r { y with bufs := y.bufs.drop parts.length, rx := some ⟨q, ip, f.len, parts.length, parts⟩ }
            let write (a : Nat × Eng) (p : RxPart) : Nat × Eng :=
              let base := leAt p.entry 0 5
              (a.1 + p.n, foldS (fun (c : Nat × Nat) e => e.issueTxn ⟨ringId r, true, c.1, c.2,
                (List.range c.2).map (fun i => b.frameByte f cs (a.1 + (c.1 - base) + i)), .rxData r p.idx⟩) (frameChunks base p.n) a.2)
            { b with eng := (parts.foldl write (0, e)).2 }

/-- Entries of the frame whose data has all been answered are written back, in index order (R413, R422, R423). -/
def Eng.rxEntries : Nat → Nat → Eng → Eng
  | 0, _, e => e
  | k + 1, r, e =>
    let y := e.getRing r
    match y.rx with
    | none => e
    | some w =>
      match w.parts with
      | [] => e
      | p :: rest =>
        if p.left ≠ 0 then e
        else
          let isFirst := w.parts.length = w.count
          let isLast := rest.isEmpty
          let e := e.setRing r { y with rx := some { w with parts := rest } }
          Eng.rxEntries k r (e.ringOut r p.idx (leBytes 2 p.n ++ leBytes 1 (b2n isFirst + 2 * b2n isLast) ++ leBytes 1 w.inPort ++
            leBytes 2 w.len ++ List.replicate 10 0 ++ leBytes 3 w.seq ++ [0, 0, 0, 0, 0x80]))

/-- RX data was answered DONE. -/
def Eng.rxDataDone (e : Eng) (r idx : Nat) : Eng :=
  let y := e.getRing r
  match y.rx with
  | none => e
  | some w => Eng.rxEntries 9216 r (e.setRing r { y with
      rx := some { w with parts := w.parts.map (fun p => if p.idx = idx then { p with left := p.left - 1 } else p) } })

/-- FRAME_TX_END at port 24: the last DONE beat was answered; the frame's last use there ends (R422). -/
def Eng.rxEnd (e : Eng) : Eng :=
  match (e.getLink 24).eg with
  | none => e
  | some s =>
    let r := 10 + s.cls
    let y := e.getRing r
    match y.rx with
    | some w =>
      if s.started ∧ w.parts.isEmpty ∧ y.outq.isEmpty then
        (((e.setRing r { y with rx := none }).count 2 0 1 1)).portFree 24 s
      else e
    | none => e

/-! ### Entries written (R413, R429) -/

/-- An entry of ring r has become visible: D, the interrupt bit, the next entry. -/
def Eng.entryVisible (e : Eng) (r : Nat) : Eng :=
  let y := e.getRing r
  match y.outq with
  | [] => e
  | (idx, d) :: rest =>
    let e := e.setRing r { y with outq := rest, stage := 0 }
    let e := if r = 1 ∨ 18 ≤ r then e else e.setFld F.HRG_RIDX_D r ((idx + 1) % 65536)
    let isLast := bit (byteAt d 2) 1
    let e := if r = 1 then e.raise 0 else if r = 18 then e.raise 1 else if r = 19 then e.raise 2
      else if 2 ≤ r ∧ r ≤ 9 then e.raise 3 else if 10 ≤ r ∧ isLast then e.raise 4 else e
    let e := e.ringKick r
    if r = 19 then e.traceDrain else e

/-- All but the last 8 bytes of an entry were answered DONE: the beat with its flag follows (R413). -/
def Eng.entryTail (e : Eng) (r : Nat) : Eng :=
  let y := e.getRing r
  match y.outq with
  | [] => e
  | (idx, d) :: _ =>
    let x : Txn := ⟨ringId r, true, e.ringBase r + idx % e.ringN r * 32 + 24, 8, d.drop (d.length - 8), .entryTail r⟩
    if e.ringState r = 2 then e.setRing r { y with stage := 2, retry := y.retry ++ [x] }
    else (e.setRing r { y with stage := 2 }).issueTxn x

/-- The entry of an OFF ring whose write fails is given up (assumption 40). -/
def Eng.entryLost (e : Eng) (r : Nat) : Eng :=
  let y := e.getRing r
  (e.setRing r { y with outq := y.outq.drop 1, stage := 0 }).ringKick r

end Sys2Proof.Machine
end

