-- ==== Sys2Proof/Machine/HideOps.lean ====
section
/-! DEFINITION. What the Hide does to threads and to its own level (20_hide_debug.md R503, R507 to R511), its terminal and its
stimulus ports (R518 to R522). -/

namespace Sys2Proof.Machine

/-! ### Resume -/

/-- RESUME of a HALTED thread to PREV; `step`: halted again when its next instruction completes (R509). It counts as released (R38),
and it issues two cycles later at the earliest. -/
def Eng.resumeThr (e : Eng) (t : Nat) (step : Bool) : Eng :=
  let x := e.getThr t
  if x.st ≠ .halted ∨ t = 0 then e
  else (e.setThr t { x with st := x.prev, prev := .held, step := step, noBreak := true, relCyc := e.now + 1,
                            ready := max x.ready (e.now + 2) }).trace (6 * 1024 + t) 0xC0 [BitVec.ofNat 8 t]

/-- A halt request of HIDE_HCTL over threads (R507): cause 0 for the selected one, 4 for its pavilion, 5 for the engine. -/
def Eng.haltMany (e : Eng) (ts : List Nat) (cause : Nat) : Eng := foldS (fun t e => e.haltThr t cause 0) ts e

/-- Resumes threads (R509). -/
def Eng.resumeMany (e : Eng) (ts : List Nat) : Eng := foldS (fun t e => e.resumeThr t false) ts e

/-! ### Levels -/

/-- A pending feed is discarded (R503, R508). -/
def Eng.feedDrop (e : Eng) : Eng :=
  match e.hide.feed with
  | none => e
  | some _ => ({ e with hide := { e.hide with feed := none, feedIss := false, feedRes := none } }.setFld F.HIDE_FSTAT_BUSY 0 0).setFld F.HIDE_FSTAT_RESULT 0 3

/-- The Hide's level and owner change (R500, R502, R503): 0 none, 1 TAP, 2 target port. -/
def Eng.hideLevel (e : Eng) (level path : Nat) : Eng :=
  let old := e.fld F.HIDE_AUTH_LEVEL 0
  let e :=
    if old = 2 ∧ level < 2 then
      let e := ({ e with hide := { e.hide with halts := [] } }.resumeMany allThreads).feedDrop
      (e.setFld F.HIDE_CTL_WDFREEZE 0 0).setFld F.HIDE_CTL_BOOTHALT 0 0
    else e
  let e := (e.setFld F.HIDE_AUTH_LEVEL 0 level).setFld F.HIDE_AUTH_PATH 0 (if level = 0 then 0 else path)
  if level = 0 then (e.setReg .HIDE_STIMEN 0 0).setReg .HIDE_STIMEN1 0 0 else e

/-- The key of a slot at a generation (17_commands_keys.md R448). -/
def Mem.slotKey (m : Mem) (s g : Nat) : List Nat :=
  let ks0 := (List.range 16).map (fun i => bits (m.ledgerWord (i / 4)) (8 * (i % 4) + 7) (8 * (i % 4)))
  Aes.cmac ks0 ([0x4A, 0x58, 0x4B, 0x44, s, g % 256, g / 256] ++ List.replicate 9 0)

/-- The generation of a key slot (R446). -/
def Eng.keyGen (e : Eng) (s : Nat) : Nat := e.fld F.KEY_GEN_GEN s

/-- DEVSN (R450), least significant byte first. -/
def Mem.devsn (m : Mem) : List Nat :=
  (List.range 8).map (fun i => bits (m.ledgerWord (4 + i / 4)) (8 * (i % 4) + 7) (8 * (i % 4)))

/-- The bytes of a number, least significant first, as numbers. -/
def natBytes : Nat → Nat → List Nat
  | 0, _ => []
  | k + 1, n => n % 256 :: natBytes k (n / 256)

/-- The response to a challenge: T0 to T7 (R502). -/
def Block.response (b : Block) (chal path level : Nat) : List Nat :=
  (Aes.cmac (b.mem.slotKey 3 (b.eng.keyGen 3))
    ([0x4A, 0x58, 0x48, 0x44] ++ b.mem.devsn ++ natBytes 8 chal ++ [path, level, 0, 0])).take 8

/-- A failed response counts and starts the cool-down (R502). -/
def Eng.authFail (e : Eng) : Eng :=
  let e := (e.bump F.HIDE_AUTHSTAT_FAILS 0 1).setFld F.HIDE_AUTHSTAT_COOL 0 1
  { e with hide := { e.hide with coolAt := e.now + 1048576 } }

/-- The challenge is consumed (R502). -/
def Eng.chalDrop (e : Eng) : Eng := e.setFld F.HIDE_AUTHSTAT_CVALID 0 0

/-- A request for a challenge by a path (R501); the value drawn is a free value. -/
def Eng.challenge (e : Eng) (path level : Nat) : Eng :=
  let (v, e) := e.freeVal 64
  let e := { e with hide := { e.hide with chal := v, chalPath := path, chalLevel := level } }
  let e := e.setFld F.HIDE_AUTHSTAT_CVALID 0 1
  foldS (fun i e => e.setReg .HIDE_CHAL i (word (bits v (63 - 16 * i) (48 - 16 * i)))) [0, 1, 2, 3] e

/-- The write of HIDE_RESP3 checks the TAP response (R502). -/
def Block.respCheck (b : Block) : Eng :=
  let e := b.eng
  let got := (List.range 8).map (fun i => bits (e.val .HIDE_RESP (i / 2)) (if i % 2 = 0 then 15 else 7) (if i % 2 = 0 then 8 else 0))
  let good := e.flag F.HIDE_AUTHSTAT_CVALID 0 && e.hide.chalPath == 1 && got == b.response e.hide.chal 1 e.hide.chalLevel
  if !e.flag F.HIDE_AUTHSTAT_CVALID 0 ∨ e.hide.chalPath ≠ 1 then e
  else if good then e.chalDrop.hideLevel e.hide.chalLevel 1
  else e.chalDrop.authFail

/-- COOL_EXPIRY (R502). -/
def Eng.coolExpiry (e : Eng) : Eng :=
  if e.flag F.HIDE_AUTHSTAT_COOL 0 ∧ e.hide.coolAt ≤ e.now then e.setFld F.HIDE_AUTHSTAT_COOL 0 0 else e

/-! ### The virtual terminal (R518, R519) -/

def Eng.txFifo (e : Eng) (p : Nat) : List (Nat × Nat) := Tab.get [] e.hide.tx p
def Eng.rxFifo (e : Eng) (p : Nat) : List (Nat × Nat) := Tab.get [] e.hide.rx p
def Eng.setTx (e : Eng) (p : Nat) (l : List (Nat × Nat)) : Eng := { e with hide := { e.hide with tx := Tab.put e.hide.tx p l } }
def Eng.setRx (e : Eng) (p : Nat) (l : List (Nat × Nat)) : Eng := { e with hide := { e.hide with rx := Tab.put e.hide.rx p l } }

/-- A thread writes HIDE_TXDp (R518). -/
def Eng.vtTx (e : Eng) (p t v : Nat) : Eng :=
  if e.fld F.HIDE_AUTH_LEVEL 0 = 0 ∨ 8 ≤ (e.txFifo p).length then e.bump F.HIDE_VTSTAT_TXDROP p 1
  else e.setTx p (e.txFifo p ++ [(v, t)])

/-- A debug path pops HIDE_TXDp; the tag is latched for the path (R518). -/
def Eng.vtTxPop (e : Eng) (path p : Nat) : Nat × Eng :=
  match e.txFifo p with
  | [] => (0, e)
  | (v, t) :: rest => (2 ^ 19 + v, (e.setTx p rest).setFld F.HIDE_TXTID_TID (p + 4 * path) t)

/-- A debug path writes HIDE_RXDp (R519). -/
def Eng.vtRx (e : Eng) (p v : Nat) : Eng :=
  if 4 ≤ (e.rxFifo p).length then e.post F.HIDE_VTSTAT_RXOVF p
  else e.setRx p (e.rxFifo p ++ [(v, e.fld F.HIDE_RXTID_TID p)])

/-- A thread reads HIDE_RXDp (R519). -/
def Eng.vtRxPop (e : Eng) (p t : Nat) : Nat × Eng :=
  match e.rxFifo p with
  | [] => (0, e)
  | (v, tag) :: rest => if tag = t then (2 ^ 19 + v, e.setRx p rest) else (0, e)

/-! ### Stimulus ports (R520) -/

/-- Is a port enabled and open to a thread's pavilion? -/
def Eng.stimOn (e : Eng) (n t : Nat) : Bool :=
  (if n < 20 then bit (e.val .HIDE_STIMEN 0) n else bit (e.val .HIDE_STIMEN1 0) (n - 20)) &&
    bit (e.fld F.HIDE_SPCFG_PAVMASK n) (pavOf t)

/-- A thread writes a stimulus port. -/
def Eng.stim (e : Eng) (n t v : Nat) : Eng :=
  if !e.stimOn n t then e
  else
    match e.fld F.HIDE_SPCFG_MODE n with
    | 1 =>
      let tally := Tab.put e.hide.tally n ((Tab.get 0 e.hide.tally n + v) % 2 ^ 20)
      { e with hide := { e.hide with tally := tally, touched := (if e.hide.touched.contains n then e.hide.touched else e.hide.touched ++ [n]) } }
    | 2 => (e.trace (2 * 1024 + t) 0x20 []).trace (2 * 1024 + t) (0x40 + n) (leBytes 3 v ++ [BitVec.ofNat 8 (0x80 + t)])
    | _ => e.trace (2 * 1024 + t) (0x40 + n) (leBytes 3 v ++ [BitVec.ofNat 8 t])

end Sys2Proof.Machine
end

