-- ==== Sys2Proof/Machine/State.lean ====
section
/-! DEFINITION. The state of the machine: the block (Engine.lean, EngState.lean) and its queue of waiting commands; the
reasons a step can stop; the state after reset. -/

namespace Sys2Proof.Machine

/-- The machine: the block and the commands waiting, first in first out. -/
structure State where
  block : Block := {}
  pending : List Instr := []
  deriving DecidableEq, Repr

/-- Why a step stops with a fault. -/
inductive Fault where
  /-- A thread instruction names thread 0, which is no thread (00_scope.md R1). Raised by every thread instruction.
  Safe: no such command exists in the hardware. -/
  | noThread
  deriving DecidableEq, Repr

/-- Why a step has no meaning. -/
inductive Refusal where
  /-- A command whose meaning is not modelled. Raised by exec's arms alone. Safe: the machine stops. -/
  | notModelled (mnemonic : String)
  deriving DecidableEq, Repr

/-- Right after the release of a full reset (19_reset_recovery.md R482, R486, R487): every register at its reset value,
memories at 0, the PLL started and not yet locked, JX_STATE RESET, thread 1 RUN at 0xF_C000 and every other thread HELD
(R245), the slot table of PAV0 naming thread 1 at lane 0, slots 0, 8, 16 and 24, spare pointers 1, 22, 43 (R243). -/
def State.reset : State :=
  { block := { eng := {
      thr := [(1, { st := .run, pc := 0xFC000 })]
      brl := [(0, { force := [(0, 1), (8, 1), (16, 1), (24, 1)], spare := 1 }), (1, { spare := 22 }), (2, { spare := 43 })] } } }

end Sys2Proof.Machine
end

