-- ==== Sys2Proof/Machine/Reset.lean ====
section
/-! DEFINITION. Resets and start-up (19_reset_recovery.md R479 to R488, R494; 21_integration.md R528): engine reset, full reset, PLL
lock, the end of memory initialisation, the watchdog, and the records of the Ledger at start-up (17_commands_keys.md R451 to R453). -/

namespace Sys2Proof.Machine

/-! ### The Ledger at start-up -/

/-- The check of R452 and R451 over words: the final accumulator of the Ethernet CRC-32, least significant byte first. -/
def ledgerCheck (ws : List Nat) : Nat := crc32 0xFFFFFFFF (ws.flatMap (fun w => leBytes 4 w))

/-- Is SEQ a newer than SEQ b, modulo 2^w (R452)? -/
def seqNewer (w a b : Nat) : Bool := a != b && decide ((a + 2 ^ w - b) % 2 ^ w < 2 ^ (w - 1))

/-- A record of the Ledger at a word address: SEQ of `w` bits from W1, its value (R452); none where its check fails. -/
def Mem.record (m : Mem) (a : Nat) : Option (Nat × Nat) :=
  let w0 := m.ledgerWord a
  let w1 := m.ledgerWord (a + 1)
  if m.ledgerWord (a + 2) = ledgerCheck [w0, w1] then some (w0, w1) else none

/-- The valid record with the highest SEQ among records: its address, W0, W1 (R452). `sq` is SEQ of W1. -/
def Mem.newest (m : Mem) (w : Nat) (sq : Nat → Nat) (l : List Nat) : Option (Nat × Nat × Nat) :=
  l.foldl (fun best a =>
    match m.record a with
    | none => best
    | some (w0, w1) =>
      match best with
      | none => some (a, w0, w1)
      | some (_, _, b1) => if seqNewer w (sq w1) (sq b1) then some (a, w0, w1) else best) none

/-- The records of the counter ring (R450). -/
def counterRing : List Nat := (List.range 16).map (fun i => 0x20 + 4 * i)

/-- The counter record in force: address, CEIL, SEQ (R452, R453). -/
def Mem.counterRec (m : Mem) : Option (Nat × Nat × Nat) :=
  (m.newest 24 (fun w1 => w1 / 256) counterRing).map (fun r => (r.1, r.2.1 + r.2.2 % 256 * 2 ^ 32, r.2.2 / 256))

/-- The generation record of slot s in force: address, value, SEQ. -/
def Mem.genRec (m : Mem) (s : Nat) : Option (Nat × Nat × Nat) := m.newest 32 id [8 + 8 * (s - 1), 12 + 8 * (s - 1)]

/-- The HOURS record in force. -/
def Mem.hoursRec (m : Mem) : Option (Nat × Nat × Nat) := m.newest 32 id [0x60, 0x64]

/-- KEY_STAT and KEY_GEN1 to 3 as the Ledger says (R451, R452). -/
def Eng.classify (e : Eng) (m : Mem) : Eng :=
  let prov := decide (m.ledgerWord 6 = 0x5A5A0001)
  let good := decide (m.ledgerWord 7 = ledgerCheck ((List.range 7).map m.ledgerWord))
  let e := (e.setFld F.KEY_STAT_PROV 0 (b2n (prov && good))).setFld F.KEY_STAT_DAMAGED 0 (b2n (prov && !good))
  foldS (fun s e => e.setFld F.KEY_GEN_GEN s ((m.genRec s).elim 0 (fun r => r.2.1 % 65536))) [1, 2, 3] e

/-! ### What a reset keeps -/

/-- The registers that an engine reset keeps (R482, R503, R465), by constructor number. -/
def keptIdx : List Nat :=
  [Reg.JX_ID, .JX_SETUP_ERR, .JX_SETUP_EADDR, .JX_CFG, .JX_HWBASE0, .JX_HWBASE1, .JX_BOOT_ADDR0, .JX_BOOT_ADDR1, .JX_BOOT_CTL,
   .JX_BOOT_STAT, .HRG_CFG, .HRG_DBBASE0, .HRG_DBBASE1, .HRG_RSEL, .HRG_RBASE0, .HRG_RBASE1, .HRG_RCFG, .HRG_RCTL, .HRG_RSTAT,
   .HRG_RIDX, .HRG_RHOST, .HRG_STAT, .HRG_KNOCK, .HRG_KIRQ, .HRG_EPOCH, .HRG_ISTAT, .HRG_IEN, .HRG_IMAP0, .HRG_BERR0, .HRG_BERR1,
   .HRG_BERRSTAT, .HRG_CSEL, .KEY_STAT, .KEY_GEN, .LDG_WCNT, .PWR_CTL, .PWR_TOL0, .PWR_TOL1, .PWR_LWAKE0, .PWR_LWAKE1, .RST_CAUSE,
   .RST_CNT, .RST_STAT, .BSN_NEXTSEQ, .HIDE_AUTH, .HIDE_CTL, .HIDE_CLO, .HIDE_CHI, .HIDE_CTID, .HIDE_CCFG, .HIDE_CVAL, .HIDE_CVMASK,
   .HIDE_CSTAT, .HIDE_TRCTL, .HIDE_STIMEN, .HIDE_STIMEN1].map Reg.ctorIdx

/-! ### Rings across an engine reset (R484) -/

/-- Is a transaction an entry write? -/
def Txn.isEntry (x : Txn) : Bool :=
  match x.why with
  | .entryHead _ => true
  | .entryTail _ => true
  | _ => false

/-- The first index of ring r whose fetch is outstanding or to be made again. -/
def Eng.firstFetch (e : Eng) (r : Nat) : Option Nat :=
  ((e.getRing r).retry ++ e.initq).findSome? (fun x => match x.why with
    | .fetch r' i _ => if r' = r then some i else none
    | _ => none)

/-- The outcomes of the TX entries from `i` to `hi` − 1: those already due stand, the others are FLUSHED. Answers how many. -/
def flushEntries (res : Tab (Nat × Nat × Nat)) (hi : Nat) : Nat → Nat → Bool → Nat × Tab (Nat × Nat × Nat)
  | 0, _, _ => (0, [])
  | k + 1, i, due =>
    if i = hi then (0, [])
    else
      let keep := if due then Tab.find res i else none
      let (n, t) := flushEntries res hi k ((i + 1) % 65536) keep.isSome
      match keep with
      | some v => (n, Tab.put t i v)
      | none => (n + 1, Tab.put t i (4, 24, 0))

/-- Ring r after an engine reset, with the TX entries FLUSHED. -/
def Eng.ringAcross (e : Eng) (r : Nat) : Nat × Ring :=
  let q := e.getRing r
  let nx := (e.firstFetch r).getD q.next
  let retry := q.retry.filter Txn.isEntry
  if 2 ≤ r ∧ r < 10 then
    let (n, res) := flushEntries q.res nx 65536 (e.nextWriteback r) true
    (n, { q with next := nx, fetched := [], wait := none, dma := [], res := res, retry := retry })
  else if 10 ≤ r ∧ r < 18 then
    let out := if q.stage = 0 then [] else q.outq.take 1
    (0, { q with next := (e.fld F.HRG_RIDX_D r + out.length) % 65536, fetched := [], bufs := [], rx := none, outq := out, retry := retry })
  else (0, { q with next := nx, retry := retry })

/-! ### Engine reset -/

/-- Does a transaction go on across a reset: the write of an entry, or data of a command that goes on (R483)? -/
def Eng.txnStays (e : Eng) (x : Txn) : Bool :=
  x.isEntry || (match x.why with
    | .cmdData i _ => e.keys.cmds.any (fun c => c.idx == i && !opKeeper c.op)
    | _ => false)

/-- The transactions after a reset: those that go on, and the outstanding ones, whose response is discarded; what was only asked for is
forgotten (R483). -/
def Eng.discardTxns (e : Eng) : List Txn :=
  (e.initq.foldl (fun (a : List Nat × List Txn) x =>
    let i := initiatorOf x.id
    let sent := decide (a.1.count i < e.outOf i)
    (a.1 ++ [i], if e.txnStays x then a.2 ++ [x] else if sent then a.2 ++ [{ x with why := .discard }] else a.2)) ([], [])).2

/-- The cause of a reset joins RST_CAUSE (R479, R481): with `first` it is the last reset, else the lowest code of this cycle is. -/
def Eng.causeSet (e : Eng) (code : Nat) (isFirst : Bool) : Eng :=
  let e := e.setFld F.RST_CAUSE_LAST 0 (if isFirst then code else min code (e.fld F.RST_CAUSE_LAST 0))
  e.postBits .RST_CAUSE 0 (1 <<< (code - 1))

/-- A command that the unit carries out past its commit point and waits for flushes completes (R441, R492). -/
def Eng.endFlushing (e : Eng) : Eng :=
  foldS (fun (c : Cmd) e => if c.stage = .flushing ∧ c.res.isNone then e.cmdFinish c.idx 0 [] else e) e.keys.cmds e

/-- A link after an engine reset: the levels of its signals, and in MII and RMII modes the abort sequence of the frame that it was
sending (R483, R529). -/
def Eng.linkAcross (e : Eng) (n : Nat) (l : Link) : Link :=
  let tail := match l.eg with
    | some s => if (e.linkMode n = 1 ∨ e.linkMode n = 2) ∧ s.started then
        some (e.mac n, { s with seq := none, gen := none, abort := true, abortAt := if s.abort then s.abortAt else e.now }) else none
    | none => l.tail
  { l.onlyPins with tail := tail }

/-- An engine reset in this cycle of cause `code` (R481 to R484). -/
def Eng.engineReset (e0 : Eng) (code : Nat) (noboot : Bool) : Eng :=
  if e0.sys.resetAt = e0.now + 1 then
    let e := e0.causeSet code false
    { e with sys := { e.sys with noboot := e.sys.noboot || noboot } }
  else
    let e := (e0.cutOff true).endFlushing
    let txns := e.discardTxns
    let rs := (List.range 20).map (fun r => (r, e.ringAcross r))
    let flushed := rs.foldl (fun a r => a + r.2.1) 0
    let sys := { e.sys with initAt := e.now, atReset := e.engState, prevEpoch := e.fld F.HRG_EPOCH_EPOCH 0, resetT80 := e.t80,
                            discarded := e.sw.frames.length, flushedTx := flushed, noboot := noboot, wdLeft := 0, wdFrozen := false,
                            bist := none, gstart := 0, ldgRead := [], ldgShown := [], resetAt := e.now + 1,
                            bootAt := 0, wdHit := false, scrub := [] }
    let hide : Hide := { lastCyc := e.hide.lastCyc, tapOut := e.hide.tapOut, tapReq := e.hide.tapReq, tapLast := e.hide.tapLast }
    let keys := { e.keys with img := none, reset := none, abQ := [], taken := false }
    let e1 : Eng := { e with
      regs := e.regs.filter (fun x => keptIdx.contains (x.1 / 1024))
      ctrs := e.ctrs.filter (fun x => x.1 / 65536 == 2)
      clk := { e.clk with owner := 0, owed := [] }
      tick := {}, cwy := {}, tmr := [], latch := []
      rings := rs.map (fun r => (r.1, r.2.2))
      initq := txns
      thr := State.reset.block.eng.thr, brl := State.reset.block.eng.brl
      locks := [], waiters := [], cnd := [], heldBanks := [], passed := [], closing := [], recent := {}, hide := hide, reeds := []
      links := e.links.map (fun l => (l.1, e.linkAcross l.1 l.2))
      sw := {}, sch := {}, swSince := none, keys := keys, pwr := {}, sys := sys, cells := [], ecc := [] }
    let e1 := e1.causeSet code true
    let e1 := e1.setReg .RST_CNT 0 (e1.reg .RST_CNT 0 + 1)
    let e1 := (e1.setFld F.RST_STAT_INIT 0 1).setFld F.HRG_STAT_PASS 0 0
    e1.setFld F.HRG_EPOCH_EPOCH 0 ((e1.fld F.HRG_EPOCH_EPOCH 0 + 1) % 65536)

/-- The memories after an engine reset: all but the Ledger are 0 (R482). -/
def Mem.cleared (m : Mem) : Mem := { ledger := m.ledger }

/-- An engine reset of the block. -/
def Block.engineReset (b : Block) (code : Nat) (noboot : Bool) : Block := ⟨b.mem.cleared, b.eng.engineReset code noboot⟩

/-! ### Full reset -/

/-- A full reset of cause `code` (R482): all but the Ledger, and HOURS except at power-on; a Ledger word whose write it cuts
short is undefined (R452, R528). -/
def Block.fullReset (b : Block) (code : Nat) : Block :=
  let e := b.eng
  let m := b.mem.cleared
  let (m, e) : Mem × Eng :=
    match e.keys.ledq with
    | w :: _ => if e.keys.ledAt = 0 then (m, e) else
        let (v, e) := e.freeVal 32
        (m.setLedger w.idx v, e)
    | [] => (m, e)
  let sys : Sys := { held := e.sys.held, porHeld := e.sys.porHeld, hourNs := if code = 1 then 0 else e.sys.hourNs, knock := e.sys.knock }
  let e1 : Eng := { State.reset.block.eng with
    clk := { cycle := e.clk.cycle }, sys := sys, freeCtr := e.freeCtr, links := e.links.map (fun l => (l.1, l.2.onlyPins)) }
  let e1 := (e1.setFld F.RST_CAUSE_LAST 0 code).setFld F.RST_CAUSE_SEEN 0 (1 <<< (code - 1))
  ⟨m, e1⟩

/-- POWER_ON_RESET: the detector holds the block (`level` true) or releases it (R528). -/
def Block.powerOn (b : Block) (level : Bool) : Block :=
  if level then
    let b := b.fullReset 1
    { b with eng := { b.eng with sys := { b.eng.sys with porHeld := true } } }
  else { b with eng := { b.eng with sys := { b.eng.sys with porHeld := false } } }

/-- BLOCK_RESET_ASSERT (R479, R481): power-on goes before it. -/
def Block.resetAssert (b : Block) : Block :=
  let b := if b.eng.sys.porHeld then b else b.fullReset 2
  { b with eng := { b.eng with sys := { b.eng.sys with held := true } } }

/-- BLOCK_RESET_RELEASE. -/
def Eng.resetRelease (e : Eng) : Eng := { e with sys := { e.sys with held := false } }

/-- PLL_LOCK: rounds, Sundial and memory initialisation start; the unit reads the Ledger (R449, R451, R453, R486). -/
def Eng.pllLock (e : Eng) (m : Mem) : Eng :=
  if e.flag F.RST_STAT_PLLLOCK 0 ∨ e.sys.held ∨ e.sys.porHeld then e
  else
    let e := (e.setFld F.RST_STAT_PLLLOCK 0 1).setFld F.RST_STAT_INIT 0 1
    let c := (m.counterRec).elim 0 (fun r => r.2.1)
    let e := { e with clk := { e.clk with roundBase := e.now, sun := 0 }, sys := { e.sys with initAt := e.now },
                      keys := { e.keys with l := c, ceil := c } }
    e.classify m

/-- The RESET entry (R485). -/
def Eng.resetEntry (e : Eng) : List Byte :=
  splice (e.evqEntry 16 0 (leBytes 1 (e.fld F.RST_CAUSE_LAST 0) ++ leBytes 2 e.sys.prevEpoch ++ leBytes 2 (min e.sys.discarded 0xFFFF) ++
    leBytes 1 e.sys.atReset ++ leBytes 2 (min e.sys.flushedTx 0xFFFF))) (leBytes 10 e.sys.resetT80) 4

/-- A self-test's command completes after the RESET entry, in the new epoch (R493). -/
def Eng.bistComplete (e : Eng) : Eng :=
  match e.sys.bistRes, e.keys.cmds.find? (fun c => decide (c.stage = .testing)) with
  | some d, some c => { e with sys := { e.sys with bistRes := none } }.cmdFinish c.idx 0 d
  | _, _ => { e with sys := { e.sys with bistRes := none } }

/-- Start-up reaches the boot ROM at the first round boundary after memory initialisation (R486): thread 1 may issue from here on; with BOOTHALT it
is halted at this issue point (R517). -/
def Eng.bootPoint (e : Eng) : Eng :=
  if e.engState ≠ 0 ∨ e.flag F.RST_STAT_INIT 0 ∨ !e.flag F.RST_STAT_PLLLOCK 0 ∨ e.sys.bootAt ≠ 0 ∨
      (e.now - e.clk.roundBase) % 32 ≠ 0 then e
  else
    let e := { e with sys := { e.sys with bootAt := e.now + 1 } }
    if e.flag F.HIDE_CTL_BOOTHALT 0 ∧ e.hideFull then e.becomeHalted 1 6 0 false else e

/-- MEMORY_INIT_END (R485, R486). -/
def Eng.memoryInitEnd (e : Eng) : Eng :=
  if !e.flag F.RST_STAT_INIT 0 ∨ !e.flag F.RST_STAT_PLLLOCK 0 ∨ e.now < e.sys.initAt + 80000 then e
  else
    let e := e.setFld F.RST_STAT_INIT 0 0
    let e := e.ringLog 18 e.resetEntry (e.evqEntry 7 0 (leBytes 4 (e.getRing 18).lost))
    e.bistComplete.bootPoint

/-! ### The watchdog (R494, R516) -/

/-- Is the watchdog frozen? -/
def Eng.wdFrozen (e : Eng) : Bool := e.anyHalted && e.hideFull && e.flag F.HIDE_CTL_WDFREEZE 0

def Eng.wdPeriod (e : Eng) : Nat := e.fld F.RST_WDCTL_PERIOD 0 * 65536

/-- The full period starts. -/
def Eng.wdRestart (e : Eng) : Eng := { e with sys := { e.sys with wdLeft := e.wdPeriod } }

/-- One cycle of the watchdog: a freeze that ends restarts the period. -/
def Eng.wdTick (e : Eng) : Eng :=
  if !e.flag F.RST_WDCTL_EN 0 then e
  else if e.wdFrozen then { e with sys := { e.sys with wdFrozen := true } }
  else
    let e := if e.sys.wdFrozen then { e with sys := { e.sys with wdFrozen := false } }.wdRestart else e
    if e.awake then { e with sys := { e.sys with wdLeft := e.sys.wdLeft - 1 } } else e

/-- Has the watchdog expired? -/
def Eng.wdDue (e : Eng) : Bool := e.flag F.RST_WDCTL_EN 0 && e.sys.wdLeft == 0 && !e.wdFrozen && !e.sys.wdFrozen

/-- WATCHDOG_EXPIRY: the reset acts in this cycle unless a kick of the cycle leaves the kick in force. -/
def Eng.watchdogExpiry (e : Eng) : Eng := if e.wdDue then { e with sys := { e.sys with wdHit := true } } else e

/-- The end of a cycle in which the watchdog expired and was not kicked. -/
def Block.wdEnd (b : Block) : Block :=
  if b.eng.sys.wdHit then
    let e := { b.eng with sys := { b.eng.sys with wdHit := false } }
    if e.wdDue then ({ b with eng := e } : Block).engineReset 4 false else { b with eng := e }
  else b

/-! ### Self-test (R493) -/

/-- A self-test starts on tests [1:0]: LOGIC 6,000,000 cycles, MEMORY 12,000,000. -/
def Eng.bistStart (e : Eng) (tests : Nat) : Eng :=
  { e with sys := { e.sys with bist := some (tests, e.now + (if bit tests 0 then 6000000 else 0) + (if bit tests 1 then 12000000 else 0)) } }

/-- BIST_END: the failed tests, the first failing memory with its word, and the places are the test's findings. -/
def Block.bistEnd (b : Block) (failed mem idx loc : Nat) : Block :=
  match b.eng.sys.bist with
  | none => b
  | some (tests, fin) =>
    if b.eng.now < fin then b
    else
      let d := leBytes 1 (failed &&& tests) ++ leBytes 1 mem ++ leBytes 3 idx ++ leBytes 1 loc
      let b := b.engineReset 6 false
      { b with eng := { b.eng with sys := { b.eng.sys with bistRes := some d } } }

end Sys2Proof.Machine
end

