-- ==== Sys2Proof/Machine/Slots.lean ====
section
/-! DEFINITION. Slot tables: staging, the checks of an apply, cancel (09_barrels_threads.md R236 to R240). -/

namespace Sys2Proof.Machine

/-- The first failure of a table of pavilion p: code (1 MEMBER, 2 SPACING), thread, ADDR (R237, R239). -/
def slotFail (p : Nat) (tab : Tab Nat) : Option (Nat × Nat × Nat) :=
  match (List.range 128).find? (fun a => let t := Tab.get 0 tab a; t != 0 && pavOf t != p) with
  | some a => some (1, Tab.get 0 tab a, a)
  | none =>
    let near (a b : Nat) : Bool :=
      let d := (a % 32 - b % 32) + (b % 32 - a % 32)
      decide (min d (32 - d) < 8)
    match (List.range 128).find? (fun a => let t := Tab.get 0 tab a
        t != 0 && (List.range 128).any (fun b => decide (a < b) && Tab.get 0 tab b == t && near a b)) with
    | some a => some (2, Tab.get 0 tab a, a)
    | none => none

/-- The lowest budgeted thread of pavilion p that a table does not supply under tick settings (R36). -/
def Eng.budgetFail (e : Eng) (p : Nat) (tab : Tab Nat) (s : TickSet) : Option Nat :=
  (pavThreads p).find? (fun t => e.budget t != 0 && !e.budgetMet tab s t)

/-- The first failure of an apply (R239): code, thread, NOENT, ADDR. -/
def Eng.applyFail (e : Eng) (p : Nat) (tab : Tab Nat) : Option (Nat × Nat × Bool × Nat) :=
  match slotFail p tab with
  | some (c, t, a) => some (c, t, false, a)
  | none =>
    match e.budgetFail p tab e.tick.set with
    | none => none
    | some t =>
      match (List.range 128).find? (fun a => Tab.get 0 tab a == t) with
      | some a => some (3, t, false, a)
      | none => some (3, t, true, 0)

/-- Tables list no unused entry. -/
def tabEntry (tab : Tab Nat) (a t : Nat) : Tab Nat := if t = 0 then Tab.del tab a else Tab.put tab a t

/-- A write of BRLp_SENT. -/
def Eng.slotWrite (e : Eng) (p t : Nat) : Eng :=
  let x := e.getBrl p
  let a := e.fld F.BRL_SSEL_ADDR p
  (e.setBrl p { x with staged := tabEntry x.staged a t }).setFld F.BRL_SSEL_ADDR p ((a + 1) % 128)

def Eng.slotCopy (e : Eng) (p : Nat) : Eng := let x := e.getBrl p; e.setBrl p { x with staged := x.force }

/-- BRLp_CTL.APPLY: the checks run for 140 cycles; they are made against the settings in force at the apply (R239, R241). -/
def Eng.slotApply (e : Eng) (p : Nat) (when_ : Bool) : Eng :=
  let x := e.getBrl p
  (e.setBrl p { x with check := some ⟨x.staged, when_, e.now + 140, e.applyFail p x.staged⟩ }).setFld F.BRL_STAT_BUSY p 1

/-- SLOT_CHECKS_END (R239): what the checks found is recorded, or the table is pending. -/
def Eng.slotChecksEnd (e : Eng) (p : Nat) : Eng :=
  let x := e.getBrl p
  match x.check with
  | none => e
  | some ⟨tab, w, c, found⟩ =>
    if e.now < c then e
    else
      let e := (e.setBrl p { x with check := none }).setFld F.BRL_STAT_BUSY p 0
      match found with
      | none => (e.setBrl p { x with check := none, pend := some (tab, w), pendAt := e.now }).setFld F.BRL_STAT_PENDING p 1
      | some (k, t, ne, a) =>
        let e := (e.setFld F.BRL_STAT_ERR p k).post F.BRL_STAT_APPLY_ERR p
        ((e.setFld F.BRL_ERR_TID p t).setFld F.BRL_ERR_NOENT p (b2n ne)).setFld F.BRL_ERR_ADDR p a

/-- Does a pending table take effect in this cycle without a launch (R240)? -/
def Eng.slotDue (e : Eng) (p : Nat) : Bool :=
  let x := e.getBrl p
  x.pend.isSome && !e.running && e.atRound && decide (x.pendAt < e.now) && decide (e.tick.stopAt < e.now)

/-- Does a launch of this cycle put the pending table into force (R240)? -/
def Eng.slotAtLaunch (e : Eng) (p : Nat) : Bool :=
  match e.launchPlan, (e.getBrl p).pend with
  | some pl, some (_, w) => w || (e.launch pl).1
  | _, _ => false

/-- BRLp_CTL.CANCEL (R240): it comes too late in the cycle of the table's boundary. -/
def Eng.slotCancel (e : Eng) (p : Nat) : Eng :=
  if e.slotDue p then e.takeTable p
  else if e.slotAtLaunch p then e
  else (e.setBrl p { e.getBrl p with pend := none }).setFld F.BRL_STAT_PENDING p 0

end Sys2Proof.Machine
end

