-- ==== Sys2Proof/Machine/Ledger.lean ====
section
/-! DEFINITION. Writes of the Ledger (17_commands_keys.md R452 to R455): the unit's before the Keeper's, one word at a time. -/

namespace Sys2Proof.Machine

/-- The words of a record with its check (R452). -/
def recWords (a w0 w1 : Nat) : List (Nat × Nat) := [(a, w0), (a + 1, w1), (a + 2, ledgerCheck [w0, w1])]

/-- Starts the first waiting write while none is in progress. -/
def Eng.ledStart (e : Eng) : Eng :=
  if e.keys.ledAt = 0 ∧ !e.keys.ledq.isEmpty then { e with keys := { e.keys with ledAt := e.now + 1 } } else e

/-- Queues word writes; those of the unit go before a Keeper write that has not started (R454). -/
def Eng.ledPush (e : Eng) (why : LedWhy) (ws : List (Nat × Nat)) : Eng :=
  let new := ws.map (fun x => (⟨x.1, x.2 % 2 ^ 32, why⟩ : LedWrite))
  let q := e.keys.ledq
  let started := if e.keys.ledAt = 0 then [] else q.take 1
  let rest := if e.keys.ledAt = 0 then q else q.drop 1
  let q' := if why = .keeper then q ++ new
    else started ++ rest.filter (fun w => decide (w.why ≠ .keeper)) ++ new ++ rest.filter (fun w => decide (w.why = .keeper))
  { e with keys := { e.keys with ledq := q' } }.ledStart

/-- Is a Keeper write in progress, or waiting (LDG_STAT, R465)? -/
def Eng.ledBusy (e : Eng) : Bool := decide (e.keys.ledAt ≠ 0)

def Eng.ledQueued (e : Eng) : Bool :=
  (if e.keys.ledAt = 0 then e.keys.ledq else e.keys.ledq.drop 1).any (fun w => decide (w.why = .keeper))

/-- The older copy of two (R452), with the next SEQ. -/
def nextCopy (inForce : Option (Nat × Nat × Nat)) (a b : Nat) : Nat × Nat :=
  match inForce with
  | none => (a, 0)
  | some (x, _, s) => (if x = a then b else a, (s + 1) % 2 ^ 32)

/-- The words that store a generation of slot s. -/
def Mem.genWords (m : Mem) (s g : Nat) : List (Nat × Nat) :=
  let (a, q) := nextCopy (m.genRec s) (8 + 8 * (s - 1)) (12 + 8 * (s - 1))
  recWords a g q

/-- The words of the next HOURS record. -/
def Mem.hoursWords (m : Mem) (h : Nat) : List (Nat × Nat) :=
  let (a, q) := nextCopy m.hoursRec 0x60 0x64
  recWords a h q

/-- HOURS (R455). -/
def Mem.hours (m : Mem) : Nat := m.hoursRec.elim 0 (fun r => r.2.1)

/-- The words of the next counter record with a CEIL (R452, R453). -/
def Mem.ceilWords (m : Mem) (ceil : Nat) : List (Nat × Nat) :=
  let (a, q) : Nat × Nat := match m.counterRec with
    | none => (0x20, 0)
    | some (x, _, s) => (if x = 0x5C then 0x20 else x + 4, (s + 1) % 2 ^ 24)
  recWords a (ceil % 2 ^ 32) (ceil / 2 ^ 32 + q * 256)

/-- The image history record in force: its address and SEQ (R455). -/
def Mem.historyRec (m : Mem) : Option (Nat × Nat) :=
  ((List.range 64).map (fun i => 0x100 + 8 * i)).foldl (fun (best : Option (Nat × Nat)) a =>
    if m.ledgerWord (a + 7) ≠ ledgerCheck ((List.range 7).map (fun i => m.ledgerWord (a + i))) then best
    else
      let s := m.ledgerWord (a + 6)
      match best with
      | none => some (a, s)
      | some (_, t) => if seqNewer 32 s t then some (a, s) else best) none

/-- The words of the next image history record: W0 to W5 given (R455). -/
def Mem.historyWords (m : Mem) (ws : List Nat) : List (Nat × Nat) :=
  let (a, q) : Nat × Nat := match m.historyRec with
    | none => (0x100, 0)
    | some (x, s) => (if x = 0x2F8 then 0x100 else x + 8, (s + 1) % 2 ^ 32)
  let w := ws ++ [q]
  (List.range 8).map (fun i => (a + i, (w ++ [ledgerCheck w]).getD i 0))

/-- HOURS: the full hour is over, and HOURS + 1 is written. -/
def Eng.hoursDue (e : Eng) (m : Mem) : Eng :=
  if e.sys.hourNs < 3600000000000 ∨ !e.flag F.RST_STAT_PLLLOCK 0 then e
  else { e with sys := { e.sys with hourNs := e.sys.hourNs - 3600000000000 } }.ledPush .hours (m.hoursWords (m.hours + 1))

/-- A word as a reader gets it (R449, R450). -/
def Mem.ledgerRead (m : Mem) (a : Nat) : Nat := if a < 4 ∨ (0x80 ≤ a ∧ a < 0x100) then 0 else m.ledgerWord a

end Sys2Proof.Machine
end

