-- ==== Sys2Proof/Machine/Image.lean ====
section
/-! DEFINITION. Oakoeb images (17_commands_keys.md R456 to R462): their sections, the checks of R459 and R461, and what they load. -/

namespace Sys2Proof.Machine

/-- A section: type, PAV, INDEX, OFFSET, LENGTH, reserved bytes, its payload, whether the padding is 0. -/
structure Sect where
  type : Nat
  pav : Nat
  index : Nat
  off : Nat
  len : Nat
  rsv : Nat
  data : List Byte
  pad : Bool
  deriving DecidableEq, Repr

/-- The sections from the bytes after the header; none where they do not fill `img` (the image without its trailer). -/
def parseSects : Nat → List Byte → Option (List Sect)
  | 0, l => if l.isEmpty then some [] else none
  | n + 1, l =>
    if l.length < 16 then none
    else
      let len := leAt l 8 4
      let full := (len + 3) / 4 * 4
      if l.length < 16 + full then none
      else
        let body := (l.drop 16).take full
        (parseSects n (l.drop (16 + full))).map (fun r =>
          ⟨leAt l 0 1, leAt l 1 1, leAt l 2 2, leAt l 4 4, len, leAt l 12 4, body.take len, (body.drop len).all (· == 0)⟩ :: r)

/-- The three-byte values of a payload. -/
def threes (l : List Byte) : List Nat := (List.range (l.length / 3)).map (fun i => leAt l (3 * i) 3)

/-- May the type name this PAV and INDEX (R456, R457)? -/
def Sect.namesOk (s : Sect) : Bool :=
  if s.type = 6 then decide (s.index < 48) && s.pav == s.index / 16
  else s.index == 0 && (if s.type = 1 ∨ s.type = 3 ∨ s.type = 5 then decide (s.pav < 3) else s.pav == 0xFF)

/-- Do OFFSET and LENGTH keep the table of R457? -/
def Sect.placeOk (s : Sect) : Bool :=
  match s.type with
  | 1 => decide (s.off < 0x20000) && decide (s.len ≤ 0x20000 - s.off)
  | 2 => decide (0x80000 ≤ s.off) && decide (s.off < 0xC0000) && decide (s.len ≤ 0xC0000 - s.off)
  | 3 => decide (s.off < 0x10000) && s.len % 3 == 0 && decide (s.off + s.len / 3 ≤ 0x10000)
  | 4 => decide (0x40000 ≤ s.off) && decide (s.off < 0x60000) && s.len % 3 == 0 && decide (s.off + s.len / 3 ≤ 0x60000)
  | 5 => s.off == 0 && s.len == 128
  | 6 => s.off == 0 && s.len == 195
  | 7 => s.off == 0 && s.len == 530
  | 8 => s.off == 0 && s.len == 16
  | 9 => s.off == 0 && s.len == 189
  | 10 => s.off == 0 && s.len == 756
  | 11 => s.off == 0 && s.len == 8
  | _ => false

/-- The number of bytes or words that a section loads into an addressed memory. -/
def Sect.units (s : Sect) : Nat := if s.type ≤ 2 then s.len else if s.type ≤ 4 then s.len / 3 else 0

/-- Do two sections load one byte or word? -/
def Sect.overlap (s t : Sect) : Bool :=
  s.type == t.type && s.pav == t.pav && decide (s.type ≤ 4) && decide (max s.off t.off < min (s.off + s.units) (t.off + t.units))

/-- Are two sections of one kind that may occur once? -/
def Sect.repeats (s t : Sect) : Bool :=
  s.type == t.type && decide (5 ≤ s.type) && s.pav == t.pav && s.index == t.index

/-- The slot table of a SLOTS payload. -/
def slotsOf (d : List Byte) : Tab Nat := ((List.range 128).filter (fun a => byteAt d a != 0)).map (fun a => (a, byteAt d a))

/-- The tick settings of a TICKS payload. -/
def ticksOf (d : List Byte) : TickSet := { p := leAt d 0 3, s := leAt d 3 3, f := leAt d 6 1, m := leAt d 7 1, e := leAt d 8 8 }

/-- Is a producer index in use (R365)? -/
def producerUsed (i : Nat) : Bool :=
  decide (i < 10) || (decide (16 ≤ i) && decide (i < 208) && decide ((i - 16) % 8 < 5)) || (decide (256 ≤ i) && decide (i < 352)) ||
    (decide (384 ≤ i) && decide (i < 432))

/-- Are the values of a section legal writes (R459, reason 5)? -/
def Sect.valuesOk (s : Sect) : Bool :=
  let d := s.data
  match s.type with
  | 3 => (threes d).all (fun v => decide (v < 2 ^ 20))
  | 4 => (threes d).all (fun v => decide (v < 2 ^ 20))
  | 5 => d.all (fun b => decide (b.toNat < 64)) && (slotFail s.pav (slotsOf d)).isNone
  | 6 => (threes (d.take 192)).all (fun v => decide (v < 2 ^ 20)) && decide (leAt d 192 3 < 2 ^ 18)
  | 7 => (List.range 512).all (fun i => !bit (byteAt d i) 7 || producerUsed i) && leAt d 528 2 != 0
  | 8 =>
    let t := ticksOf d
    decide (128 ≤ t.p) && decide (t.p ≤ 1562500) && decide (t.s ≤ t.p / 16) && t.f != 0 && decide (t.m ≤ 6) && decide (t.e < 2 ^ 60)
  | 9 => (threes d).all (fun v => decide (v < 2 ^ 20))
  | 10 => (List.range 63).all (fun i => (threes ((d.drop (12 * i)).take 9)).all (fun v => decide (v < 2 ^ 20)) &&
      decide (byteAt d (12 * i + 9) < 16) && decide (byteAt d (12 * i + 10) < 2)) && byteAt d 10 == 1
  | 11 => decide (1 ≤ byteAt d 0) && decide (byteAt d 0 ≤ 15) && decide (byteAt d 1 ≤ 4) && decide (byteAt d 2 < 2)
  | _ => true

/-- Are the reserved bytes of a section 0? -/
def Sect.rsvOk (s : Sect) : Bool :=
  s.rsv == 0 && s.pad && (s.type != 10 || (List.range 63).all (fun i => byteAt s.data (12 * i + 11) == 0)) &&
    (s.type != 11 || leAt s.data 3 5 == 0)

/-- The index pairs (earlier, later) of a list of sections with a relation: the later ones. -/
def laterOf (rel : Sect → Sect → Bool) (l : List Sect) : List Nat :=
  (List.range l.length).filter (fun j => match l[j]? with
    | some t => (l.take j).any (fun s => rel s t)
    | none => false)

/-- The sections whose number a test fails. -/
def failing (l : List Sect) (ok : Sect → Bool) : List Nat :=
  (List.range l.length).filter (fun j => match l[j]? with
    | some t => !ok t
    | none => false)

/-- The defects of an image of `total` bytes (R459): (reason, section or 0xFFFF). `tagOk` the tag verifies. -/
def imageDefects (img : List Byte) (total : Nat) (tagOk : Bool) : List (Nat × Nat) :=
  let head := leAt img 0 4 == 0x424B414F && leAt img 4 2 == 1 && byteAt img 6 == 0x1A && byteAt img 7 == 0x3F &&
    leAt img 16 4 == total && leAt img 22 10 == 0
  let n := leAt img 20 2
  let tag := if tagOk then [] else [(1, 0xFFFF)]
  if n = 0 ∨ 1024 < n then tag ++ [(2, 0xFFFF)]
  else
    match parseSects n ((img.take (total - 8)).drop 32) with
    | none => tag ++ [(2, 0xFFFF)]
    | some l =>
      let r3 := failing l (fun s => s.namesOk && s.placeOk)
      tag ++ (if head then [] else [(2, 0xFFFF)]) ++ (failing l Sect.rsvOk).map (fun j => (2, j)) ++ r3.map (fun j => (3, j)) ++
        (laterOf Sect.overlap l).map (fun j => (4, j)) ++
        ((failing l Sect.valuesOk).filter (fun j => !r3.contains j)).map (fun j => (5, j)) ++
        (laterOf Sect.repeats l).map (fun j => (6, j)) ++
        ([8, 10, 11].filter (fun t => !l.any (fun s => s.type == t))).map (fun _ => (6, 0xFFFF))

/-- The defect reported: the lowest reason, then the lowest section. -/
def worstDefect (l : List (Nat × Nat)) : Option (Nat × Nat) :=
  l.foldl (fun b d => match b with
    | none => some d
    | some x => if d.1 < x.1 ∨ (d.1 = x.1 ∧ d.2 < x.2) then some d else some x) none

/-- The section of a type, if any. -/
def sectData (l : List Sect) (type pav : Nat) : Option (List Byte) :=
  (l.find? (fun s => s.type == type && s.pav == pav)).map (·.data)

/-- The slot table that a load gives pavilion p: the reset table where the section is absent (R457, R487). -/
def imageSlots (l : List Sect) (p : Nat) : Tab Nat :=
  match sectData l 5 p with
  | some d => slotsOf d
  | none => if p = 0 then [(0, 1), (8, 1), (16, 1), (24, 1)] else []

/-- B(t) of an image. -/
def imageBudget (l : List Sect) (t : Nat) : Nat := (sectData l 9 0xFF).elim 0 (fun d => leAt d (3 * (t - 1)) 3)

/-- KEY_BEHMASK: bits 15 to 1, the part's own revision among them (R462). -/
def behMask : Nat := (Config.rawBehmask.toNat % 65536 ||| (1 <<< Config.behrev)) / 2 * 2

/-- The contract check (R461): bytes 8 and 9 of a failure. -/
def contractFail (l : List Sect) : Option (Nat × Nat) :=
  let c := (sectData l 11 0xFF).getD []
  let t := ticksOf ((sectData l 8 0xFF).getD [])
  if !bit behMask (byteAt c 0) then some (1, 0)
  else if byteAt c 1 ≠ 0 ∧ byteAt c 1 ≠ Config.refSel.toNat + 1 then some (2, 0)
  else
    (allThreads.find? (fun u => imageBudget l u != 0 &&
      !decide (16 * imageBudget l u ≤ entriesOf (imageSlots l (pavOf u)) u * (t.p - t.s)))).map (fun u => (3, u))

/-! ### Loading -/

/-- Data words at consecutive canonical addresses. -/
def Mem.setDataWords (m : Mem) (k : Nat) : List Nat → Mem
  | [] => m
  | v :: t => (m.setData k v).setDataWords (k + 1) t

/-- A memory section is written. -/
def Mem.loadSect (m : Mem) (s : Sect) : Mem :=
  match s.type with
  | 1 => m.setCodeBytes (s.pav * 0x20000 + s.off) s.data
  | 2 => m.setCodeBytes s.off s.data
  | 3 => m.setDataWords ((s.pav + 1) * 0x10000 + s.off) (threes s.data)
  | 4 => m.setDataWords s.off (threes s.data)
  | _ => m

/-- The memories of an image: those no section loads hold 0 (R457). -/
def Mem.loadImage (m : Mem) (l : List Sect) : Mem := l.foldl (fun m s => m.loadSect s) { m with data := [], code := [] }

/-- The tick settings of an image, staged and in force. -/
def Eng.loadTicks (e : Eng) (t : TickSet) : Eng :=
  let e := (e.setReg .TIK_PERIOD_LO 0 (word t.p)).setReg .TIK_PERIOD_HI 0 (word (t.p / 2 ^ 20))
  let e := ((e.setReg .TIK_SLACK 0 (word t.s)).setReg .TIK_FRAME 0 (word t.f)).setReg .TIK_MATRIX 0 (word t.m)
  let e := foldS (fun i e => e.setReg .TIK_EPOCH i (word (t.e / 2 ^ (20 * i)))) [0, 1, 2] e
  { e with tick := { e.tick with set := t } }

/-- The Causeway map of an image, or the reset values (R457). -/
def Eng.loadCwy (e : Eng) (d : Option (List Byte)) : Eng :=
  let d := d.getD (List.replicate 528 0 ++ [0, 4])
  let e := foldS (fun i e => if producerUsed i then e.setReg .CWY_PMAP i (word (byteAt d i)) else e) (List.range 512) e
  let e := foldS (fun c e => e.setFld F.CWY_CHCFG_DECL c (bits (byteAt d (512 + c / 8)) (c % 8) (c % 8))) (List.range 128) e
  e.setFld F.CWY_FLOOD_LIMIT 0 (leAt d 528 2)

/-- Context and vectors of thread t. -/
def Eng.loadThread (e : Eng) (d : List Byte) (t : Nat) : Eng :=
  let i := 12 * (t - 1)
  let e := (e.setReg .THR_IVEC t (word (leAt d (i + 3) 3))).setReg .THR_EMVEC t (word (leAt d (i + 6) 3))
  let e := e.setFld F.THR_WEIGHT_W t (byteAt d (i + 9))
  if t = 1 then e else e.setThr t { e.getThr t with pc := word (leAt d i 3) }

/-- The program of reed k goes to its active bank (R460). -/
def Eng.loadReed (e : Eng) (l : List Sect) (k : Nat) : Eng :=
  match l.find? (fun s => s.type == 6 && s.index == k) with
  | some s =>
    let ws := (threes (s.data.take 192)).map word
    { e with reeds := Tab.put e.reeds k { Tab.get {} e.reeds k with
        bank0 := ((List.range 64).zip ws).filter (fun x => decide (x.2 ≠ 0)), wrap0 := word (leAt s.data 192 3) } }
  | none => { e with reeds := Tab.put e.reeds k { Tab.get {} e.reeds k with bank0 := [], wrap0 := 0x3F } }

/-- The settings of an image (R457, R460 step 6). -/
def Eng.loadImage (e : Eng) (l : List Sect) : Eng :=
  let e := e.loadTicks (ticksOf ((sectData l 8 0xFF).getD []))
  let e := foldS (fun p e => e.setBrl p { e.getBrl p with force := imageSlots l p }) [0, 1, 2] e
  let e := foldS (fun k e => e.loadReed l k) (List.range 48) e
  let e := e.loadCwy (sectData l 7 0xFF)
  let e := foldS (fun t e => e.setReg .TIK_BUDGET t (word (imageBudget l t))) allThreads e
  foldS (fun t e => e.loadThread ((sectData l 10 0xFF).getD []) t) allThreads e

/-- Entry to RUN with the settings of an image (R460 step 7, R490): ticks armed, thread 1 at its PC, threads with GO released. -/
def Eng.enterRun (e : Eng) (l : List Sect) : Eng :=
  let d := (sectData l 10 0xFF).getD []
  let e := (e.changeState 3).tickArm
  let e := foldS (fun t e => if t ≠ 1 ∧ bit (byteAt d (12 * (t - 1) + 10)) 0 then e.releaseThr t else e) allThreads e
  e.setThr 1 { e.getThr 1 with pc := word (leAt d 0 3), relCyc := e.now + 1 }

end Sys2Proof.Machine
end

