-- ==== Sys2Proof/Machine/Commands.lean ====
section
/-! DEFINITION. The command and key unit (17_commands_keys.md R435 to R465; 16_host_rings.md R414, R415): handover with the checks,
the effect of each command, aborts, the mailbox, Ledger writes and image loads. -/

namespace Sys2Proof.Machine

/-! ### The running command -/

/-- The command whose completion is next (R439). -/
def Eng.running? (e : Eng) : Option Cmd := e.keys.cmds.find? (fun c => c.idx == e.keys.nextCpl && c.res.isNone)

/-- The running command with an opcode and a stage. -/
def Eng.runningOp (e : Eng) (op : Nat → Bool) (st : CmdStage) : Option Cmd :=
  e.running?.bind (fun c => if op c.op ∧ c.stage = st ∧ e.engState ≠ 0 ∧ e.awake then some c else none)

def Eng.modCmd (e : Eng) (idx : Nat) (f : Cmd → Cmd) : Eng :=
  { e with keys := { e.keys with cmds := e.keys.cmds.map (fun c => if c.idx = idx then f c else c) } }

/-- ARGS byte i (entry bytes 4 to 18). -/
def Cmd.arg (c : Cmd) (i n : Nat) : Nat := leAt c.entry i n

/-- L is the counter of a critical command (R445). -/
def Eng.advanceL (e : Eng) (c : Cmd) : Eng :=
  if opCritical c.op then { e with keys := { e.keys with l := max e.keys.l c.ctr } } else e

/-- The counter's 40 bits as result data. -/
def ctrBytes (n : Nat) : List Byte := leBytes 5 n

/-! ### Checks 1 to 3 (R435, R438) -/

/-- Is the opcode in the catalogue? -/
def opListed (op : Nat) : Bool :=
  (decide (1 ≤ op) && decide (op ≤ 6)) || (decide (0x10 ≤ op) && decide (op ≤ 0x19)) || decide (0x80 ≤ op)

/-- The ARGS bytes that an opcode uses. -/
def opArgs (op : Nat) : Nat :=
  if 0x80 ≤ op then 15
  else match op with
    | 3 => 2
    | 4 => 4
    | 5 => 5
    | 6 => 1
    | 0x10 => 8
    | 0x11 => 3
    | 0x12 => 6
    | 0x13 => 11
    | 0x14 => 12
    | 0x15 => 1
    | 0x16 => 9
    | 0x17 => 15
    | 0x19 => 1
    | _ => 0

/-- Check 2: reserved bytes and bits are 0. -/
def reservedOk (d : List Byte) : Bool :=
  let op := byteAt d 0
  (decide (0x80 ≤ op) || byteAt d 1 == 0) && (((d.drop (4 + opArgs op)).take (15 - opArgs op)).all (· == 0)) &&
    (opCritical op || leAt d 19 12 == 0) && byteAt d 31 % 128 == 0

/-- Check 3: fields hold listed values. -/
def fieldsOk (d : List Byte) : Bool :=
  match byteAt d 0 with
  | 6 => byteAt d 4 != 0 && decide (byteAt d 4 < 4)
  | 0x11 => byteAt d 4 != 0 && decide (byteAt d 4 < 4)
  | 0x12 => leAt d 4 3 &&& leAt d 7 3 == 0
  | 0x13 => decide (byteAt d 4 < 24)
  | 0x14 => (byteAt d 15 == 1 || byteAt d 15 == 2) && decide (leAt d 12 3 < 2 ^ 20)
  | 0x15 => byteAt d 4 == 1 || byteAt d 4 == 2
  | 0x16 => decide (byteAt d 4 < 3) && (byteAt d 4 != 0 || leAt d 5 8 == 0)
  | 0x17 => decide (0x300 ≤ leAt d 4 2) && decide (leAt d 4 2 ≤ 0xFFF) && byteAt d 6 != 0 && decide (byteAt d 6 < 4)
  | 0x19 => decide (byteAt d 4 < 2)
  | _ => true

/-- The host data that a command reads before check 3 ends: address and bytes. -/
def hostData (d : List Byte) : Option (Nat × Nat) :=
  match byteAt d 0 with
  | 5 => some (leAt d 4 5, 32)
  | 0x13 => some (leAt d 10 5, 12 * (2 ^ (byteAt d 7 % 16) * leAt d 8 2))
  | _ => none

/-- Check 3 on host data. -/
def dataOk (d data : List Byte) : Bool :=
  match byteAt d 0 with
  | 5 => (data.drop 24).all (· == 0)
  | 0x13 => (List.range (data.length / 4)).all (fun i => decide (leAt data (4 * i) 4 < 2 ^ 20))
  | _ => true

/-! ### Checks 4 and 5 (R443 to R445) -/

/-- The CMAC message of a command with counter C (R444). -/
def Mem.cmdMsg (m : Mem) (d : List Byte) (c : Nat) : List Nat :=
  [0x4A, 0x58, 0x43, 0x4D] ++ m.devsn ++ (d.take 19).map (·.toNat) ++ natBytes 5 c

/-- Does the tag verify with counter C (R443)? -/
def Block.tagOk (b : Block) (d : List Byte) (c : Nat) : Bool :=
  let key := if byteAt d 0 = 0x11 then
      (List.range 16).map (fun i => bits (b.mem.ledgerWord (i / 4)) (8 * (i % 4) + 7) (8 * (i % 4)))
    else b.mem.slotKey 1 (b.eng.keyGen 1)
  let t := Aes.cmac key (b.mem.cmdMsg d c)
  ((d.drop 24).take 7).map (·.toNat) == t.take 7 && byteAt d 23 == ((c / 2 ^ 32) ^^^ t.getD 7 0)

/-- The counter recovered above L, and the one not above it (R443, R445). -/
def counters (l low : Nat) : Option Nat × Option Nat :=
  let base := l / 2 ^ 32 * 2 ^ 32 + low
  let up := if l < base then base else base + 2 ^ 32
  let dn := if base ≤ l then some base else if 2 ^ 32 ≤ base then some (base - 2 ^ 32) else none
  (if up < 2 ^ 40 then some up else none, dn)

/-- Checks 4 and 5 of a critical command: the counter, or the RESULT. -/
def Block.authorise (b : Block) (d : List Byte) : Nat × Nat :=
  let (up, dn) := counters b.eng.keys.l (leAt d 19 4)
  let ok (c : Option Nat) : Bool := match c with
    | some x => b.tagOk d x
    | none => false
  if !b.eng.flag F.KEY_STAT_PROV 0 then (4, 0)
  else if ok up then (0, up.getD 0)
  else if ok dn then (5, 0) else (4, 0)

/-- Check 4 on the response of DEBUG_UNLOCK (R502): it consumes the challenge. -/
def Block.unlockResponse (b : Block) (d : List Byte) : Bool × Eng :=
  let e := b.eng
  let lv := byteAt d 4
  if lv = 0 then (true, e)
  else if !e.flag F.HIDE_AUTHSTAT_CVALID 0 ∨ e.hide.chalPath ≠ 2 ∨ e.hide.chalLevel ≠ lv then (false, e)
  else if ((d.drop 5).take 8).map (·.toNat) = b.response e.hide.chal 2 lv then (true, e.chalDrop)
  else (false, e.chalDrop.authFail)

/-! ### Posting -/

/-- A command past checks 1 to 5 and its reservation: to the Keeper through the mailbox (R442), or ready. In FAULTED the unit
completes a Keeper's command with STATE (R491). -/
def Eng.cmdReady (e : Eng) (c : Cmd) : Eng :=
  if !opKeeper c.op then e.modCmd c.idx (fun x => { x with stage := .ready })
  else if e.engState = 4 then e.cmdFinish c.idx 6 []
  else
    let e := e.modCmd c.idx (fun x => { x with stage := .posted })
    let e := e.setReg .KEY_CSTAT 0 (word (2 ^ 19 + b2n (opCritical c.op) * 2 ^ 17 + c.op * 256 + byteAt c.entry 1))
    let e := e.setReg .KEY_CIDX 0 (word c.idx)
    let e := foldS (fun i e => e.setReg .KEY_CW i (word (byteAt c.entry (4 + 2 * i) * 256 +
      (if i = 7 then 0 else byteAt c.entry (5 + 2 * i))))) (List.range 8) e
    foldS (fun i e => e.setReg .KEY_CRD i 0) (List.range 8) e

/-- Checks 4 and 5, then the counter reservation (R453). -/
def Block.cmdAuth (b : Block) (c : Cmd) : Eng :=
  let e := b.eng
  if !opCritical c.op then e.cmdReady c
  else
    let (r, ctr) := b.authorise c.entry
    if r = 4 then (e.bump F.KEY_ECNT_AUTHFAIL 0 1).cmdFinish c.idx 4 []
    else if r = 5 then (e.bump F.KEY_ECNT_REPLAYS 0 1).cmdFinish c.idx 5 []
    else
      let (ok, e) := if c.op = 0x16 then b.unlockResponse c.entry else (true, e)
      if !ok then (e.bump F.KEY_ECNT_AUTHFAIL 0 1).cmdFinish c.idx 4 []
      else
        let e := e.modCmd c.idx (fun x => { x with ctr := ctr })
        if ctr ≤ e.keys.ceil then e.cmdReady { c with ctr := ctr }
        else
          (e.modCmd c.idx (fun x => { x with stage := .reserve })).ledPush .reserve
            (b.mem.ceilWords (min (ctr + 4095) (2 ^ 40 - 1)))

/-! ### Handover (R415, R439, R440) -/

/-- Has a running command reached its commit point (R438, R442)? -/
def Eng.committed (e : Eng) (c : Cmd) : Bool :=
  match c.stage with
  | .posted => e.flag F.KEY_CSTAT_TAKEN 0
  | .writing => true
  | .flushing => true
  | .testing => true
  | _ => false

/-- An ABORT comes too late for command `t` (R440). -/
def Eng.abortLate (e : Eng) (t : Nat) : Eng :=
  let late (c : Cmd) : Cmd := if c.op = 3 ∧ leAt c.entry 4 2 = t ∧ c.outcome = some 11 then { c with outcome := some 12 } else c
  { e with keys := { e.keys with cmds := e.keys.cmds.map late } }

/-- An ABORT handed over in this cycle acts on command `t` as the cycle ends (R440): one of the Keeper reads ABREQ from the next cycle on
(R442). A command that has completed meanwhile has told its ABORTs so (R441). -/
def Eng.abortEnd (e : Eng) (t : Nat) : Eng :=
  match e.keys.cmds.find? (fun c => c.idx == t && c.res.isNone) with
  | none => e
  | some c =>
    if e.committed c then e.abortLate t
    else if c.stage = .posted then e.setFld F.KEY_CSTAT_ABREQ 0 1
    else e.cmdFinish t 11 []

/-- The end of a cycle in the command and key unit: KEY_CSTAT.TAKEN reads 1 from the cycle after the write of KEY_CTAKE on, and the
commands that ABORTs named stop, where their commit point lies in a later cycle (R440, R442). -/
def Eng.keysEnd (e : Eng) : Eng :=
  let e := if e.keys.taken then e.setFld F.KEY_CSTAT_TAKEN 0 1 else e
  foldS (fun t e => e.abortEnd t) e.keys.abQ { e with keys := { e.keys with abQ := [], taken := false } }

/-- The outcome of an ABORT at its handover (R440): it stops its target as the cycle ends, unless that reaches its commit point by then. -/
def Eng.abortTake (e : Eng) (idx : Nat) (d : List Byte) : Nat × Eng :=
  let t := leAt d 4 2
  let dist := (idx + 65536 - t) % 65536
  if dist = 0 ∨ e.ringN 0 < dist then (13, e)
  else
    match e.keys.cmds.find? (fun c => c.idx == t && c.res.isNone) with
    | some c => if e.committed c then (12, e) else (11, { e with keys := { e.keys with abQ := e.keys.abQ ++ [t] } })
    | none =>
      if (e.getRing 0).fetched.any (fun x => x.1 == t) then
        (11, { e with keys := { e.keys with stopped := e.keys.stopped ++ [t] } })
      else (12, e)

/-- The fetched command to hand over now (R415, R439): the next in index order, or while a command runs the first ABORT or
RESET_ENGINE. -/
def Eng.handoverPick (e : Eng) : Option (Nat × List Byte) :=
  let q := (e.getRing 0).fetched
  match q with
  | [] => none
  | (i, d) :: _ =>
    if i = e.keys.nextCpl then some (i, d)
    else if e.running?.isSome then q.find? (fun x => byteAt x.2 0 == 3 || byteAt x.2 0 == 0x15)
    else none

/-- Has CPLQ a free entry that no earlier command has reserved? -/
def Eng.cplFree (e : Eng) : Bool :=
  e.ringState 1 == 1 &&
    decide ((e.fld F.HRG_RIDX_D 1 + 65536 - e.fld F.HRG_RHOST_H 1) % 65536 + e.keys.cmds.length < e.ringN 1)

/-- COMMAND_HANDOVER: checks 1 to 3, host data, checks 4 and 5. -/
def Block.commandHandover (b : Block) : Eng :=
  let e := b.eng
  if e.engState = 0 ∨ !e.awake ∨ e.ringState 0 ≠ 1 then e
  else
    match e.handoverPick with
    | none => e
    | some (idx, d) =>
      if !e.cplFree then
        (if e.flag F.HRG_STAT_CPLFULL 0 then e else (e.setFld F.HRG_STAT_CPLFULL 0 1).raise 6)
      else
        let e := e.setFld F.HRG_STAT_CPLFULL 0 0
        let q := e.getRing 0
        let e := e.setRing 0 { q with fetched := q.fetched.filter (fun x => x.1 != idx) }
        let c : Cmd := { idx := idx, entry := d, handed := e.now }
        let e := { e with keys := { e.keys with cmds := e.keys.cmds ++ [c] } }
        if e.keys.stopped.contains idx then e.cmdFinish idx 11 []
        else if !opListed c.op then e.cmdFinish idx 1 []
        else if !reservedOk d then e.cmdFinish idx 2 []
        else if !fieldsOk d then e.cmdFinish idx 3 []
        else if c.op = 3 then
          let (o, e) := e.abortTake idx d
          e.modCmd idx (fun x => { x with outcome := some o })
        else
          match hostData d with
          | some (a, n) =>
            if n = 0 then Block.cmdAuth ⟨b.mem, e⟩ c
            else
              let e := e.modCmd idx (fun x => { x with stage := .reading, want := n })
              foldS (fun (t : Nat × Nat) e => e.issueTxn ⟨0x10, false, t.1, t.2, [], .cmdData idx (t.1 - a)⟩) (chunks (n / 4 + 2) a n) e
          | none => Block.cmdAuth ⟨b.mem, e⟩ c

/-- Host data of a command was read; `ok` the read was answered DONE (R435). -/
def Block.cmdData (b : Block) (idx : Nat) (ok : Bool) (data : List Byte) : Eng :=
  let e := b.eng
  match e.keys.cmds.find? (fun c => c.idx == idx && c.res.isNone && decide (c.stage = .reading)) with
  | none => e
  | some c =>
    if !ok then e.cmdFinish idx 14 []
    else
      let c := { c with data := c.data ++ data }
      let e := e.modCmd idx (fun _ => c)
      if c.data.length < c.want then e
      else if !dataOk c.entry c.data then e.cmdFinish idx 3 []
      else Block.cmdAuth ⟨b.mem, e⟩ c

/-! ### Commands of the unit -/

/-- JX_ID (00_scope.md R12). -/
def Eng.jxId (e : Eng) : Nat := setBits (setBits (e.val .JX_ID 0) 7 4 Config.sirev) 3 0 Config.behrev

/-- NOP. -/
def Eng.cmdNop (e : Eng) : Eng :=
  match e.runningOp (· == 1) .ready with
  | some c => e.cmdFinish c.idx 0 []
  | none => e

/-- GET_STATE. -/
def Eng.cmdGetState (e : Eng) : Eng :=
  match e.runningOp (· == 2) .ready with
  | some c => e.cmdFinish c.idx 0 (leBytes 3 e.jxId ++ leBytes 1 e.engState ++ ctrBytes e.keys.l ++ ctrBytes e.keys.ceil ++ leBytes 2 behMask)
  | none => e

/-- ABORT: its outcome. -/
def Eng.cmdAbort (e : Eng) : Eng :=
  match e.runningOp (· == 3) .ready with
  | some c => e.cmdFinish c.idx 0 (leBytes 1 (c.outcome.getD 13))
  | none => e

/-- SET_LATENCY (18_power.md R473). -/
def Eng.cmdSetLatency (e : Eng) : Eng :=
  match e.runningOp (· == 4) .ready with
  | none => e
  | some c =>
    if e.engState ≠ 3 then e.cmdFinish c.idx 6 []
    else ((e.setReg .PWR_TOL0 0 (word (c.arg 4 4))).setReg .PWR_TOL1 0 (word (c.arg 4 4 / 2 ^ 20))).cmdFinish c.idx 0 []

/-- The Ledger writes of a command start: its commit point (R438, R445). -/
def Eng.cmdWrite (e : Eng) (c : Cmd) (ws : List (Nat × Nat)) : Eng :=
  ((e.advanceL c).modCmd c.idx (fun x => { x with stage := .writing })).ledPush .command ws

/-- The words that PROVISION writes, the state last (R447). -/
def Mem.provisionWords (m : Mem) (data : List Byte) : List (Nat × Nat) :=
  let ws := (List.range 6).map (fun i => leAt data (4 * i) 4)
  (List.range 6).map (fun i => (i, ws.getD i 0)) ++ m.genWords 1 0 ++ m.genWords 2 0 ++ m.genWords 3 0 ++
    [(7, ledgerCheck (ws ++ [0x5A5A0001])), (6, 0x5A5A0001)]

/-- PROVISION (R447). -/
def Block.cmdProvision (b : Block) : Eng :=
  let e := b.eng
  match e.runningOp (· == 5) .ready with
  | none => e
  | some c =>
    if e.engState ≠ 1 ∨ e.flag F.KEY_STAT_PROV 0 ∨ e.flag F.KEY_STAT_DAMAGED 0 then e.cmdFinish c.idx 6 []
    else e.cmdWrite c (b.mem.provisionWords c.data)

/-- SETUP, RUN or MAINTENANCE. -/
def Eng.keyStates (e : Eng) : Bool := e.engState == 1 || e.engState == 3 || e.engState == 5

/-- KEY_CHANGE (R448, R503): the new key applies from the commit point on. -/
def Block.cmdKeyChange (b : Block) : Eng :=
  let e := b.eng
  match e.runningOp (· == 0x11) .ready with
  | none => e
  | some c =>
    let s := c.arg 4 1
    let g := c.arg 5 2
    if !e.keyStates then e.cmdFinish c.idx 6 []
    else if g ≤ e.keyGen s then e.cmdFinish c.idx 7 []
    else
      let e := (e.setFld F.KEY_GEN_GEN s g).cmdWrite c (b.mem.genWords s g)
      if s = 3 ∧ e.fld F.HIDE_AUTH_LEVEL 0 ≠ 0 then e.hideLevel 0 0 else e

/-- DEBUG_UNLOCK (R502, R503). -/
def Eng.cmdDebugUnlock (e : Eng) : Eng :=
  match e.runningOp (· == 0x16) .ready with
  | none => e
  | some c =>
    let lv := c.arg 4 1
    let path := e.fld F.HIDE_AUTH_PATH 0
    if lv = 0 then
      let e := e.advanceL c
      (if path = 2 then e.hideLevel 0 0 else e).cmdFinish c.idx 0 []
    else if path = 1 then e.cmdFinish c.idx 6 []
    else ((e.advanceL c).hideLevel lv 2).cmdFinish c.idx 0 []

/-- LEDGER_WRITE (R438). -/
def Eng.cmdLedgerWrite (e : Eng) : Eng :=
  match e.runningOp (· == 0x17) .ready with
  | none => e
  | some c =>
    let a := c.arg 4 2
    let n := c.arg 6 1
    if !e.keyStates then e.cmdFinish c.idx 6 []
    else if 0x1000 < a + n then e.cmdFinish c.idx 7 []
    else e.cmdWrite c ((List.range n).map (fun i => (a + i, c.arg (7 + 4 * i) 4)))

/-- COUNTER_SEAL. -/
def Eng.cmdSeal (e : Eng) : Eng :=
  match e.runningOp (· == 0x18) .ready with
  | none => e
  | some c =>
    let e := e.advanceL c
    e.cmdFinish c.idx 0 (ctrBytes e.keys.l)

/-- MAINTENANCE enter: its commit point (R492). -/
def Eng.cmdMaintEnter (e : Eng) : Eng :=
  match e.runningOp (· == 0x19) .ready with
  | none => e
  | some c =>
    if c.arg 4 1 ≠ 1 then e
    else if e.engState ≠ 3 then e.cmdFinish c.idx 6 []
    else
      let e := (e.advanceL c).changeState 5
      let e := foldS (fun n e => if e.schEn n then e.schDisable n else e) (List.range 24) e
      let e := foldS (fun n e => e.linkDisable n) (List.range 24) e
      e.modCmd c.idx (fun x => { x with stage := .flushing })

/-- MAINTENANCE leave: the reset acts once the completion is visible (R479, R490). -/
def Eng.cmdMaintLeave (e : Eng) : Eng :=
  match e.runningOp (· == 0x19) .ready with
  | none => e
  | some c =>
    if c.arg 4 1 ≠ 0 then e
    else if e.engState ≠ 5 then e.cmdFinish c.idx 6 []
    else { e with keys := { e.keys with reset := some (c.idx, 5, false, c.ctr) } }.cmdFinish c.idx 0 []

/-- RESET_ENGINE of a scope (R441, R480): an uncompleted command of the Keeper is cut off; then it completes with DONE. -/
def Eng.cmdReset (e : Eng) (scope : Nat) : Eng :=
  let mine (c : Cmd) : Bool := c.op == 0x15 && c.arg 4 1 == scope && c.res.isNone && decide (c.stage = .ready)
  if e.engState = 0 ∨ !e.awake ∨ !e.keys.cmds.any mine then e
  else
    let e := e.cutOff true
    match e.running? with
    | none => e
    | some c =>
      if !mine c then e
      else { e with keys := { e.keys with reset := some (c.idx, 3, scope == 2, c.ctr) } }.cmdFinish c.idx 0 []

/-! ### Commands of the Keeper (R437, R442), each as one act of it -/

/-- The Keeper takes the pending command: a running one that is posted and not an image load. -/
def Eng.keeperCmd (e : Eng) (op : Nat → Bool) : Option Cmd := e.runningOp op .posted

/-- The Keeper completes the pending command. -/
def Eng.keeperDone (e : Eng) (c : Cmd) (r : Nat) (d : List Byte) : Eng :=
  ((if r = 0 then e.advanceL c else e).cmdFinish c.idx r d).clearMailbox

/-- The Keeper's act on a command of the states RUN: ABORTED where an ABORT came before, STATE outside RUN, RESULT `r` of checks
7 and 8, else `f`. -/
def Eng.keeperAct (e : Eng) (c : Cmd) (r : Nat) (f : Eng → Eng) : Eng :=
  if e.flag F.KEY_CSTAT_ABREQ 0 then e.keeperDone c 11 []
  else if e.engState ≠ 3 then e.keeperDone c 6 []
  else if r ≠ 0 then e.keeperDone c r []
  else f (e.setFld F.KEY_CSTAT_TAKEN 0 1)

/-- LNKn_CTL.EN of every link. -/
def Eng.linkMask (e : Eng) : Nat := (List.range 24).foldl (fun m n => m + e.fld F.LNK_CTL_EN n * 2 ^ n) 0

/-- LINK_ENABLE. EN = 1 is an illegal write where MODE is 0 (R99), so such a link stays as it is, and the data show it. -/
def Eng.cmdLinkEnable (e : Eng) : Eng :=
  match e.keeperCmd (· == 0x12) with
  | none => e
  | some c => e.keeperAct c 0 (fun e =>
      let e := foldS (fun n e => if bit (c.arg 7 3) n then e.linkDisable n else e) (List.range 24) e
      let e := foldS (fun n e => if bit (c.arg 4 3) n && e.linkMode n != 0 then e.linkEnable n else e) (List.range 24) e
      e.keeperDone c 0 (leBytes 3 e.linkMask))

/-- The row set of a SCHEDULE_CHANGE. -/
def Cmd.rowSet (c : Cmd) : RowSet := ⟨c.arg 5 2, c.arg 7 1, c.arg 8 2⟩

/-- The engine with the entries of a SCHEDULE_CHANGE in the store. -/
def Eng.schStore (e : Eng) (c : Cmd) : Eng :=
  let s := c.rowSet
  let put (st : Tab (List Word)) (i : Nat) : Tab (List Word) :=
    Tab.put st (s.base + i) ((List.range 3).map (fun j => word (leAt c.data (12 * i + 4 * j) 4)))
  { e with sch := { e.sch with store := (List.range s.size).foldl put e.sch.store } }

/-- SCHEDULE_CHANGE: RANGE where the apply would fail; it completes once nothing is pending (cmdPoll). -/
def Eng.cmdSchedule (e : Eng) : Eng :=
  match e.keeperCmd (· == 0x13) with
  | none => e
  | some c =>
    let s := c.rowSet
    let n := c.arg 4 1
    let ok := decide (s.rb ≤ 6) && decide (1 ≤ s.wpr) && decide (s.wpr ≤ 256) && decide (s.base + s.size ≤ 16384) &&
      (e.layer n).pend.isNone && (e.layer n).check.isNone && (e.schStore c).rowSetOk n s e.tick.set
    e.keeperAct c (if ok then 0 else 7) (fun e =>
      let e := e.schStore c
      let e := ((e.setFld F.SCH_LROW_BASE n s.base).setFld F.SCH_LROW_RB n s.rb).setFld F.SCH_LWPR_WPR n s.wpr
      (e.rowApply n).2.modCmd c.idx (fun x => { x with stage := .flushing }))

/-- SUNDIAL_SET (R438, R61): STEP or LOAD of the value and fraction, in a cycle in which no other apply was made (R63). -/
def Eng.cmdSundial (e : Eng) (kind : Nat) : Eng :=
  match e.keeperCmd (· == 0x14) with
  | none => e
  | some c =>
    if c.arg 15 1 ≠ kind then e
    else
      let v := c.arg 4 8
      let fit := if kind = 1 then decide (v < 2 ^ 59) || decide (2 ^ 64 - 2 ^ 59 ≤ v) else decide (v < 2 ^ 60)
      let e0 := e
      e.keeperAct c (if fit then 0 else 7) (fun e => if e.clk.applied ≠ 0 then e0 else
        let adj := v % 2 ^ 60 * 2 ^ 20 + c.arg 12 3
        let e := foldS (fun i e => e.setReg .SUN_ADJ i (word (adj / 2 ^ (20 * i)))) [0, 1, 2, 3] e
        let e := e.sunOp false kind
        e.keeperDone c 0 (leBytes 10 (e.clk.nextSun.toNat / 2 ^ 20)))

/-- SELFTEST (R493). -/
def Eng.cmdSelftest (e : Eng) : Eng :=
  match e.keeperCmd (· == 6) with
  | none => e
  | some c =>
    if e.flag F.KEY_CSTAT_ABREQ 0 then e.keeperDone c 11 []
    else if e.engState ≠ 5 ∨ e.linkMask ≠ 0 then e.keeperDone c 6 []
    else
      let e := (e.setFld F.KEY_CSTAT_TAKEN 0 1).setReg .RST_BISTCTL 0 (word (c.arg 4 1))
      (e.modCmd c.idx (fun x => { x with stage := .testing })).bistStart (c.arg 4 1)

/-- KEY_CRD0 to 7 as result data. -/
def Eng.crdBytes (e : Eng) : List Byte :=
  (List.range 8).flatMap (fun i => [BitVec.ofNat 8 (e.val .KEY_CRD i / 256), BitVec.ofNat 8 (e.val .KEY_CRD i)])

/-- A firmware command: the image's firmware defines it; it completes with KEY_CRES and KEY_CRD. -/
def Eng.cmdFirmware (e : Eng) (crit : Bool) : Eng :=
  match e.keeperCmd (fun op => if crit then decide (0xC0 ≤ op) else decide (0x80 ≤ op) && decide (op < 0xC0)) with
  | none => e
  | some c => e.keeperAct c 0 (fun e => e.keeperDone c (e.fld F.KEY_CRES_RESULT 0) e.crdBytes)

/-- KEY_CTAKE: this cycle is the commit point (R442). -/
def Eng.commandTake (e : Eng) : Eng := { e with keys := { e.keys with taken := true } }

/-- KEY_CDONE: the unit writes the completion. -/
def Eng.commandDone (e : Eng) : Eng :=
  match e.keys.cmds.find? (fun c => decide (c.stage = .posted) && c.res.isNone) with
  | some c => e.keeperDone c (e.fld F.KEY_CRES_RESULT 0) e.crdBytes
  | none => e.clearMailbox

/-- Commands that wait for flushes or for a row set complete (R438, R492). -/
def Eng.cmdPoll (e : Eng) : Eng :=
  match e.running? with
  | none => e
  | some c =>
    if c.stage ≠ .flushing then e
    else if c.op = 0x19 then
      (if (List.range 24).any e.flushing then e else e.cmdFinish c.idx 0 [])
    else
      let y := e.layer (c.arg 4 1)
      if y.check.isSome ∨ y.pend.isSome then e
      else e.keeperDone c (if y.force = some c.rowSet then 0 else 7) []

/-! ### Image loads (R460, R488) -/

def Eng.modImg (e : Eng) (f : Image → Image) : Eng := { e with keys := { e.keys with img := e.keys.img.map f } }

/-- The next read of an image: at most 128 bytes. -/
def Eng.imageRead (e : Eng) : Eng :=
  match e.keys.img with
  | none => e
  | some g =>
    let total := if g.phase = 0 then 32 else g.total
    let n := min (total - g.got) (128 - (g.addr + g.got) % 128)
    e.issueTxn ⟨0x10, false, g.addr + g.got, n, [], .image g.got⟩

/-- The load ends: its cells are released, and a failure leads to SETUP. RESULT and result data go to the command or, of the boot
path, to JX_BOOT_STAT. -/
def Eng.imageEnd (e : Eng) (g : Image) (r : Nat) (d : List Byte) : Eng :=
  let e := e.loadDrop
  let e := if r = 0 then e else e.changeState 1
  if g.boot then
    ((e.post F.JX_BOOT_STAT_VALID 0).setFld F.JX_BOOT_STAT_RESULT 0 r).setFld F.JX_BOOT_STAT_REASON 0
      (if r = 9 ∨ r = 10 then byteAt d 0 else 0)
  else
    match e.keys.cmds.find? (fun c => c.op == 0x10 && decide (c.stage = .posted) && c.res.isNone) with
    | some c => e.keeperDone c r d
    | none => e

/-- The RESULT of step 1 for TOTAL: 7, 8 or 0. -/
def Eng.totalCheck (e : Eng) (total : Nat) : Nat :=
  if total < 40 ∨ total % 4 ≠ 0 then 7 else if 128 * e.freeCells < total then 8 else 0

/-- Step 2: cells for thread 1, one a cycle (R162). -/
def Eng.imageCells (e : Eng) (g : Image) : Eng :=
  { e with keys := { e.keys with img := some { g with cells := [], got := 0, phase := 1 } } }.allocStart .image (cellsOf g.total) false

/-- The cells are there, and the first read is made, or they are refused: RESOURCE. -/
def Eng.imageCellsDone (e : Eng) (a : Alloc) (ok : Bool) : Eng :=
  let e := e.allocDrop AllocFor.isImage
  match e.keys.img with
  | none => e.releaseChain a.cells
  | some g => if ok then (e.modImg (fun g => { g with cells := a.cells })).imageRead else e.imageEnd g 8 []

/-- LOAD_IMAGE: steps 1 and 2. -/
def Eng.loadImageStart (e : Eng) : Eng :=
  match e.keeperCmd (· == 0x10) with
  | none => e
  | some c =>
    if e.keys.img.isSome then e
    else if e.flag F.KEY_CSTAT_ABREQ 0 then e.keeperDone c 11 []
    else if e.engState ≠ 1 then e.keeperDone c 6 []
    else
      let r := e.totalCheck (c.arg 9 3)
      if r ≠ 0 then e.keeperDone c r []
      else (e.changeState 2).imageCells { boot := false, addr := c.arg 4 5, total := c.arg 9 3 }

/-- The boot path starts: the header is read first (R488, R489). -/
def Eng.bootStart (e : Eng) : Eng :=
  let a := e.val .JX_BOOT_ADDR0 0 * 128 + e.fld F.JX_BOOT_ADDR1_BASE_HI 0 * 2 ^ 27
  { e.changeState 2 with keys := { e.keys with img := some { boot := true, addr := a } } }.imageRead

/-- The first `n` bytes of an image in its cells. -/
def Mem.imageBytes (m : Mem) (g : Image) (n : Nat) : List Byte :=
  (List.range n).map (fun i => m.cellByte (g.cells.getD (i / 128) 0) (i % 128))

/-- Steps 3 to 6: the checks, the commit point, every memory and setting, the history record. -/
def Block.imageCommit (b : Block) (g : Image) : Block :=
  let e := b.eng
  let img := b.mem.imageBytes g g.total
  let tag := (img.drop (g.total - 8)).map (·.toNat)
  let want := (Aes.cmac (b.mem.slotKey 2 (e.keyGen 2)) ((img.take (g.total - 8)).map (·.toNat))).take 8
  let tagOk := e.flag F.KEY_STAT_PROV 0 && tag == want
  let fail (r : Nat) (d : List Byte) : Block := { b with eng := e.imageEnd g r d }
  match worstDefect (imageDefects img g.total tagOk) with
  | some (r, s) => fail 9 (leBytes 1 r ++ leBytes 2 s)
  | none =>
    let l := (parseSects (leAt img 20 2) ((img.take (g.total - 8)).drop 32)).getD []
    match contractFail l with
    | some (r, t) => fail 10 (leBytes 1 r ++ leBytes 1 t)
    | none =>
      if !g.boot ∧ e.flag F.KEY_CSTAT_ABREQ 0 then fail 11 []
      else
        let e := if g.boot then e else e.setFld F.KEY_CSTAT_TAKEN 0 1
        let e := { e with ecc := e.ecc.filter (fun x => decide (8 * 2 ^ 20 ≤ x.1)) }
        let e := (e.loadImage l).modImg (fun g => { g with phase := 3 })
        let c := (sectData l 11 0xFF).getD []
        let ws := [leAt img 8 4, leAt img 12 4, leAt img (g.total - 8) 4, leAt img (g.total - 4) 4,
          Config.behrev + byteAt c 0 * 256, b.mem.hours % 2 ^ 32]
        ⟨b.mem.loadImage l, e.ledPush .history (b.mem.historyWords ws)⟩

/-- Bytes of an image were read (R460 step 2). -/
def Block.imageData (b : Block) (ok : Bool) (data : List Byte) : Block :=
  let e := b.eng
  match e.keys.img with
  | none => b
  | some g =>
    if !ok then { b with eng := e.imageEnd g 14 [] }
    else if g.phase = 0 then
      let g := { g with got := g.got + data.length, head := g.head ++ data }
      if g.got < 32 then { b with eng := { e with keys := { e.keys with img := some g } }.imageRead }
      else
        let total := leAt g.head 16 4
        let r := e.totalCheck total
        if r ≠ 0 then { b with eng := e.imageEnd g r [] } else { b with eng := e.imageCells { g with total := total } }
    else if g.phase = 1 then
      let m := (data.foldl (fun (a : Mem × Nat) v => (a.1.setBasin (g.cells.getD (a.2 / 128) 0 * 128 + a.2 % 128) v, a.2 + 1))
        (b.mem, g.got)).1
      let e := foldS (fun i e => e.eccClear (8 * 2 ^ 20 + (g.cells.getD ((g.got + i) / 128) 0 * 128 + (g.got + i) % 128) / 2))
        (List.range data.length) e
      let g := { g with got := g.got + data.length }
      let e := { e with keys := { e.keys with img := some g } }
      if g.got < g.total then ⟨m, e.imageRead⟩ else Block.imageCommit ⟨m, e⟩ g
    else b

/-- Step 7: cells released, DONE, RUN. -/
def Block.imageFinish (b : Block) : Block :=
  match b.eng.keys.img with
  | none => b
  | some g =>
    let img := b.mem.imageBytes g g.total
    let l := (parseSects (leAt img 20 2) ((img.take (g.total - 8)).drop 32)).getD []
    { b with eng := (b.eng.imageEnd g 0 ((img.drop 8).take 8)).enterRun l }

/-- BOOT_DECISION: the boot ROM's first issue (R488), from the round boundary of R486 on, while no halt holds it (R517). -/
def Eng.bootDecision (e : Eng) : Eng :=
  if e.engState ≠ 0 ∨ e.sys.bootAt = 0 ∨ (e.getThr 1).st ≠ .run then e
  else
    let c := e.fld F.RST_CAUSE_LAST 0
    if c = 6 then e.changeState 5
    else if 3 ≤ c ∧ c ≤ 5 ∧ e.flag F.JX_BOOT_CTL_AUTO 0 ∧ !e.sys.noboot then e.bootStart
    else e.changeState 1

/-- The boot ROM decides no later than 2,048 cycles after its first issue (R486); a halt of thread 1 puts that off. -/
def Eng.bootLimit (e : Eng) : Eng :=
  if e.sys.bootAt ≠ 0 ∧ max e.sys.bootAt (e.getThr 1).relCyc + 2047 ≤ e.now then e.bootDecision else e

/-- Start-up by itself at the end of a cycle: memory initialisation ends after its 80,000 cycles, the boot ROM decides (R486). -/
def Eng.startEnd (e : Eng) : Eng := e.memoryInitEnd.bootLimit

/-! ### A Ledger word write ends (R454) -/

/-- Drops the waiting writes of a record or command that failed. -/
def Eng.ledDrop (e : Eng) (why : LedWhy) : Eng :=
  { e with keys := { e.keys with ledq := e.keys.ledq.filter (fun w => decide (w.why ≠ why)) } }

/-- What follows a word write: `ok` its verify succeeded. -/
def Block.ledgerFollow (b : Block) (w : LedWrite) (ok : Bool) : Block :=
  let e := b.eng
  let more := e.keys.ledq.any (fun x => decide (x.why = w.why))
  if ok ∧ more then b
  else
    let e := if ok then e else e.ledDrop w.why
    match w.why with
    | .reserve =>
      let cmd := e.keys.cmds.find? (fun c => decide (c.stage = .reserve) && c.res.isNone)
      if ok then
        let e := { e with keys := { e.keys with ceil := (b.mem.counterRec).elim e.keys.ceil (fun r => r.2.1) } }
        { b with eng := match cmd with
            | some c => e.cmdReady c
            | none => e }
      else { b with eng := match cmd with
            | some c => e.cmdFinish c.idx 16 []
            | none => e }
    | .command =>
      let e := e.classify b.mem
      { b with eng := match e.keys.cmds.find? (fun c => decide (c.stage = .writing) && c.res.isNone) with
          | some c => e.cmdFinish c.idx (if ok then 0 else 16) []
          | none => e }
    | .hours => { b with eng := e }
    | .history => ({ b with eng := if ok then e else e.post F.LDG_STAT_WERR 0 } : Block).imageFinish
    | .keeper => { b with eng := if ok then e else e.post F.LDG_STAT_WERR 0 }

/-- LEDGER_WORD_WRITE_DONE: 512 cycles after its start; whether the verify succeeds is a free value, and a word whose verify fails
holds a free value. -/
def Block.ledgerDone (b : Block) : Block :=
  let e := b.eng
  match e.keys.ledq with
  | [] => b
  | w :: rest =>
    if e.keys.ledAt = 0 ∨ e.now + 1 < e.keys.ledAt + 512 then b
    else
      let (f, e) := e.freeVal 1
      let ok := decide (f = 0)
      let (v, e) := if ok then (w.v, e) else e.freeVal 32
      let e := { e with keys := { e.keys with ledq := rest, ledAt := 0 } }
      let e := e.setReg .LDG_WCNT 0 (e.reg .LDG_WCNT 0 + 1)
      let b := Block.ledgerFollow ⟨b.mem.setLedger w.idx v, e⟩ w ok
      { b with eng := b.eng.ledStart }

end Sys2Proof.Machine
end

