-- ==== Sys2Proof/Machine/Power.lean ====
section
/-! DEFINITION. Power (18_power.md R466 to R477): gated barrels, the armed set, the choice of a state, entries and exits, link wakes. -/

namespace Sys2Proof.Machine

/-- Twice the number of CCLK cycles in one REFCLK period, by JX_REFSEL (R74, R525). -/
def refRatio2 (sel : Nat) : Nat :=
  match sel with
  | 0 => 50
  | 1 => 40
  | 2 => 25
  | _ => 20

/-! ### GATE (R468, R469) -/

/-- Does the wait of a thread end by an event that has been made (R469)? -/
def Eng.waitDue (e : Eng) (x : Thr) : Bool :=
  (bit x.flags.toNat 4 && decide (0 < x.irq)) ||
    (match x.wait with
      | .wtk => (match e.tick.dec with
          | some d => d.run
          | none => false)
      | .wev m _ => (List.range 8).any (fun i => bit m i && decide (0 < Tab.get 0 x.ev i))
      | .lock _ _ g => g.isSome
      | .crecv _ d => !(e.getCnd d).closed.isEmpty
      | .csend _ d _ => decide ((e.getCnd d).closed.length + b2n (e.getCnd d).opened.isSome < 2)
      | .atTime => reached (e.ns + 16) x.atTarget
      | .none => false)

/-- The tolerance in ns (R473). -/
def Eng.tolerance (e : Eng) : Nat := e.val .PWR_TOL0 0 + e.val .PWR_TOL1 0 * 2 ^ 20

/-- Has an event been made that lets a thread of the pavilion issue (R469)? -/
def Eng.ungateDue (e : Eng) (p : Nat) : Bool :=
  (pavThreads p).any (fun t =>
    let x := e.getThr t
    match x.st with
    | .run => true
    | .halted => true
    | .wait => e.waitDue x
    | _ => false)

/-- BARREL_GATE (R468). -/
def Eng.barrelGate (e : Eng) (p : Nat) : Eng :=
  let still := (pavThreads p).all (fun t =>
    let x := e.getThr t
    !x.inPipe e.now && (match x.st with
      | .wait => !x.granted
      | .held => true
      | .faulted => true
      | _ => false))
  if still ∧ 1 ≤ e.fld F.PWR_CTL_MAXST 0 ∧ 20 ≤ e.tolerance ∧ e.power = 0 then e.setBrl p { e.getBrl p with gated := true } else e

/-- BARREL_UNGATE: an event lets a thread of the pavilion issue. -/
def Eng.barrelUngate (e : Eng) (p : Nat) : Eng :=
  if e.ungateDue p then e.setBrl p { e.getBrl p with gated := false } else e

/-- The gates of the barrels as a cycle ends: they follow the threads by themselves (R468). -/
def Eng.gatesEnd (e : Eng) : Eng :=
  foldS (fun p e => if (e.getBrl p).gated then e.barrelUngate p else if e.ungateDue p then e else e.barrelGate p) [0, 1, 2] e

/-! ### The armed set (R470) -/

/-- Is link n of the LWAKE class? -/
def Eng.lwake (e : Eng) (n : Nat) : Bool := if n < 20 then bit (e.val .PWR_LWAKE0 0) n else bit (e.val .PWR_LWAKE1 0) (n - 20)

/-- How far ahead the earliest alarm lies, in 2^-20 ns; not positive for one that has come. -/
def Eng.alarmAhead (e : Eng) : Option Int :=
  let acts := e.reeds.flatMap (fun r => r.2.acts.map (fun a => (a.time : Int) - e.t80))
  let ats := (e.thr.filter (fun x => decide (x.2.wait = .atTime))).map (fun x =>
    if reached e.ns x.2.atTarget then (0 : Int)
    else ((x.2.atTarget + 2 ^ 41 - e.ns) % 2 ^ 40 : Nat) * 2 ^ 20 - (e.t80 % 2 ^ 20 : Nat))
  (acts ++ ats).foldl (fun m v => match m with
    | none => some v
    | some w => some (min w v)) none

/-- The armed set: bits TICK, LINK, LWAKE, REED, TIMER, ALARM, BUSY from 0. -/
def Eng.armed (e : Eng) : Nat :=
  let tick := e.flag F.TIK_CTL_RUN 0 && e.thr.any (fun x => decide (x.2.st = .wait) && decide (x.2.wait = .wtk))
  let en (n : Nat) : Bool := e.flag F.LNK_CTL_EN n
  let ls := List.range 24
  let link := ls.any (fun n => en n && (!e.lwake n || e.schEn n))
  let lw := ls.any (fun n => en n && e.lwake n && !e.schEn n)
  let reed := e.reeds.any (fun r => r.2.st != 0 && (match e.reedLink r.1 with
    | some n => !e.lwake n
    | none => true))
  let timer := e.tmr.any (fun t => t.2.run)
  let busy := e.thr.any (fun x => decide (x.2.st = .run) || decide (x.2.st = .halted) || x.2.mem.isSome) ||
    e.flag F.HRG_STAT_PASS 0 || !e.initq.isEmpty || e.rings.any (fun r => !r.2.dma.isEmpty || r.2.rx.isSome || !r.2.outq.isEmpty) ||
    !e.keys.cmds.isEmpty || !e.keys.ledq.isEmpty || e.sw.warden.pass.isSome ||
    (List.range 8).any (fun k => !(e.queue 24 k).isEmpty) || e.fld F.HIDE_AUTH_LEVEL 0 != 0
  b2n tick + 2 * b2n link + 4 * b2n lw + 8 * b2n reed + 16 * b2n timer + 32 * b2n e.alarmAhead.isSome + 64 * b2n busy

/-! ### The choice of a state (R471, R472) -/

/-- Exit latency and margin of a state in ns (R466, R474). -/
def exitNs (lv : Nat) : Nat := if lv = 2 then 1000 else if lv = 3 then 40000 else 3000000
def exitMargin (lv : Nat) : Nat := if lv = 2 then 128 else 2048

/-- The exit latency in cycles, of DORMANT in REFCLK edges (R466). -/
def exitCycles (lv : Nat) : Nat :=
  if lv = 2 then 500 else if lv = 3 then 20000
  else match Config.refSel.toNat with
    | 0 => 60000
    | 1 => 75000
    | 2 => 120000
    | _ => 150000

/-- The cycle in which an entry that starts now ends (R472). -/
def Eng.entryEnd (e : Eng) (lv : Nat) : Nat :=
  if lv = 2 then e.now + 16
  else if lv = 3 then e.now + 2000
  else
    let r := refRatio2 Config.refSel.toNat
    let k := (2 * (e.now + 2000 - e.clk.roundBase) + r - 1) / r
    e.clk.roundBase + (k * r + 1) / 2

/-- The decision cycle at which DOZE ends for a tick (R474). -/
def Eng.tickLead (e : Eng) : Nat :=
  e.tick.base + 32 * (e.tick.set.p - (if e.tick.set.s = 0 then 16 else e.tick.set.s + 16)) - 8

/-- Has Sundial reached the alarm lead of a state after `n` more cycles (R474)? -/
def Eng.alarmLead (e : Eng) (lv n : Nat) : Bool :=
  match e.alarmAhead with
  | none => false
  | some a => decide (a - (n * incOf e.clk.rate / 2 ^ 20 : Nat) ≤ ((exitNs lv + exitMargin lv) * 2 ^ 20 : Nat))

/-- May the controller choose a state now? -/
def Eng.mayEnter (e : Eng) (lv : Nat) : Bool :=
  let a := e.armed
  let fin := e.entryEnd lv
  decide (lv ≤ e.fld F.PWR_CTL_MAXST 0) && decide (exitNs lv ≤ e.tolerance) && !bit a 6 && !e.thr.any (fun x => x.2.inPipe e.now) &&
    (lv == 2 || (!bit a 0 && !bit a 1 && !bit a 3 && !bit a 4)) && (lv != 4 || !bit a 2) &&
    !e.alarmLead lv (fin - e.now) && (lv != 2 || !e.pwr.barred) &&
    (!(bit a 0 && e.running) || decide (fin ≤ e.tickLead))

/-- POWER_STATE_ENTRY: the deepest state that may be entered. -/
def Eng.powerEntry (e : Eng) : Eng :=
  if e.engState ≠ 3 ∨ e.pwr.lvl ≠ 0 ∨ e.pwr.entry.isSome ∨ e.pwr.exit.isSome then e
  else
    match [4, 3, 2].find? e.mayEnter with
    | none => e
    | some lv => { e with pwr := { e.pwr with entry := some (lv, e.entryEnd lv), wake := 0 } }

/-- POWER_ENTRY_END: the state takes effect. -/
def Eng.powerEntryEnd (e : Eng) : Eng :=
  match e.pwr.entry with
  | none => e
  | some (lv, c) =>
    if e.now < c then e
    else
      let e := { e with pwr := { e.pwr with lvl := lv, entry := none, since := e.now } }
      if lv = 4 then e.setFld F.SUN_STAT_REFMODE 0 1 else e

/-! ### Exits (R474) -/

/-- The causes of an exit in this cycle, coded as PWR_WSRC. -/
def Eng.wakeCauses (e : Eng) : Nat :=
  let lv := e.pwr.lvl
  let tick := decide (lv = 2) && bit e.armed 0 && e.running && !e.pwr.barred && decide (e.tickLead ≤ e.now)
  e.pwr.wake ||| b2n (e.alarmLead lv 0) ||| (2 * b2n tick) ||| (32 * b2n (e.thr.any (fun x => decide (x.2.st = .run))))

/-- POWER_EXIT_START: after the cycle in which the state took effect (R476). -/
def Eng.powerExitStart (e : Eng) : Eng :=
  let c := e.wakeCauses
  if e.pwr.lvl = 0 ∨ e.pwr.exit.isSome ∨ c = 0 ∨ e.now ≤ e.pwr.since then e
  else
    let n := exitCycles e.pwr.lvl
    let relock := if e.pwr.lvl = 4 then some (e.now + 1 + Config.relockAfter % n) else none
    let p := { e.pwr with exit := some (e.now + n), relock := relock, wake := 0, barred := e.pwr.barred || bit c 1 }
    { e with pwr := p }.postBits .PWR_WSRC 0 c

/-- The first REFCLK edge after the PLL has relocked in an exit from DORMANT: Sundial counts CCLK cycles again, and so does the rest of the
exit (R75, R466). -/
def Eng.relockDue (e : Eng) : Eng :=
  match e.pwr.exit with
  | some c =>
    if e.pwr.relock = some e.now then
      { e with pwr := { e.pwr with relock := none, exit := some (e.now + (c - e.now) * refRatio2 Config.refSel.toNat / 2) } }.setFld
        F.SUN_STAT_REFMODE 0 0
    else e
  | none => e

/-- POWER_EXIT_END: the engine runs again. -/
def Eng.powerExitEnd (e : Eng) : Eng :=
  match e.pwr.exit with
  | none => e
  | some c =>
    if e.now < c then e
    else
      let e := if e.pwr.owed then e.releaseWtk else e
      { e with pwr := { e.pwr with lvl := 0, exit := none, relock := none, wake := 0, owed := false } }.setFld F.SUN_STAT_REFMODE 0 0

/-- Entries and exits whose cycle has come, at the latest as it ends (R472, R474). -/
def Eng.powerEnd (e : Eng) : Eng := e.powerExitStart.powerEntryEnd.powerExitEnd

/-- The signal that an LWAKE link watches (R477). -/
def Eng.watchPin (e : Eng) (n : Nat) : Nat :=
  match e.linkMode n with
  | 1 => 8
  | 2 => 4
  | _ => match (List.range 48).find? (fun k => e.rxLink k == some n) with
    | some k => e.fld F.REED_CFG_IBASE k
    | none => 0

/-- LINK_WAKE: new levels on the pins of link n (R477). -/
def Eng.linkWake (e : Eng) (n pins : Nat) : Eng :=
  let edge := bit (e.getLink n).pins (e.watchPin n) != bit pins (e.watchPin n)
  let nap := e.pwr.lvl = 3 || e.pwr.entry.any (fun x => x.1 == 3)
  let watch := nap && e.flag F.LNK_CTL_EN n && e.lwake n && !e.schEn n
  let e := e.setExt n 0 pins
  if watch && edge then (e.bumpReg .PWR_LWCNT 0 1).wakeBy 4 else e

end Sys2Proof.Machine
end

