-- ==== Sys2Proof/Machine/Legal.lean ====
section
/-! DEFINITION. Which register writes are legal, by block: the code of R403 for the first defect of state (3), range (2), clash (4)
(00_scope.md R7; the access rules of the chapters). 0 is a legal write. -/

namespace Sys2Proof

/-! ### Who writes -/

/-- The Keeper, or the Hide's access unit, which writes what the Keeper may (20_hide_debug.md R504). -/
def Acc.keeper : Acc → Bool
  | .thread t => t.val == 1
  | .hide => true
  | _ => false

/-- The master of pavilion p (or the Keeper). -/
def Acc.master (a : Acc) (p : Nat) : Bool :=
  a.keeper || (match a with
    | .thread t => t.val == Machine.masterOf p
    | _ => false)

/-- Is the accessor thread n? -/
def Acc.isThr (a : Acc) (n : Nat) : Bool :=
  match a with
  | .thread t => t.val == n && n != 0
  | _ => false

/-- Is it a thread? -/
def Acc.anyThr : Acc → Bool
  | .thread _ => true
  | _ => false

/-- The thread number of an accessor; 0 for another. -/
def Acc.tid : Acc → Nat
  | .thread t => t.val
  | _ => 0

end Sys2Proof

namespace Sys2Proof.Machine

/-- The host, in one of the engine states listed. -/
def Eng.hostIn (e : Eng) (a : Acc) (l : List Nat) : Bool := decide (a = .host) && l.contains e.engState

/-- The first code of a list that is not 0. -/
def firstCode : List Nat → Nat
  | [] => 0
  | c :: t => if c = 0 then firstCode t else c

/-- A code where a condition does not hold. -/
def need (ok : Bool) (code : Nat) : Nat := if ok then 0 else code

/-! ### Ticks and Sundial (02_time_levels.md R41, R44, R50; 03_sundial.md R60 to R62, R77) -/

def Eng.chkTik (e : Eng) (a : Acc) (r : Reg) (_i v : Nat) : Nat :=
  let pending := e.flag F.TIK_STAT_PENDING 0
  let staging := [Reg.TIK_PERIOD_LO, .TIK_PERIOD_HI, .TIK_SLACK, .TIK_FRAME, .TIK_MATRIX, .TIK_EPOCH].contains r
  firstCode [need (a.keeper || e.hostIn a [1, 2]) 3, need (!(pending && (staging || (r == .TIK_CTL && bit v 1)))) 3,
    need (r != .TIK_FRAME || v != 0) 2, need (r != .TIK_MATRIX || decide (v ≤ 6)) 2]

def Eng.chkSun (e : Eng) (a : Acc) (r : Reg) (_i v : Nat) : Nat :=
  match r with
  | .SUN_ECAP_CFG => need (a.anyThr || decide (a = .hide) || e.hostIn a [1]) 3
  | .SUN_OWN => need (a.keeper || e.hostIn a [1]) 3
  | _ => firstCode [need (a.keeper || a.isThr (e.fld F.SUN_OWN_TID 0) || e.hostIn a [1]) 3,
      need (r != .SUN_CTL || v != 3 || e.rateLegal) 2]

/-! ### Links (04_link_ports.md R79, R84, R99) -/

/-- Do the valid bits of RXR and TXR of a BIND value fit a MODE (R84)? -/
def bindFits (mode bind : Nat) : Bool :=
  let valid := bit bind 4 || bit bind 9
  match mode with
  | 3 => bit bind 4 && bit bind 9
  | 0 => true
  | _ => !valid

/-- Does another link of the pavilion name a reed of this BIND value (R84)? -/
def Eng.bindClash (e : Eng) (n v : Nat) : Bool :=
  ((List.range 8).map (8 * (n / 8) + ·)).any (fun m => m != n &&
    (boundReeds v).any (fun j => (boundReeds (e.val .LNK_BIND m)).contains j))

/-- The spare signals of a link's mode (R80, R82): those a reed may drive. -/
def spareMask (mode : Nat) : Nat := if mode = 1 then 0xC000 else if mode = 2 then 0xFF00 else 0xFFFF

/-- Do the OEMASKs of the reeds of a BIND value overlap nowhere and keep to the mode's spare signals (R103)? -/
def Eng.masksFit (e : Eng) (mode n bind : Nat) : Bool :=
  let ks := (boundReeds bind).map (fun j => 16 * (n / 8) + j)
  ks.all (fun k => e.oemask k &&& spareMask mode == e.oemask k && ks.all (fun j => j == k || e.oemask k &&& e.oemask j == 0))

def Eng.chkLnk (e : Eng) (a : Acc) (r : Reg) (n v : Nat) : Nat :=
  let top := a.master (n / 8) || e.hostIn a [1]
  let ownReg := [Reg.LNK_CTL, .LNK_TSCTL, .LNK_CSEL].contains r
  let who := top || (ownReg && a.isThr (e.fld F.LNK_OWN_TID n))
  let fixed := [Reg.LNK_CFG, .LNK_BIND, .LNK_MAXLEN, .LNK_MINLEN].contains r
  let idle := !e.flag F.LNK_CTL_EN n && !e.flushing n
  firstCode [need who 3, need (!fixed || idle) 3,
    need (r != .LNK_CTL || a.keeper || decide (a = .host) || b2n (bit v 0) == e.fld F.LNK_CTL_EN n) 3,
    need (r != .LNK_CTL || !bit v 0 || e.linkMode n != 0) 3,
    need (r != .LNK_CFG || bindFits (v % 4) (e.val .LNK_BIND n)) 2,
    need (r != .LNK_BIND || bindFits (e.linkMode n) v) 2,
    need (r != .LNK_OWN || v == 0 || pavOf v == n / 8) 2,
    need (r != .LNK_MAXLEN || (decide (1 ≤ v) && decide (v ≤ 9216) && decide (e.fld F.LNK_MINLEN_MINLEN n ≤ v))) 2,
    need (r != .LNK_MINLEN || (decide (1 ≤ v) && decide (v ≤ e.fld F.LNK_MAXLEN_MAXLEN n))) 2,
    need (r != .LNK_CSEL || decide (v ≤ 17)) 2,
    need (r != .LNK_BIND || !e.bindClash n v) 4,
    need (r != .LNK_BIND || e.masksFit (e.linkMode n) n v) 4,
    need (r != .LNK_CFG || e.masksFit (v % 4) n (e.val .LNK_BIND n)) 4]

/-! ### Reeds (05_reeds.md R103, R130, R132, R133) -/

/-- A width code with its base signal (REEDk_CFG). -/
def spanOk (base w : Nat) : Bool := w != 3 && decide (base + 2 ^ w ≤ 16)

def Eng.chkReed (e : Eng) (a : Acc) (r : Reg) (i v : Nat) : Nat :=
  let k := i / r.perUnit
  let x := e.reed k
  let ownReg := [Reg.REED_CTL, .REED_DIVI, .REED_DIVF, .REED_PHASE, .REED_WRAPS, .REED_PADDR, .REED_PDATA, .REED_TSET, .REED_MBX,
    .REED_EVT].contains r
  let fixed := [Reg.REED_CFG, .REED_CLK, .REED_PINS, .REED_OWN].contains r
  let others := match e.reedLink k with
    | some n => ((boundReeds (e.val .LNK_BIND n)).filter (· != k % 16)).map (16 * reedPav k + ·)
    | none => []
  let spare := match e.reedLink k with
    | some n => spareMask (e.linkMode n)
    | none => 0xFFFF
  firstCode [need (a.master (reedPav k) || e.hostIn a [1] || (ownReg && a.isThr (e.fld F.REED_OWN_TID k))) 3,
    need (!fixed || x.st == 0) 3,
    need (!([Reg.REED_PDATA, .REED_WRAPS].contains r) || !x.swap) 3,
    need (r != .REED_CFG || (spanOk (bits v 19 16) (bits v 15 14) && spanOk (bits v 13 10) (bits v 9 8))) 2,
    need (r != .REED_OWN || v == 0 || pavOf v == reedPav k) 2,
    need (r != .REED_DIVI || decide (4 ≤ v)) 2,
    need (r != .REED_PINS || (v &&& spare == v && others.all (fun j => v &&& e.oemask j == 0))) 4]

/-! ### Coder slots (06_line_coding.md R136 to R159) -/

/-- PARAM of ASYNC_TX and ASYNC_RX (R152). -/
def asyncOk (v : Nat) : Bool :=
  decide (v % 8 ≤ 4) && decide (asyncPar v ≤ 4) && decide (asyncLen v ≤ 11) && decide (v / 128 % 32 ≤ 19) &&
    decide (v / 128 % 32 + asyncLen v ≤ 20)

/-- Does a mode define every bit of a PARAM value that is 1, with values in range (R138, R139, R144, R150, R152, R159)? -/
def paramOk (mode v : Nat) : Bool :=
  if mode = 1 ∨ mode = 2 then decide (v < 128) && decide (v % 32 < 20)
  else if [0, 3, 4, 7, 8, 13, 14].contains mode then decide (v < 2)
  else if mode = 15 then decide (v < 128) && asyncOk v
  else if mode = 16 then asyncOk v
  else v == 0

/-- The reed that COD_SEL names. -/
def Eng.codReed (e : Eng) : Nat := e.fld F.COD_SEL_REED 0

def Eng.chkCod (e : Eng) (a : Acc) (r : Reg) (i v : Nat) : Nat :=
  let k := e.codReed
  let host := e.hostIn a [1]
  match r with
  | .COD_SEL => firstCode [need (host || a.keeper || a.master 0 || a.master 1 || a.master 2) 3, need (decide (bits v 9 4 ≤ 47)) 2]
  | _ =>
    let trk := e.flag F.COD_TRK_EN k
    firstCode [need (host || a.master (reedPav k) || a.isThr (e.fld F.REED_OWN_TID k)) 3, need ((e.reed k).st == 0) 3,
      need (r != .COD_MODE || decide (v ≤ 16)) 2,
      need (r != .COD_PARAM || paramOk (e.fld F.COD_MODE_MODE i) v) 2,
      need (r != .COD_TRK || !bit v 0 || decide (e.val .COD_TRKSJW k + 64 ≤ e.val .COD_TRKOFF k)) 2,
      need (r != .COD_TRKOFF || !trk || decide (e.val .COD_TRKSJW k + 64 ≤ v)) 2,
      need (r != .COD_TRKSJW || !trk || decide (v + 64 ≤ e.val .COD_TRKOFF k)) 2,
      need (r != .COD_DDIVI || decide (4 ≤ v)) 2]

/-! ### Basin, Sluice, Warden, forwarding (07_basin_switching.md R173, R175, R200 to R205) -/

/-- A PORT and CLASS selection. -/
def portOk (v : Nat) : Bool := decide (bits v 7 3 ≤ 24)

def Eng.chkBsn (e : Eng) (a : Acc) (r : Reg) (_i v : Nat) : Nat :=
  let top := a.keeper || a.isThr (e.fld F.BSN_OWN_TID 0) || e.hostIn a [1]
  match r with
  | .BSN_WPAGE | .BSN_CHAIN0 | .BSN_CHAIN1 | .BSN_RELEASE | .BSN_INJ1 | .BSN_INJ2 | .BSN_INJ3 | .BSN_INJ4 | .BSN_INJT
  | .BSN_INJGO => need a.anyThr 3
  | .BSN_ALLOC => firstCode [need a.anyThr 3, need (decide (1 ≤ v % 128) && decide (v % 128 ≤ 72)) 2]
  | .BSN_QSEL => firstCode [need top 3, need (portOk v) 2]
  | .BSN_CSEL => firstCode [need top 3, need (decide (v ≤ 13)) 2]
  | .SLU_SEL => firstCode [need top 3, need (portOk v) 2]
  | _ => need top 3

/-- The kind that FWD_PCFG gives, with its FOFF. -/
def pcfgOk (v : Nat) : Bool :=
  let kind := bits v 19 18
  let off := v % 256
  kind != 3 && (if kind = 2 then decide (1 ≤ off) && decide (off ≤ 200) else off == 0)

/-- Is every entry of the forwarding table invalid (R200)? -/
def Eng.fwdEmpty (e : Eng) : Bool := e.sw.fwd.all (fun x => !x.2.valid)

def Eng.chkFwd (e : Eng) (a : Acc) (r : Reg) (_i v : Nat) : Nat :=
  let top := a.keeper || a.isThr (e.fld F.BSN_OWN_TID 0) || e.hostIn a [1]
  match r with
  | .FWD_OVR0 | .FWD_OVR1 | .FWD_OVR2 => need (a.keeper || a.isThr (e.fld F.FWD_CLSTID_TID 0)) 3
  | .FWD_SALT => firstCode [need top 3, need e.fwdEmpty 3]
  | .FWD_PCFG => firstCode [need top 3, need (pcfgOk v) 2]
  | .FWD_ENT0 | .FWD_ENT1 | .FWD_ENT2 | .FWD_ENT3 | .FWD_ENT4 | .FWD_ENT5 | .FWD_ENT6 =>
    firstCode [need top 3, need (!e.fwdBusy) 3]
  | .FWD_OP =>
    let kind := bits (e.val .FWD_ENT4 0) 3 2
    firstCode [need top 3, need (!e.fwdBusy) 3, need (decide (1 ≤ v % 8) && decide (v % 8 ≤ 4)) 2,
      need (v % 8 != 1 || (kind != 0 && kind != 3)) 2]
  | _ => need top 3

/-! ### Scheduled windows (08_scheduled_windows.md R207 to R214, R225, R228 to R231) -/

/-- Is a store entry inside the row set in force, or a pending one, of a link that is enabled or has one pending (R210)? -/
def Eng.schInUse (e : Eng) (i : Nat) : Bool :=
  (List.range 24).any (fun n =>
    let y := e.layer n
    (e.schEn n || y.pend.isSome) &&
      ((match y.force with
        | some s => s.has i
        | none => false) ||
      (match y.pend with
        | some (s, _, _) => s.has i
        | none => false)))

def Eng.chkSch (e : Eng) (a : Acc) (r : Reg) (i v : Nat) : Nat :=
  let top := a.keeper || a.isThr (e.fld F.SCH_OWN_TID 0) || e.hostIn a [1]
  let b := e.fld F.SCH_BSEL_BUF 0
  let buf := top || a.isThr (e.fld F.SCH_BCFG_TID b)
  let off := need (!e.schEn i) 3
  let y := e.layer i
  let can := firstCode [need top 3, off, need (bit v 9 || v % 512 == 0) 2]
  match r with
  | .SCH_LGUARD | .SCH_LRXLAT | .SCH_LOFFMAX | .SCH_LOVH | .SCH_LSCHID | .SCH_LCANREF0 | .SCH_LCANNULL0 =>
    firstCode [need top 3, off]
  | .SCH_LCANREF1 => can
  | .SCH_LCANNULL1 => can
  | .SCH_LJIT => firstCode [need top 3, off, need (decide (v ≤ e.fld F.SCH_LGUARD_G i)) 2]
  | .SCH_LCFG =>
    let mpri := bits v 16 13
    firstCode [need top 3, off, need (bits v 12 9 != 0 && bits v 8 5 != 0 && bits v 4 2 != 0) 2,
      need (!bit v 19 || decide (mpri ≤ 7) || mpri == 15) 2]
  | .SCH_LROW => firstCode [need top 3, need (bits v 19 17 != 7) 2]
  | .SCH_LPREP => firstCode [need top 3, need (decide (4 ≤ v)) 2]
  | .SCH_LSEL => firstCode [need top 3, need (decide (v ≤ 23)) 2]
  | .SCH_LCSEL => firstCode [need top 3, need (decide (v ≤ 16)) 2]
  | .SCH_LCTL =>
    firstCode [need top 3, need (!bit v 2 || (y.check.isNone && y.pend.isNone)) 3, need (!bit v 0 || e.schEnOk i) 3]
  | .SCH_EOP => firstCode [need top 3, need (v != 1 || !e.schInUse (e.fld F.SCH_ESEL_INDEX 0)) 3, need (v == 1 || v == 2) 2]
  | .SCH_BCFG => firstCode [need top 3, need (!(e.schBuf b).ready && !e.bufReady b) 3, need (decide (bits v 17 13 ≤ 23)) 2]
  | .SCH_BHEAD => need buf 3
  | .SCH_BLEN => firstCode [need buf 3, need (decide (1 ≤ v) && decide (v ≤ 9216)) 2]
  | .SCH_BCTL => firstCode [need buf 3, need (!bit v 0 || !e.flag F.SCH_BCFG_SRC b) 3]
  | _ => need top 3

end Sys2Proof.Machine
end

