-- ==== Sys2Proof/Machine/LegalSys.lean ====
section
/-! DEFINITION. Legality of register writes, continued: barrels and threads, memory fabric, locks and conduits, Causeway,
timers, rings, keys and Ledger, power, reset, the Hide (the access rules of their chapters; 00_scope.md R7). -/

namespace Sys2Proof

/-- The number of a debug path: 1 TAP, 2 target port. -/
def Acc.path : Acc → Nat
  | .tap => 1
  | .host => 2
  | _ => 0

end Sys2Proof

namespace Sys2Proof.Machine

/-! ### Barrels and threads (09_barrels_threads.md R240, R249 to R251, R262 to R265) -/

def Eng.chkBrl (e : Eng) (a : Acc) (r : Reg) (p v : Nat) : Nat :=
  let busy := e.flag F.BRL_STAT_PENDING p || e.flag F.BRL_STAT_BUSY p
  firstCode [need (a.master p || e.hostIn a [1]) 3,
    need (!busy || !(r == .BRL_SENT || (r == .BRL_CTL && (bit v 0 || bit v 1)))) 3]

/-- A master of thread t (R245), with the Hide and the host in SETUP: `self` admits the Keeper's own thread. -/
def Eng.thrMaster (e : Eng) (a : Acc) (t : Nat) (self : Bool) : Bool :=
  e.hostIn a [1] || decide (a = .hide) ||
    (a.isThr 1 && (self || t != 1)) || (a.master (pavOf t) && t != 0 && !a.isThr t)

def Eng.chkThr (e : Eng) (a : Acc) (r : Reg) (_i v : Nat) : Nat :=
  let t := e.fld F.THR_SEL_TID a.key
  let own := a.anyThr || decide (a = .hide) || e.hostIn a [1]
  let still := (e.getThr t).st == .held || (e.getThr t).st == .faulted
  match r with
  | .THR_SEL => need own 3
  | .THR_CIDX => firstCode [need own 3, need (decide (v ≤ 19)) 2]
  | .THR_CTL =>
    firstCode [need (e.thrMaster a t (v == 0) || (t == 0 && own)) 3, need (!bit v 2 || a.keeper || decide (a = .host)) 3,
      need (t != 0) 2]
  | .THR_CDATA =>
    firstCode [need (e.thrMaster a t false || (t == 0 && own)) 3, need (t == 0 || still) 3, need (t != 0) 2,
      need (ctxLegal (e.fld F.THR_CIDX_IDX a.key) v) 2]
  | .THR_WEIGHT | .THR_EVCFG | .THR_IRQCFG | .THR_IVEC | .THR_EMVEC =>
    firstCode [need (e.thrMaster a t true || (t == 0 && own)) 3, need (t != 0) 2]
  | .THR_SWCTL => firstCode [need (a.keeper || e.hostIn a [1]) 3, need (bits v 8 1 != 0) 2]
  | _ => need (a.keeper || e.hostIn a [1]) 3

/-! ### The JX_ block (12_memory_fabric.md R338, R339; 16_host_rings.md R434; 19_reset_recovery.md R489, R496) -/

def Eng.chkJx (e : Eng) (a : Acc) (r : Reg) (_i v : Nat) : Nat :=
  let top := a.keeper || e.hostIn a [1]
  match r with
  | .JX_CFG => firstCode [need top 3, need (!bit v 0) 2]
  | .JX_HWBASE0 | .JX_HWBASE1 => firstCode [need top 3, need (e.hwStat == 0) 3]
  | .JX_BOOT_CTL => firstCode [need top 3, need (!bit v 0 || e.engState == 1) 3]
  | .JX_FABSTAT | .JX_ECCSRC | .JX_NWSRC => need (a.keeper || decide (a = .host)) 3
  | .JX_SETUP_ERR => need (decide (a = .host)) 3
  | _ => need top 3

/-! ### Locks and conduits (13_locks_conduits.md R358, R359) -/

def Eng.chkLck (e : Eng) (a : Acc) (r : Reg) (_i v : Nat) : Nat :=
  match r with
  | .LCK_SEL => 0
  | _ => firstCode [need (a.keeper) 3, need (!bit v 0 || e.fld F.LCK_SEL_TID a.key != 0) 2]

def Eng.chkCnd (e : Eng) (a : Acc) (r : Reg) (i v : Nat) : Nat :=
  let top := a.keeper || e.hostIn a [1]
  let x := e.getCnd i
  let same := bits v 17 6 == bits (e.val .CND_CFG i) 17 6
  let quiet := x.closed.isEmpty && x.opened.isNone && !e.cndWaiting i true && !e.cndWaiting i false
  match r with
  | .CND_SEL => 0
  | .CND_CFG =>
    firstCode [need top 3, need (!e.flag F.CND_CFG_EN i || (!bit v 19 && quiet && same)) 3,
      need (!bit v 19 || (bits v 17 12 != 0 && bits v 11 6 != 0)) 2]
  | _ => need top 3

/-! ### The Causeway (14_causeway.md R375, R377) -/

def Eng.chkCwy (e : Eng) (a : Acc) (r : Reg) (_i v : Nat) : Nat :=
  firstCode [need (a.anyThr || decide (a = .hide) || e.hostIn a [1]) 3, need (r != .CWY_PSEL || producerUsed v) 2,
    need (r != .CWY_FLOOD || v != 0) 2]

/-! ### Timers (15_timers.md R379, R381, R382, R395, R396) -/

/-- Is TMR_CFG = v legal for unit u: SRC listed, K by the source, CHAIN not on a lead timer and not three units in a row (R382)? -/
def Eng.tmrCfgOk (e : Eng) (u v : Nat) : Bool :=
  let src := bits v 19 17
  let k := bits v 16 12
  let chain (w : Nat) : Bool := w / 8 == u / 8 && (if w = u then src == 3 else e.tmrSrc w == 3)
  let row (w : Nat) : Bool := chain w && chain (w + 1) && chain (w + 2)
  decide (src ≤ 4) && (if src = 2 then decide (3 ≤ k) && decide (k ≤ 19) else k == 0) && (src != 3 || u % 8 != 0) &&
    !((decide (2 ≤ u) && row (u - 2)) || (decide (1 ≤ u) && row (u - 1)) || row u)

def Eng.chkTmr (e : Eng) (a : Acc) (r : Reg) (u v : Nat) : Nat :=
  match r with
  | .TMR_GSTART => need (a.keeper || e.hostIn a [1]) 3
  | _ =>
    let ownReg := [Reg.TMR_CTL, .TMR_CMP, .TMR_TOP, .TMR_CNT, .TMR_OFS, .TMR_EVT].contains r
    let fixed := [Reg.TMR_CFG, .TMR_PRE, .TMR_OWN].contains r
    firstCode [need (a.master (u / 8) || e.hostIn a [1] || (ownReg && a.isThr (e.fld F.TMR_OWN_TID u))) 3,
      need (!fixed || !(e.getTmr u).run) 3, need (r != .TMR_CFG || e.tmrCfgOk u v) 2,
      need (r != .TMR_OWN || v == 0 || pavOf v == u / 8) 2]

/-! ### Host rings (16_host_rings.md R431, R432) -/

def Eng.chkHrg (e : Eng) (a : Acc) (r : Reg) (i v : Nat) : Nat :=
  let keeper := a.keeper
  let host := decide (a = .host)
  let top := keeper || e.hostIn a [1]
  match r with
  | .HRG_RSEL => need (decide (v ≤ 19)) 2
  | .HRG_CSEL => need (decide (v ≤ 9)) 2
  | .HRG_KNOCK | .HRG_ISTAT | .HRG_IEN | .HRG_BERRSTAT => need (keeper || host) 3
  | .HRG_RCTL => need (top || (host && b2n (bit v 0) == e.fld F.HRG_RCTL_EN i)) 3
  | .HRG_KIRQ => need (a.isThr 1) 3
  | .HRG_RBASE0 =>
    firstCode [need top 3, need (e.ringState i == 0) 3, need (v % 2 ^ (e.fld F.HRG_RCFG_LOG2 i - 4) == 0) 2]
  | .HRG_RBASE1 => firstCode [need top 3, need (e.ringState i == 0) 3]
  | .HRG_RCFG => firstCode [need top 3, need (e.ringState i == 0) 3, need (decide (4 ≤ v) && decide (v ≤ 12)) 2]
  | .HRG_DBBASE0 | .HRG_DBBASE1 => firstCode [need top 3, need ((List.range 20).all (fun q => e.ringState q == 0)) 3]
  | _ => need top 3

/-! ### Keys and Ledger (17_commands_keys.md R463 to R465) -/

def Eng.chkKey (e : Eng) (a : Acc) (r : Reg) (_i v : Nat) : Nat :=
  let pend := e.flag F.KEY_CSTAT_PEND 0
  match r with
  | .LDG_ADDR => 0
  | .LDG_CTL =>
    let dst := e.fld F.LDG_ADDR_ADDR a.key
    let ok := (decide (0x68 ≤ dst) && decide (dst ≤ 0x7F)) || decide (0x300 ≤ dst)
    firstCode [need (a.isThr 1) 3, need (!bit v 0 || (!e.ledBusy && !e.ledQueued)) 3, need (!bit v 0 || ok) 2]
  | .KEY_CRES =>
    let ok := [0, 6, 7, 8, 9, 10, 14].contains v || (v == 11 && e.flag F.KEY_CSTAT_ABREQ 0)
    firstCode [need (a.isThr 1) 3, need ok 2]
  | .KEY_CDONE => firstCode [need (a.isThr 1) 3, need (!bit v 0 || pend) 3]
  | .KEY_CTAKE => firstCode [need (a.isThr 1) 3, need (!bit v 0 || (pend && !e.flag F.KEY_CSTAT_TAKEN 0)) 3]
  | _ => need (a.isThr 1) 3

/-! ### Power and reset (18_power.md R478; 19_reset_recovery.md R494, R496, R498) -/

def Eng.chkPwr (e : Eng) (a : Acc) (r : Reg) (_i v : Nat) : Nat :=
  match r with
  | .PWR_WAKE => need (decide (a = .host)) 3
  | .PWR_TOL0 | .PWR_TOL1 => need a.keeper 3
  | .PWR_WSRC => need (a.keeper || decide (a = .host)) 3
  | .PWR_CTL => firstCode [need (a.keeper || e.hostIn a [1]) 3, need (decide (v ≤ 4)) 2]
  | _ => need (a.keeper || e.hostIn a [1]) 3

/-- Is a SELFTEST at its commit point (R493, R498)? -/
def Eng.selftestTaken (e : Eng) : Bool :=
  e.flag F.KEY_CSTAT_PEND 0 && e.flag F.KEY_CSTAT_TAKEN 0 && e.fld F.KEY_CSTAT_OPCODE 0 == 6

def Eng.chkRst (e : Eng) (a : Acc) (r : Reg) (_i v : Nat) : Nat :=
  match r with
  | .RST_CAUSE => need (decide (a = .host)) 3
  | .RST_WDCTL =>
    firstCode [need (a.isThr 1) 3, need (!e.flag F.RST_WDCTL_EN 0) 3, need (bits v 19 4 != 0) 2]
  | .RST_WDKICK => need (a.isThr 1) 3
  | .RST_BISTCTL => firstCode [need a.keeper 3, need (!bit v 2 || (e.engState == 5 && e.selftestTaken)) 3]
  | _ => need a.keeper 3

/-! ### The Hide's block (20_hide_debug.md R499 to R524) -/

/-- The level of a path: that of HIDE_AUTH for its owner, else NONE (R499). -/
def Eng.pathLevel (e : Eng) (a : Acc) : Nat :=
  if a.path ≠ 0 ∧ e.fld F.HIDE_AUTH_PATH 0 = a.path then e.fld F.HIDE_AUTH_LEVEL 0 else 0

/-- The thread that HIDE_HSEL selects. -/
def Eng.hsel (e : Eng) : Nat := e.fld F.HIDE_HSEL_TID 0

/-- The level that a path's write needs (R500): 0, 1 OBSERVE, 2 FULL. -/
def hideNeeds (r : Reg) (v : Nat) : Nat :=
  match r with
  | .HIDE_CHALCTL => 0
  | .HIDE_RESP => 0
  | .HIDE_CTL | .HIDE_HCTL | .HIDE_HIDX | .HIDE_HDATA | .HIDE_INSN | .HIDE_FEED => 2
  | .HIDE_CCFG => if bits v 4 3 = 0 then 1 else 2
  | _ => 1

/-- The rules of a path's write beyond its level (R501, R509, R511, R514, R524). -/
def Eng.chkHidePath (e : Eng) (a : Acc) (r : Reg) (i v : Nat) : Nat :=
  let sel := e.hsel
  let halted := (e.getThr sel).st == .halted && sel != 0
  let feed := e.hide.feed.isSome
  match r with
  | .HIDE_CHALCTL =>
    let req := v % 4
    let refused := (e.fld F.HIDE_AUTH_PATH 0 != 0 && e.fld F.HIDE_AUTH_PATH 0 != a.path) || e.flag F.HIDE_AUTHSTAT_COOL 0 ||
      !e.flag F.KEY_STAT_PROV 0
    firstCode [need (!bit v 2 || e.fld F.HIDE_AUTH_PATH 0 == a.path) 3, need (req == 0 || !refused) 3, need (req != 3) 2]
  | .HIDE_RESP => need (decide (a = .tap)) 3
  | .HIDE_APAGE => need (bits v 5 4 != 3) 2
  | .HIDE_ACMD => firstCode [need (e.hide.acc.isNone) 3, need (v % 4 == 1 || v % 4 == 2) 2]
  | .HIDE_HCTL => need (!feed || !(bit v 1 || bit v 2)) 3
  | .HIDE_HSEL => need (decide (1 ≤ v)) 2
  | .HIDE_HIDX => need (decide (v ≤ 19)) 2
  | .HIDE_HDATA => firstCode [need (halted && !feed) 3, need (ctxLegal (e.fld F.HIDE_HIDX_IDX 0) v) 2]
  | .HIDE_FEED =>
    firstCode [need (!bit v 4 || (!feed && halted)) 3, need (decide (1 ≤ v % 16) && decide (v % 16 ≤ 10)) 2]
  | .HIDE_CSEL => need (bits v 5 4 != 3) 2
  | .HIDE_CCFG =>
    let kind := bits (e.val .HIDE_CSEL 0) 3 3
    let link := bits v 7 6
    firstCode [need (kind != 0 || (bits v 10 9 == 0 && !bit v 8)) 2, need (kind != 1 || !bit v 0 || bits v 10 9 != 0) 2,
      need (link != 3) 2, need (link == 0 || i % 2 == 0) 2]
  | .HIDE_SPCFG => need (bits v 3 2 != 3) 2
  | _ => 0

/-- A write of the HIDE_ block (R523). -/
def Eng.chkHide (e : Eng) (a : Acc) (r : Reg) (i v : Nat) : Nat :=
  match a with
  | .thread t => need (r == .HIDE_STIM || (r == .HIDE_TXD && pavOf t.val == i)) 3
  | .hide => 3
  | _ => if r == .HIDE_STIM ∨ r == .HIDE_TXD then 3
    else firstCode [need (decide (hideNeeds r v ≤ e.pathLevel a)) 3, e.chkHidePath a r i v]

/-- May a reader read a register of the HIDE_ block (R500, R523)? 0, or the code of an illegal read. -/
def Eng.hideReadable (e : Eng) (a : Acc) (r : Reg) (i : Nat) : Nat :=
  match a with
  | .thread t => need (r == .HIDE_AUTH || (r == .HIDE_RXD && pavOf t.val == i)) 3
  | .hide => 0
  | _ =>
    let low := r == .HIDE_AUTH || r == .HIDE_AUTHSTAT || r == .HIDE_CHAL
    let sel := e.hsel
    firstCode [need (low || decide (1 ≤ e.pathLevel a)) 3,
      need (r != .HIDE_HDATA || (decide (2 ≤ e.pathLevel a) && (e.getThr sel).st == .halted && sel != 0 && e.hide.feed.isNone)) 3]

end Sys2Proof.Machine
end

