-- ==== Sys2Proof/Machine/Views.lean ====
section
/-! DEFINITION. What a device register reads as: which copy an accessor reaches, and the fields that show the state of a unit
(the register tables of the chapters). No side effect is here. -/

namespace Sys2Proof.Machine

/-! ### The copy of a register that an accessor reaches -/

/-- The thread in the accessor's own THR_SEL (R249). -/
def Eng.thrSel (e : Eng) (a : Acc) : Nat := e.fld F.THR_SEL_TID a.key

/-- The lock slot (4·thread + slot) in the accessor's own LCK_SEL (R360). -/
def Eng.lckSel (e : Eng) (a : Acc) : Nat := e.val .LCK_SEL a.key

/-- The link of SCH_LSEL and the buffer of SCH_BSEL (R229, R230). -/
def Eng.schLink (e : Eng) : Nat := e.fld F.SCH_LSEL_LINK 0
def Eng.schSel (e : Eng) : Nat := e.fld F.SCH_BSEL_BUF 0

/-- The ring in the accessor's own HRG_RSEL (R431). -/
def Eng.ringSel (e : Eng) (a : Acc) : Nat := e.fld F.HRG_RSEL_RING a.key

/-- The coder slot that COD_SEL names: 8·reed + slot. -/
def Eng.codSlot (e : Eng) : Nat := 8 * e.codReed + e.fld F.COD_SEL_SLOT 0

/-- Registers in one copy per accessor (R11, R249, R359, R377, R431, R463, R200, R231). -/
def Reg.perAccessor : Reg → Bool
  | .THR_SEL | .THR_CIDX | .LCK_SEL | .LCK_FSTAT | .CND_SEL | .CND_ARES | .CWY_PSEL | .CWY_CHSEL | .HRG_RSEL | .HRG_CSEL
  | .LDG_ADDR | .LDG_RD0 | .LDG_RD1 | .BSN_WPAGE | .BSN_ALLOC | .BSN_AHEAD | .BSN_CHAIN0 | .BSN_CHAIN1 | .BSN_RELEASE
  | .BSN_INJ1 | .BSN_INJ2 | .BSN_INJ3 | .BSN_INJ4 | .BSN_INJGO | .SCH_BHEAD | .SCH_BLEN => true
  | _ => false

/-- Registers of the thread in THR_SEL (R265), of the link in SCH_LSEL (R230), of the reed in COD_SEL (R159), of the (port,
class) in SLU_SEL (R203), of the ring in HRG_RSEL (R432), of the lock slot in LCK_SEL (R360), of the comparator in
HIDE_CSEL (R524): 1 to 7; else 0. -/
def Reg.selector : Reg → Nat
  | .THR_CTL | .THR_STAT | .THR_WEIGHT | .THR_CDATA | .THR_EVCFG | .THR_EVCNTA | .THR_EVCNTB | .THR_IRQCFG | .THR_IRQCNT
  | .THR_IVEC | .THR_EMVEC | .THR_FCAUSE | .THR_FPC | .THR_FADDR => 1
  | .SCH_LCFG | .SCH_LROW | .SCH_LWPR | .SCH_LROWF | .SCH_LWPRF | .SCH_LGUARD | .SCH_LJIT | .SCH_LPREP | .SCH_LRXLAT
  | .SCH_LOFFMAX | .SCH_LOVH | .SCH_LSCHID | .SCH_LCANREF0 | .SCH_LCANNULL0 | .SCH_LCANREF1 | .SCH_LCANNULL1 | .SCH_LCTL
  | .SCH_LSTAT | .SCH_LD0 | .SCH_LD1 | .SCH_LOFS | .SCH_LCSEL | .SCH_LCNT => 2
  | .COD_CTL | .COD_CRCCFG | .COD_POLY0 | .COD_POLY1 | .COD_SEED0 | .COD_SEED1 | .COD_CHECK0 | .COD_CHECK1 | .COD_TRK
  | .COD_TRKOFF | .COD_TRKSJW | .COD_DDIVI | .COD_DDIVF | .COD_DPHASE | .COD_RSTAT => 3
  | .SLU_TBCFG | .SLU_TBRATE | .SLU_TBBURST | .SLU_TBLVL | .SLU_QUOTA | .SLU_DRATE | .SLU_DPOOL | .SLU_DQUOTA | .SLU_DENTRY => 4
  | .HRG_RBASE0 | .HRG_RBASE1 | .HRG_RCFG | .HRG_RCTL | .HRG_RSTAT | .HRG_RIDX | .HRG_RHOST => 5
  | .LCK_SADDR | .LCK_SSTAT | .LCK_WADDR | .LCK_WSTAT | .LCK_FCTL => 6
  | .HIDE_CLO | .HIDE_CHI | .HIDE_CTID | .HIDE_CCFG | .HIDE_CVAL | .HIDE_CVMASK | .HIDE_CSTAT => 7
  | _ => 0

/-- The copy that accessor `a` reaches at a register's address with index `i`. -/
def Eng.place (e : Eng) (a : Acc) (r : Reg) (i : Nat) : Nat :=
  if r.perAccessor then a.key
  else
    match r.selector with
    | 1 => if r = .THR_EVCFG then 8 * e.thrSel a + i else e.thrSel a
    | 2 => e.schLink
    | 3 => e.codReed
    | 4 => e.val .SLU_SEL 0
    | 5 => e.ringSel a
    | 6 => e.lckSel a
    | 7 => e.val .HIDE_CSEL 0
    | _ =>
      match r with
      | .TIK_BUDGET => e.fld F.TIK_BSEL_TID 0
      | .BSN_INJT => 4 * a.key + i
      | .SCH_BCFG | .SCH_BCTL | .SCH_BSTAT => e.schSel
      | .COD_MODE | .COD_PARAM | .COD_SSTAT => e.codSlot
      | .CND_CFG | .CND_STAT | .CND_CTL => e.fld F.CND_SEL_CD a.key
      | .CWY_PMAP => e.fld F.CWY_PSEL_PROD a.key
      | .CWY_CHCFG | .CWY_CHSTAT => e.fld F.CWY_CHSEL_CH a.key
      | .HIDE_SPCFG | .HIDE_SPTALLY => e.fld F.HIDE_SPSEL_PORT 0
      | .HIDE_HCAUSE => e.hsel
      | .HIDE_TXTID => i + 4 * a.path
      | .TMR_GSTART => 0
      | _ => i

/-! ### Multi-word groups (R11) -/

/-- The T80 that a group shows, and the word of it at this register: words 1 to 3 come from the reader's latch (R11, R57). -/
def Eng.t80Group (e : Eng) (r : Reg) (i : Nat) : Option (Nat × Nat) :=
  let head (l : List TsRec) : Nat := (l.head?).elim 0 (·.t80)
  match r with
  | .SUN_TIME => some (e.clkSeen.seen.toNat >>> 20, i)
  | .SUN_ECAP_T => some (Tab.get (e.ecapT80 (i / 4)) e.recent.ecap (i / 4), i % 4)
  | .TIK_LAUNCH => some (e.tick.launch.toNat, i)
  | .LNK_TSI => if i % 8 < 4 then some (head (e.getLink (i / 8)).tsi, i % 8) else none
  | .LNK_TSE => if i % 8 < 4 then some (head (e.getLink (i / 8)).tse, i % 8) else none
  | .REED_ATIME => some ((e.reed (i / 4)).atime, i % 4)
  | .REED_CAPT => some ((e.reed (i / 4)).capt, i % 4)
  | .REED_FLT => some ((e.reed (i / 4)).flt, i % 4)
  | _ => none

/-- The counter behind a counter window: bank, unit, index (R98, R202, R232, R433). -/
def Eng.window (e : Eng) (a : Acc) (r : Reg) (i : Nat) : Option (Nat × Nat × Nat) :=
  match r with
  | .LNK_CNT0 => some (0, i, e.fld F.LNK_CSEL_SEL i)
  | .BSN_CNT0 => some (1, 0, e.fld F.BSN_CSEL_SEL 0)
  | .HRG_CNT0 => some (2, 0, e.fld F.HRG_CSEL_SEL a.key)
  | .SCH_LCNT => some (3, e.schLink, e.fld F.SCH_LCSEL_SEL e.schLink)
  | _ => none

/-- The 40-bit value whose low word this register shows (R11). -/
def Eng.countPair (e : Eng) (a : Acc) (r : Reg) (i : Nat) : Option Nat :=
  match r with
  | .TIK_COUNT0 => some e.tick.count
  | .KEY_LAST0 => some e.keys.l
  | .KEY_CEIL0 => some e.keys.ceil
  | .SCH_LD0 => some (toMod 40 (e.layer e.schLink).d)
  | .LNK_CNT0 | .BSN_CNT0 | .HRG_CNT0 => (e.window a r i).map (fun w => e.ctrRead w.1 w.2.1 w.2.2)
  | _ => none

/-- A register that shows a latch of its reader (R11, R174, R199, R390). -/
def Eng.latchView (e : Eng) (a : Acc) (r : Reg) : Option Nat :=
  let l := e.getLatch a.key
  match r with
  | .TIK_COUNT1 | .LNK_CNT1 | .BSN_CNT1 | .HRG_CNT1 | .KEY_LAST1 | .KEY_CEIL1 | .SCH_LD1 => some l.count.toNat
  | .TMR_CNTH1 | .TMR_CAPH1 => some (l.timer.getD 0 0).toNat
  | .TMR_CNTH2 | .TMR_CAPH2 => some (l.timer.getD 1 0).toNat
  | .BSN_TRAP1 => some (l.trap.getD 0 0).toNat
  | .BSN_TRAP2 => some (l.trap.getD 1 0).toNat
  | .FWD_NOTE1 => some (l.notice.getD 0 0).toNat
  | .FWD_NOTE2 => some (l.notice.getD 1 0).toNat
  | .FWD_NOTE3 => some (l.notice.getD 2 0).toNat
  | .FWD_NOTE4 => some (l.notice.getD 3 0).toNat
  | _ => none

/-! ### Fields that show a unit's state -/

def Eng.viewLink (e : Eng) (r : Reg) (i : Nat) : Option Nat :=
  let rec4 (l : List TsRec) (w : Nat) : Nat := (l.head?).elim 0 (fun x => if w = 4 then x.w4.toNat else x.w5.toNat)
  match r with
  | .SUN_RATEF0 => some (e.clk.rate.toNat % 2 ^ 20)
  | .SUN_RATEF1 => some (e.clk.rate.toNat / 2 ^ 20)
  | .LNK_STAT => some (e.val .LNK_STAT i + b2n (e.flushing i) * 64)
  | .LNK_TSLVL => some ((e.getLink i).tse.length * 16 + (e.getLink i).tsi.length)
  | .LNK_TSI => some (rec4 (e.getLink (i / 8)).tsi (i % 8))
  | .LNK_TSE => some (rec4 (e.getLink (i / 8)).tse (i % 8))
  | _ => none

def Eng.viewReed (e : Eng) (r : Reg) (i : Nat) : Option Nat :=
  let k := i / r.perUnit
  let x := e.reed k
  match r with
  | .REED_STAT => some (e.val .REED_STAT k + x.waitCode * 65536 + x.st * 16384 + b2n x.swap * 1024 + b2n x.abank * 512 +
      b2n x.mbx.isSome * 16 + x.fifo.length)
  | .REED_PC => some x.pc
  | .REED_WRAPA => some x.wrap0.toNat
  | .REED_WRAPS => some x.wrap1.toNat
  | .REED_EVT => some (e.val .REED_EVT k + x.ev * 256)
  | .REED_PDATA =>
    some (Tab.get 0 (if e.flag F.REED_PADDR_BANK k then x.bank0 else x.bank1) (e.fld F.REED_PADDR_ADDR k)).toNat
  | .REED_RXW => some x.rxw.toNat
  | .REED_TXW => some x.txw.toNat
  | .REED_QA => some x.qa.toNat
  | .REED_QB => some x.qb.toNat
  | .REED_CDO => some x.cdo.toNat
  | .REED_FIFO => some (x.fifo.getD 0 0).toNat
  | .COD_SSTAT =>
    let c := Tab.get {} (e.reed (i / 8)).slots (i % 8)
    some (b2n (c.lock.isSome || c.t1Lock))
  | .COD_RSTAT => some (b2n x.dset * 2 + b2n x.hold)
  | _ => none

def Eng.viewSwitch (e : Eng) (a : Acc) (r : Reg) (i : Nat) : Option Nat :=
  let q := e.val .BSN_QSEL 0
  match r with
  | .BSN_FREE => some e.freeCells
  | .BSN_H7 => some e.h7
  | .BSN_AHEAD => some (e.val .BSN_AHEAD i % 2 ^ 18 + b2n (e.allocOf (AllocFor.isThread i)).isSome * 2 ^ 18 + e.fld F.BSN_AHEAD_VALID i * 2 ^ 19)
  | .BSN_TRAP0 => some ((e.sw.traps.head?).elim 0 (fun t => t.getD 0 0))
  | .BSN_TLVL => some e.sw.traps.length
  | .BSN_QFR => some (e.queue (q / 8) (q % 8)).length
  | .BSN_QCELLS => some (e.queueCells (q / 8) (q % 8))
  | .SLU_TBLVL => some (toMod 20 (e.bucket (i / 8) (i % 8) / 256))
  | .SLU_ENTFREE => some (32768 - e.entriesUsed)
  | .WRD_STAT =>
    some (e.val .WRD_STAT 0 + b2n (e.cells.any (fun c => c.2.suspect.isSome)) * 2 + b2n e.sw.warden.pass.isSome)
  | .FWD_OSTAT => some (e.val .FWD_OSTAT 0 + b2n e.fwdBusy * 2 ^ 19)
  | .FWD_NOTE0 => some ((e.sw.notices.head?).elim 0 (fun t => (t.getD 0 0).toNat))
  | .FWD_NLVL => some e.sw.notices.length
  | .SCH_LROWF => some (((e.layer i).force).elim 0 (fun s => s.rb * 2 ^ 17 + s.base))
  | .SCH_LWPRF => some (((e.layer i).force).elim 0 (fun s => s.wpr))
  | .SCH_LSTAT =>
    let y := e.layer i
    some (e.val .SCH_LSTAT i + y.ccoff * 2 ^ 14 + b2n y.check.isSome * 2048 + b2n y.pend.isSome * 1024 + min y.missRun 15 * 8 + y.st)
  | .SCH_LCNT => (e.window a r i).map (fun w => e.ctrRead w.1 w.2.1 w.2.2)
  | .SCH_BSTAT =>
    let q := e.bufHeld i
    some (b2n (e.bufReady i) * 2 ^ 19 + b2n q.isSome * 2 ^ 18 + q.getD 0 % 65536)
  | _ => none

/-- STALLED of a thread: its last instruction is in flight (R234, R265). -/
def Eng.stalled (e : Eng) (x : Thr) : Bool := x.mem.isSome || (decide (x.st = .run) && decide (e.now < x.ready) && decide (x.relCyc ≠ x.ready))

/-- THR_STAT (R265). -/
def Eng.thrStat (e : Eng) (t : Nat) : Nat :=
  let x := e.getThr t
  x.st.code * 2 ^ 17 + x.prev.code * 2 ^ 14 + x.wait.code * 2 ^ 11 + b2n (e.stalled x) * 1024 + b2n x.hostWin * 512 + e.effW t

/-- LCK_SSTAT of slot k (R360). -/
def Eng.lckStat (e : Eng) (k : Nat) : Nat :=
  match e.locks.find? (fun s => s.1 == k) with
  | none => 0
  | some (_, s) =>
    if s.freed then 2 * 2 ^ 18
    else 2 ^ 18 + (e.waitersOf s.addr).length * 4096 + (e.firstWaiter s.addr).getD 0 * 64 + e.waitMax s.addr

/-- CND_STAT of conduit c (R361). -/
def Eng.cndStat (e : Eng) (c : Nat) : Nat :=
  let x := e.getCnd c
  b2n x.opened.isSome * 2 ^ 19 + (x.opened.getD []).length * 2 ^ 15 + x.closed.length * 2 ^ 13 +
    ((x.closed.head?).elim 0 (fun m => m.1.length)) * 512 + x.taken * 32 + b2n (e.cndWaiting c true) * 16 + b2n (e.cndWaiting c false) * 8

/-- The event counts of inputs j to j + 3 (R265). -/
def Thr.evWord (x : Thr) (j : Nat) : Nat :=
  Tab.get 0 x.ev j + Tab.get 0 x.ev (j + 1) * 16 + Tab.get 0 x.ev (j + 2) * 256 + Tab.get 0 x.ev (j + 3) * 4096

def Eng.viewThread (e : Eng) (a : Acc) (r : Reg) (i : Nat) : Option Nat :=
  let t := e.thrSel a
  let x := e.getThr t
  let k := e.lckSel a
  match r with
  | .BRL_SENT => some (Tab.get 0 (e.getBrl i).staged (e.fld F.BRL_SSEL_ADDR i))
  | .BRL_AENT => some (Tab.get 0 (e.getBrl i).force (e.fld F.BRL_SSEL_ADDR i))
  | .THR_STAT => some (e.thrStat t)
  | .THR_CDATA => some (x.ctx (e.fld F.THR_CIDX_IDX a.key))
  | .THR_EVCNTA => some (x.evWord 0)
  | .THR_EVCNTB => some (x.evWord 4)
  | .THR_IRQCNT => some x.irq
  | .JX_ID => some e.jxId
  | .JX_HWSTAT => some e.hwStat
  | .LCK_SADDR => some ((e.locks.find? (fun s => s.1 == k)).elim 0 (fun s => s.2.addr))
  | .LCK_SSTAT => some (e.lckStat k)
  | .LCK_WADDR => some ((e.waiters.find? (fun w => w.1 == k / 4)).elim 0 (·.2))
  | .LCK_WSTAT => some (if e.waiters.any (fun w => w.1 == k / 4) then e.effW (k / 4) else 0)
  | .CND_STAT => some (e.cndStat i)
  | .CWY_CHSTAT => some (b2n (e.chanSrc i) * 2 ^ 19 + b2n (e.muted i) * 2 ^ 18 + min (Tab.get 0 e.cwy.count i) 0xFFFF)
  | .TMR_CNT => some (e.getTmr i).cnt.toNat
  | .TMR_CAP => some ((e.getTmr i).caps.getD 0 0).toNat
  | .TMR_STAT =>
    let y := e.getTmr i
    some (e.val .TMR_STAT i + b2n y.run * 128 + y.caps.length * 32 + b2n (!y.caps.isEmpty) * 16)
  | _ => none

def Eng.viewSystem (e : Eng) (a : Acc) (r : Reg) (i : Nat) : Option Nat :=
  match r with
  | .HRG_RSTAT => some (e.val .HRG_RSTAT i + b2n (e.ringDrains i) * 32)
  | .KEY_BEHMASK => some behMask
  | .LDG_RD0 => some (Tab.get 0 e.sys.ldgShown a.key % 2 ^ 20)
  | .LDG_RD1 => some (Tab.get 0 e.sys.ldgShown a.key / 2 ^ 20 + b2n (Tab.has e.sys.ldgShown a.key) * 2 ^ 19)
  | .LDG_STAT => some (e.val .LDG_STAT 0 + b2n e.ledQueued * 2 + b2n e.ledBusy)
  | .PWR_STAT =>
    let st := if e.pwr.exit.isSome then 6 else if e.pwr.entry.isSome then 5 else e.pwr.lvl
    let gated := b2n (e.getBrl 0).gated + b2n (e.getBrl 1).gated * 2 + b2n (e.getBrl 2).gated * 4
    some (gated * 1024 + e.armed * 8 + st)
  | .RST_WDCNT => some (e.sys.wdLeft / 65536)
  | .HIDE_ASTAT => some (e.val .HIDE_ASTAT 0 + b2n e.hide.acc.isSome * 2 ^ 19)
  | .HIDE_HALT => some ((List.range 20).foldl (fun v b => v + b2n ((e.getThr (20 * i + b)).st == .halted) * 2 ^ b) 0)
  | .HIDE_HDATA => some ((e.getThr e.hsel).ctx (e.fld F.HIDE_HIDX_IDX 0))
  | .HIDE_TXD => some ((e.txFifo i).head?.elim 0 (fun x => 2 ^ 19 + x.1))
  | .HIDE_RXD => some ((e.rxFifo i).head?.elim 0 (fun x => 2 ^ 19 + x.1))
  | .HIDE_VTSTAT => some (e.val .HIDE_VTSTAT i + (e.rxFifo i).length * 16 + (e.txFifo i).length)
  | .HIDE_SPTALLY => some (Tab.get 0 e.hide.tally i)
  | _ => none

/-! ### The value read -/

/-- The bits of a register's readable fields: WO and WT fields read 0 (R6). -/
def Reg.readMask (r : Reg) : Nat :=
  r.flds.foldl (fun m f => if f.acc = .wo ∨ f.acc = .wt then m else setBits m f.hi f.lo (2 ^ (f.hi + 1 - f.lo) - 1)) 0

/-- Does a selection of 0 make this register read 0 (R265, R360)? -/
def Eng.selectsNone (e : Eng) (a : Acc) (r : Reg) : Bool :=
  (r.selector == 1 && e.thrSel a == 0) || (r.selector == 6 && e.lckSel a / 4 == 0)

/-- Fields that a read clears, as a read of this cycle finds them: before the events of the cycle (R9). -/
def Eng.beforeEvents (e : Eng) (r : Reg) (j v : Nat) : Nat :=
  r.flds.foldl (fun v f =>
    if f.acc ≠ .rc then v
    else
      match Tab.find e.recent.rc (r.key j * 32 + f.lo) with
      | some (o, _) => setBits v f.hi f.lo o
      | none => v) v

/-- The value that a read of the register returns to accessor `a`; `i` is the index at the address. -/
def Eng.value (e : Eng) (a : Acc) (r : Reg) (i : Nat) : Nat :=
  let j := e.place a r i
  if e.selectsNone a r then 0
  else
    let v : Nat := match e.t80Group r j with
      | some (x, 0) => (t80Word x 0).toNat
      | some (_, w) => ((e.getLatch a.key).t80.getD (w - 1) 0).toNat
      | none =>
        match e.countPair a r j with
        | some x => x % 2 ^ 20
        | none =>
          ([e.latchView a r, e.viewLink r j, e.viewReed r j, e.viewSwitch a r j, e.viewThread a r j, e.viewSystem a r j].findSome? id).getD
            (e.val r j)
    e.beforeEvents r j v &&& r.readMask

end Sys2Proof.Machine
end

