-- ==== Sys2Proof/Machine/Reads.lean ====
section
/-! DEFINITION. Reads of device registers: which are legal, the value and the side effects (00_scope.md R6, R9 to R11, R543; the
register tables of the chapters). -/

namespace Sys2Proof.Machine

/-- The register blocks by prefix; the JX_ block stands in four chapters. -/
inductive Blk where
  | jx | tik | sun | lnk | reed | cod | bsn | fwd | sch | brl | thr | lck | cnd | cwy | tmr | hrg | key | pwr | rst | hide
  deriving DecidableEq, Repr

/-- The block of a register. Registers are numbered in the order of their declaration; BSN_, SLU_ and WRD_ are one block here,
and so are KEY_ and LDG_. -/
def Reg.blk (r : Reg) : Blk :=
  let k := r.ctorIdx
  if k = 0 then .jx else if k ≤ 20 then .tik else if k ≤ 32 then .sun else if k ≤ 51 then .lnk else if k ≤ 78 then .reed
  else if k ≤ 97 then .cod else if k ≤ 144 then .bsn else if k ≤ 172 then .fwd else if k ≤ 215 then .sch else if k ≤ 222 then .brl
  else if k ≤ 244 then .thr else if k ≤ 255 then .jx else if k ≤ 263 then .lck else if k ≤ 269 then .cnd else if k ≤ 281 then .cwy
  else if k ≤ 297 then .tmr else if k ≤ 321 then .hrg else if k ≤ 323 then .jx else if k ≤ 346 then .key else if k ≤ 355 then .pwr
  else if k ≤ 360 then .jx else if k ≤ 369 then .rst else if k ≤ 410 then .hide else .thr

/-- Does the host reach the register's block in the present power state (R402, R467)? -/
def Eng.blockOn (e : Eng) (r : Reg) : Bool := decide (e.power ≤ 2) || [Blk.jx, .sun, .pwr, .rst].contains r.blk

/-- Is a read legal? 0, or its code (R250, R402, R467, R487, R500, R523, R543). -/
def Eng.readCode (e : Eng) (a : Acc) (r : Reg) (i : Nat) : Nat :=
  let t := e.thrSel a
  let x := e.getThr t
  let still := t == 0 || x.st == .held || x.st == .faulted
  firstCode [need (!e.hostIn a [0] || r == .JX_ID || r == .JX_STATE || r.blk == .rst) 3,
    need (a != .host || e.blockOn r) 9, need (a != .hide || decide (1 ≤ e.fld F.HIDE_AUTH_LEVEL 0)) 3,
    (if r.blk = .hide then e.hideReadable a r i else 0), need (r != .THR_CDATA || still) 3]

/-! ### Latches of the reader (R11, R57, R174, R199, R390, R393) -/

/-- A read loads the reader's latch of its kind: the T80 latch, the count latch, the timer latch. `j` is the copy reached. -/
def Eng.readLatch (e : Eng) (a : Acc) (r : Reg) (j : Nat) : Eng :=
  let l := e.getLatch a.key
  match e.t80Group r j with
  | some (x, w) => if w = 0 then e.setLatch a.key { l with t80 := [t80Word x 1, t80Word x 2, t80Word x 3] } else e
  | none =>
    match e.countPair a r j with
    | some x => e.setLatch a.key { l with count := word (x / 2 ^ 20) }
    | none =>
      match r with
      | .TMR_CNT =>
        let up (n : Nat) : Word := if j % 8 + n < 8 then (e.getTmr (j + n)).cnt else 0
        e.setLatch a.key { l with timer := [up 1, up 2] }
      | .TMR_CAP =>
        let ch := e.chainAbove j
        let cap (n : Nat) : Word := (ch[n]?).elim 0 (fun u => (e.getTmr u).caps.getD 0 0)
        if e.flag F.TMR_CFG_WIDE j ∧ !(e.getTmr j).caps.isEmpty then e.setLatch a.key { l with timer := [cap 0, cap 1] } else e
      | _ => e

/-! ### Side effects -/

/-- An RC register is cleared (R6), but for the events of this cycle (R9). -/
def Eng.clearRc (e : Eng) (r : Reg) (j : Nat) : Eng :=
  r.flds.foldl (fun e f =>
    if f.acc ≠ .rc then e
    else
      let k := r.key j * 32 + f.lo
      match Tab.find e.recent.rc k with
      | some (_, n) =>
        { e.setFld ⟨r, f.hi, f.lo⟩ j (min n (2 ^ (f.hi + 1 - f.lo) - 1)) with recent := { e.recent with rc := Tab.put e.recent.rc k (0, n) } }
      | none => e.setFld ⟨r, f.hi, f.lo⟩ j 0) e

/-- A read of TMR_CAP removes the oldest capture, with WIDE in every unit of the chain (R392, R393). -/
def Eng.capPop (e : Eng) (u : Nat) : Eng :=
  if (e.getTmr u).caps.isEmpty ∨ e.underWide u then e
  else
    foldS (fun v e => e.setTmr v { e.getTmr v with caps := (e.getTmr v).caps.drop 1 })
      (u :: (if e.flag F.TMR_CFG_WIDE u then e.chainAbove u else [])) e

/-- The latch of BSN_TRAP1 and BSN_TRAP2 at a read of BSN_TRAP0, by the trap thread (R199) or by the Hide (R200; DEDUCED, log 70: its sentence on
words 0 is taken as the exception to R174 and R199, which name the thread alone). -/
def Eng.trapLatch (e : Eng) (a : Acc) : Eng :=
  match e.sw.traps with
  | [] => e
  | t :: _ =>
    let w1 := t.getD 1 0 * 64 + t.getD 2 0 * 2
    let w2 := t.getD 3 0 * 2 ^ 17 + t.getD 4 0
    e.setLatch a.key { e.getLatch a.key with trap := [word w1, word w2] }

/-- A read of BSN_TRAP0 by the trap thread takes the head record (R199). -/
def Eng.trapRead (e : Eng) (a : Acc) : Eng :=
  if !a.isThr (e.fld F.BSN_TRAPTID_TID 0) then e else (e.trapLatch a).modSw (fun w => { w with traps := w.traps.drop 1 })

/-- The latch of FWD_NOTE1 to FWD_NOTE4 at a read of FWD_NOTE0, by the classifier (R174) or by the Hide (R200). -/
def Eng.noticeLatch (e : Eng) (a : Acc) : Eng :=
  match e.sw.notices with
  | [] => e
  | n :: _ => e.setLatch a.key { e.getLatch a.key with notice := n.drop 1 }

/-- A read of FWD_NOTE0 by the classifier takes the head notice (R174). -/
def Eng.noticeRead (e : Eng) (a : Acc) : Eng :=
  if !a.isThr (e.fld F.FWD_CLSTID_TID 0) then e else (e.noticeLatch a).modSw (fun w => { w with notices := w.notices.drop 1 })

/-- What a quiet read by the Hide latches beside the latches of R11 (R200). -/
def Eng.hideLatch (e : Eng) (r : Reg) : Eng :=
  match r with
  | .BSN_TRAP0 => e.trapLatch .hide
  | .FWD_NOTE0 => e.noticeLatch .hide
  | _ => e

/-- A read of REEDk_FIFO by the owner takes the head word (R122). -/
def Eng.fifoPop (e : Eng) (a : Acc) (k : Nat) : Eng :=
  if a.isThr (e.fld F.REED_OWN_TID k) then e.modReed k (fun r => { r with fifo := r.fifo.drop 1, fpops := r.fpops + (if r.fifo.isEmpty then 0 else 1) }) else e

/-- The side effect of a read that is not quiet (R6, R10, R98; the tables). -/
def Eng.readSide (e : Eng) (a : Acc) (r : Reg) (j : Nat) : Eng :=
  match e.window a r j with
  | some (b, u, k) => if ctrWide b k then e else e.ctrClear b u k
  | none =>
    match r with
    | .BSN_LOWW =>
      let k := Reg.key .BSN_LOWW 0 * 32
      if Tab.has e.recent.rc k then
        { e with recent := { e.recent with rc := Tab.put e.recent.rc k (e.fld F.BSN_LOWW_MIN 0, 0) } }
      else e.setFld F.BSN_LOWW_MIN 0 e.freeCells
    | .SUN_ECAP_T => if j % 4 = 0 ∧ !Tab.has e.recent.ecap (j / 4) then e.setFld F.SUN_ECAP_CFG_FRESH (j / 4) 0 else e
    | .REED_FIFO => e.fifoPop a j
    | .BSN_TRAP0 => e.trapRead a
    | .FWD_NOTE0 => e.noticeRead a
    | .TMR_CAP => e.capPop j
    | _ => e.clearRc r j

/-- A legal read by accessor `a` of the register with index `i`: the value and the state after it. The Hide's reads are quiet: only its
own latches load (R10). LDG_RD0 and LDG_RD1 before VALID, and HIDE_RXD read by a debug path, have no stated value. -/
def Eng.readWord (e : Eng) (a : Acc) (r : Reg) (i : Nat) : Nat × Eng :=
  let j := e.place a r i
  let v := e.value a r i
  if e.selectsNone a r then (0, e)
  else
    let waiting := Tab.has e.sys.ldgRead a.key && !Tab.has e.sys.ldgShown a.key
    match r with
    | .LDG_RD0 => if waiting then e.freeVal 20 else (v, e)
    | .LDG_RD1 => if waiting then e.freeVal 12 else (v, e)
    | .HIDE_TXD => if a.path = 0 then (v, e) else e.vtTxPop a.path i
    | .HIDE_RXD =>
      if a.path ≠ 0 then
        let (x, e) := e.freeVal 20
        (x &&& r.readMask, e)
      else if a.anyThr then e.vtRxPop i a.tid
      else (v, e)
    | _ =>
      let e1 := e.readLatch a r j
      (v, if a = .hide then e1.hideLatch r else e1.readSide a r j)

end Sys2Proof.Machine
end

