-- ==== Sys2Proof/Machine/Writes.lean ====
section
/-! DEFINITION. Writes of device registers: which are legal and what each does (00_scope.md R6, R7, R9, R403; the register tables of
the chapters). Where one word starts several actions, the order is the model's (assumption 6). -/

namespace Sys2Proof.Machine

/-! ### Legality -/

/-- The bits of a field. -/
def FldInfo.mask (f : FldInfo) : Nat := (2 ^ (f.hi + 1 - f.lo) - 1) <<< f.lo

/-- The bits of the register's fields of some access types. -/
def Reg.mask (r : Reg) (p : Access → Bool) : Nat := r.flds.foldl (fun m f => if p f.acc then m ||| f.mask else m) 0

/-- An access type that a write changes or starts (R7). -/
def Access.writable : Access → Bool
  | .rw | .wo | .w1c | .rsw | .wt => true
  | _ => false

/-- Reserved bits of single copies of a series (TIK_OVR and THR_FPEND words 0 and 3, CWY_MUTE6), and the data bits of the
terminal (R50, R265, R377, R518). -/
def Reg.spareBits (r : Reg) (i : Nat) : Nat :=
  match r with
  | .TIK_OVR | .THR_FPEND => if i = 0 then 1 else if i = 3 then 0xFFFF0 else 0
  | .CWY_MUTE => if i = 6 then 0xFFF00 else 0
  | .HIDE_TXD | .HIDE_RXD => 0xF0000
  | _ => 0

/-- The state, range and clash rules of a register's block: `i` is the copy reached. -/
def Eng.chkReg (e : Eng) (a : Acc) (r : Reg) (i v : Nat) : Nat :=
  match r.blk with
  | .jx => e.chkJx a r i v
  | .tik => e.chkTik a r i v
  | .sun => e.chkSun a r i v
  | .lnk => e.chkLnk a r i v
  | .reed => e.chkReed a r i v
  | .cod => e.chkCod a r i v
  | .bsn => e.chkBsn a r i v
  | .fwd => e.chkFwd a r i v
  | .sch => e.chkSch a r i v
  | .brl => e.chkBrl a r i v
  | .thr => e.chkThr a r i v
  | .lck => e.chkLck a r i v
  | .cnd => e.chkCnd a r i v
  | .cwy => e.chkCwy a r i v
  | .tmr => e.chkTmr a r i v
  | .hrg => e.chkHrg a r i v
  | .key => e.chkKey a r i v
  | .pwr => e.chkPwr a r i v
  | .rst => e.chkRst a r i v
  | .hide => e.chkHide a r i v

/-- Registers that are never written through the Hide (R504). -/
def Reg.hideBarred (r : Reg) : Bool :=
  (r.blk == .key && r != .LDG_ADDR) || [Reg.RST_WDCTL, .RST_WDKICK, .HRG_KIRQ].contains r

/-- Is a write of `v` legal? 0, or the code of its first defect in the order of R403; `i` is the index at the address. -/
def Eng.writeCode (e : Eng) (a : Acc) (r : Reg) (i v : Nat) : Nat :=
  let all := r.mask (fun _ => true)
  let fixed := r.mask (fun x => !x.writable)
  firstCode [need (!e.hostIn a [0]) 3, need (a != .host || e.blockOn r) 9,
    need (v &&& all == v && v &&& r.spareBits i == 0) 6,
    need (r.flds.any (fun f => f.acc.writable) && v &&& fixed == 0) 1,
    need (a != .hide || (!r.hideBarred && decide ((if r = .LDG_ADDR then 1 else 2) ≤ e.fld F.HIDE_AUTH_LEVEL 0))) 3, e.chkReg a r (e.place a r i) v]

/-! ### The stored fields -/

/-- A write stores RW and WO fields and clears W1C bits (R6), but for bits that an event set in this cycle (R9). -/
def Eng.store (e : Eng) (r : Reg) (j v : Nat) : Eng :=
  let set := r.mask (fun x => x == .rw || x == .wo)
  let clr := v &&& r.mask (· == .w1c)
  let clr := clr - (clr &&& Tab.get 0 e.recent.bits (r.key j))
  let old := e.val r j
  e.setReg r j (word (old - (old &&& (set ||| clr)) + (v &&& set)))

/-! ### Registers whose write acts -/

/-- What a write that passed its checks does: the code of an action that fails after them (0 none), and the state. -/
abbrev Act := Nat × Eng

/-- TIK_CTL.CANCEL (R44): no effect in a cycle in which the pending set takes effect. -/
def Eng.tickCancel (e : Eng) : Eng :=
  let launched : Bool := match e.launchPlan with
    | some pl => (e.launch pl).2.2.tick.pend.isNone
    | none => false
  if launched ∨ e.tickRunningClear.tick.pend.isNone then e
  else { e with tick := { e.tick with pend := none, takeNext := false } }.setFld F.TIK_STAT_PENDING 0 0

/-- TIK_CTL (R42, R44, R46). -/
def Eng.wrTikCtl (e : Eng) (v : Nat) : Act :=
  let e := if bit v 3 then e.tickCancel else e
  let (c, e) := if bit v 1 then e.tickApply (bit v 2) else (0, e)
  if c ≠ 0 then (c, e)
  else
    let old := e.flag F.TIK_CTL_RUN 0
    let e := if bit v 0 && !old then e.tickArm else if !bit v 0 && old then e.tickDisarm else e
    (0, e.store .TIK_CTL 0 v)

/-- SUN_CTL (R61, R63). -/
def Eng.wrSunCtl (e : Eng) (who : Acc) (v : Nat) : Eng := e.sunOp (who.anyThr && !who.keeper) v

/-- LNKn_CTL (R85, R86). -/
def Eng.wrLnkCtl (e : Eng) (n v : Nat) : Eng :=
  let e := if bit v 0 then e.linkEnable n else e.linkDisable n
  let e := if bit v 2 then e.lossEvent n 2 else e
  if bit v 1 then e.upEvent n else e

/-- LNKn_TSCTL (R97). -/
def Eng.wrTsCtl (e : Eng) (n v : Nat) : Eng :=
  let e := if bit v 0 then e.popTs n false else e
  if bit v 1 then e.popTs n true else e

/-- REEDk_CTL (R125, R130 to R132): the banks exchange first; HALT prevails over START. -/
def Eng.wrReedCtl (e : Eng) (k v : Nat) : Eng :=
  let e := if bit v 4 then e.reedForce k else if bit v 3 then e.reedSwap k else e
  let e := if bit v 2 then e.reedHalt k else e
  if bit v 2 then e
  else
    let e := if bit v 0 then e.reedStart k else e
    if bit v 1 then e.reedArm k else e

/-- COD_MODE: a new MODE clears PARAM and the slot's state (R159). -/
def Eng.wrCodMode (e : Eng) (j v : Nat) : Eng :=
  ((e.store .COD_MODE j v).setReg .COD_PARAM j 0).slotReset (j / 8) (j % 8)

/-- COD_CTL (R135, R159). -/
def Eng.wrCodCtl (e : Eng) (k v : Nat) : Eng :=
  let e := if bit v 0 then e.slotReset k (e.fld F.COD_SEL_SLOT 0) else e
  if bit v 1 then e.slotResetAll k else e

/-- The Basin's commands of a thread (R194, R197, R198): a failure is a bus fault. -/
def Eng.wrBsn (e : Eng) (r : Reg) (t v : Nat) : Act :=
  let ans (x : Bool × Eng) : Act := (if x.1 then 0 else 3, x.2)
  match r with
  | .BSN_ALLOC => (0, e.bsnAlloc t (v % 128) (bit v 7))
  | .BSN_CHAIN1 => ans (e.relink t (e.fld F.BSN_CHAIN0_CELL t) (v % 16384) (bit v 19))
  | .BSN_RELEASE => ans (e.bsnRelease t v)
  | .BSN_INJGO => if bit v 0 then ans (e.inject t) else (0, e)
  | _ => (0, e.store r t v)

/-- SCH_EOP: the staged words to a store entry, or an entry to the staged words (R208, R229). -/
def Eng.wrSchEop (e : Eng) (v : Nat) : Eng :=
  let i := e.fld F.SCH_ESEL_INDEX 0
  if v = 1 then
    { e with sch := { e.sch with store := Tab.put e.sch.store i [e.reg .SCH_ENT0 0, e.reg .SCH_ENT1 0, e.reg .SCH_ENT2 0] } }
  else
    let x := e.schEntry i
    ((e.setReg .SCH_ENT0 0 (x.getD 0 0)).setReg .SCH_ENT1 0 (x.getD 1 0)).setReg .SCH_ENT2 0 (x.getD 2 0)

/-- SCH_LCTL (R209, R222): CANCEL, APPLY, EN; a failed apply leaves EN. -/
def Eng.wrSchLctl (e : Eng) (n v : Nat) : Act :=
  let e := if bit v 3 then e.rowCancel n else e
  let (ok, e) := if bit v 2 then e.rowApply n else (true, e)
  if !ok then (2, e)
  else if bit v 0 && !e.schEn n then (0, e.schEnable n)
  else if !bit v 0 && e.schEn n then (0, e.schDisable n)
  else (0, e)

/-- SCH_BCTL (R213). -/
def Eng.wrSchBctl (e : Eng) (t b v : Nat) : Act :=
  let e := if bit v 1 then e.bufDrop b else e
  if bit v 0 then
    let (ok, e) := e.bufCommit t b
    (if ok then 0 else 3, e)
  else (0, e)

/-- BRLp_CTL (R239, R240): COPY, APPLY, CANCEL. The outcome of the checks is answered with the write; what they record stands when
they end. -/
def Eng.wrBrlCtl (e : Eng) (p v : Nat) : Act :=
  let e := if bit v 0 then e.slotCopy p else e
  let (c, e) : Act :=
    if bit v 1 then
      ((match e.applyFail p (e.getBrl p).staged with
        | none => 0
        | some (3, _) => 5
        | some _ => 2), e.slotApply p (bit v 2))
    else (0, e)
  let e := if bit v 3 then e.slotCancel p else e
  (c, if c = 0 then e.store .BRL_CTL p v else e)

/-- THR_CTL (R245 to R248): RESET before HOLD before RELEASE (R246); an engine reset of the cycle goes before all (R481). -/
def Eng.wrThrCtl (e : Eng) (t v : Nat) : Eng :=
  if e.sys.resetAt = e.now + 1 then e else if bit v 2 then e.resetThr t else if bit v 1 then e.holdThr t else if bit v 0 then e.releaseThr t else e

/-- CWY_FIRE: the domain of the firing (R362, R368). -/
def Eng.wrFire (e : Eng) (who : Acc) (v : Nat) : Eng := e.fire v (if who.anyThr then pavOf who.tid else domEngine)

/-- CWY_STAT: a clear of MUTED rearms CWY_LASTMUTE (R377). -/
def Eng.wrCwyStat (e : Eng) (v : Nat) : Eng :=
  let e := e.store .CWY_STAT 0 v
  if bit v 0 then e.setFld F.CWY_LASTMUTE_VALID 0 0 else e

/-- TMR_CTL (R384, R386, R391). -/
def Eng.wrTmrCtl (e : Eng) (u v : Nat) : Eng :=
  let e := if bit v 0 then e.tmrStart u else e
  let e := if bit v 1 then e.tmrStop u else e
  let e := if bit v 2 then e.tmrCont u else e
  if bit v 3 then e.tmrCapture u else e

/-- HRG_RCTL (R412). -/
def Eng.wrRingCtl (e : Eng) (q v : Nat) : Eng :=
  let on := e.flag F.HRG_RCTL_EN q
  let e := if bit v 0 && !on then e.ringOn q else if !bit v 0 && on then e.ringOff q else e
  if bit v 1 then e.ringRestart q else e

/-- LDG_ADDR starts a Ledger read of its accessor (R465). -/
def Eng.wrLdgAddr (e : Eng) (who : Acc) (v : Nat) : Eng :=
  { e.store .LDG_ADDR who.key v with
    sys := { e.sys with ldgRead := Tab.put e.sys.ldgRead who.key (v, e.now), ldgShown := Tab.del e.sys.ldgShown who.key } }

/-- RST_BISTCTL.GO runs the self-test of the SELFTEST command at its commit point (R493, R498). -/
def Eng.wrBist (e : Eng) (v : Nat) : Eng :=
  let e := e.store .RST_BISTCTL 0 v
  if !bit v 2 then e
  else
    match e.keys.cmds.find? (fun c => decide (c.stage = .posted) && c.op == 6) with
    | some c => (e.modCmd c.idx (fun x => { x with stage := .testing })).bistStart (v % 4)
    | none => e

/-- The Hide's halts, resumes and step (R507, R509): the resumes act first. -/
def Eng.wrHctl (e : Eng) (v : Nat) : Eng :=
  let t := e.hsel
  let own (l : List Nat) : List Nat := if t = 0 then [] else l
  let pav := own (pavThreads (pavOf t))
  let e := if bit v 6 then e.resumeMany allThreads else e
  let e := if bit v 4 then e.resumeMany pav else e
  let e := if bit v 1 then e.resumeMany (own [t]) else e
  let e := if bit v 2 then e.resumeThr t true else e
  let e := if bit v 5 then e.haltMany allThreads 5 else e
  let e := if bit v 3 then e.haltMany pav 4 else e
  if bit v 0 then e.haltMany (own [t]) 0 else e

/-- HIDE_FEED.GO (R511): the staged bytes, the earlier in [15:8]. -/
def Eng.wrFeed (e : Eng) (v : Nat) : Eng :=
  let e := e.store .HIDE_FEED 0 v
  if !bit v 4 then e
  else
    let bytes := (List.range (v % 16)).map (fun i =>
      let w := e.val .HIDE_INSN (i / 2)
      BitVec.ofNat 8 (if i % 2 = 0 then w / 256 else w))
    let e := { e with hide := { e.hide with feed := some (e.hsel, bytes), feedAt := e.now, feedIss := false, feedRes := none } }
    (((e.setFld F.HIDE_FSTAT_BUSY 0 1).setFld F.HIDE_FSTAT_RESULT 0 0).setFld F.HIDE_FSTAT_CAUSE 0 0)

/-- HIDE_ACMD starts an access; one that needs FULL is answered FAULT, STATE to a path with less (R504 to R506). -/
def Eng.wrAcmd (e : Eng) (who : Acc) (v : Nat) : Eng :=
  let code := bit v 2
  let wr := v % 4 == 2
  let x : HideAcc := ⟨code, wr, e.val .HIDE_AADDR 0, e.val .HIDE_ADATA 0, e.fld F.HIDE_APAGE_PAV 0, e.fld F.HIDE_APAGE_PAGE 0⟩
  let dev := !code && decide (0xC0000 ≤ x.addr) && decide (x.addr < 0xF0000)
  let addr : Bool := match Reg.ofAddr x.addr with
    | some (.LDG_ADDR, _) => true
    | _ => false
  if e.pathLevel who < 2 ∧ !(dev && (!wr || addr)) then (e.setFld F.HIDE_ASTAT_RESP 0 1).setFld F.HIDE_ASTAT_ERR 0 3
  else { e with hide := { e.hide with acc := some x } }

/-- The Hide's block (R500 to R520, R524). -/
def Block.wrHide (b : Block) (who : Acc) (r : Reg) (i j v : Nat) : Eng :=
  let e := b.eng
  match r with
  | .HIDE_CHALCTL =>
    let e := if bit v 2 then e.hideLevel 0 who.path else e
    if v % 4 = 0 then e else e.challenge who.path (v % 4)
  | .HIDE_RESP =>
    let e1 := e.store r j v
    if i = 3 then ({ b with eng := e1 } : Block).respCheck else e1
  | .HIDE_ACMD => e.wrAcmd who v
  | .HIDE_HCTL => e.wrHctl v
  | .HIDE_HDATA => e.setThr e.hsel ((e.getThr e.hsel).setCtx (e.fld F.HIDE_HIDX_IDX 0) v)
  | .HIDE_FEED => e.wrFeed v
  | .HIDE_SPCFG =>
    let e1 := e.store r j v
    if bit v 0 then { e1 with hide := { e1.hide with tally := Tab.put e1.hide.tally j 0 } } else e1
  | .HIDE_TXD => e.vtTx i who.tid v
  | .HIDE_RXD => e.vtRx i v
  | .HIDE_STIM => e.stim i who.tid v
  | _ => e.store r j v

/-- What a legal write of `v` by `who` does; `i` is the index at the address. -/
def Block.writeWord (b : Block) (who : Acc) (r : Reg) (i v : Nat) : Act :=
  let e := b.eng
  let j := e.place who r i
  let k := who.key
  match r with
  | .TIK_CTL => e.wrTikCtl v
  | .SUN_CTL => (0, e.wrSunCtl who v)
  | .LNK_CTL => (0, e.wrLnkCtl j v)
  | .LNK_TSCTL => (0, e.wrTsCtl j v)
  | .REED_CTL => (0, e.wrReedCtl j v)
  | .REED_SYNC => (0, let e := (e.keepOld r j).store r j v; if bit v 9 then e.reedSync (reedPav j) else e)
  | .REED_PDATA => (0, e.progWrite j (word v))
  | .REED_WRAPS => (0, e.modReed j (fun x => { x with wrap1 := word v }))
  | .REED_MBX => (0, e.mbxWrite j (word v))
  | .REED_TSET => (0, if i % 4 = 0 then (e.store r j v).tsetCommit (j / 4) v else e.store r j v)
  | .COD_MODE => (0, e.wrCodMode j v)
  | .COD_CTL => (0, e.wrCodCtl j v)
  | .BSN_ALLOC => e.wrBsn r k v
  | .BSN_CHAIN1 => e.wrBsn r k v
  | .BSN_RELEASE => e.wrBsn r k v
  | .BSN_INJGO => e.wrBsn r k v
  | .WRD_CTL => (0, if bit v 1 then (e.store r j v).auditStart else e.store r j v)
  | .FWD_OP => (0, e.fwdStart (v % 8) (bit v 4))
  | .FWD_OVR0 => (0, e.override v (e.fld F.FWD_OVR1_ACT 0))
  | .SCH_EOP => (0, e.wrSchEop v)
  | .SCH_LCTL => e.wrSchLctl j v
  | .SCH_BCTL => e.wrSchBctl k j v
  | .BRL_SENT => (0, e.slotWrite j v)
  | .BRL_CTL => e.wrBrlCtl j v
  | .THR_CTL => (0, e.wrThrCtl j v)
  | .THR_CDATA => (0, e.setThr j ((e.getThr j).setCtx (e.fld F.THR_CIDX_IDX k) v))
  | .THR_SWCTL => (0, if bit v 9 then (e.store r j v).setFld F.THR_SWSTAT_PEND 0 0 else e.store r j v)
  | .LCK_FCTL => (0, if bit v 0 then e.close .force k j else e)
  | .CND_CTL =>
    let e := if bit v 0 then e.close .abort k j else e
    (0, if bit v 1 then e.close .flush k j else e)
  | .CWY_FIRE => (0, e.wrFire who v)
  | .CWY_CHCFG => (0, e.declWrite j v)
  | .CWY_MUTE => (0, e.unmuteBits j v)
  | .CWY_STAT => (0, e.wrCwyStat v)
  | .TMR_CTL => (0, e.wrTmrCtl j v)
  | .TMR_CNT => (0, e.tmrSetCnt j v)
  | .TMR_GSTART => (0, let e := (e.keepOld r j).store r j v; if bit v 8 then e.requestStart else e)
  | .HRG_RCTL => (0, e.wrRingCtl j v)
  | .HRG_KNOCK => (0, if bit v 0 then e.requestPass else e)
  | .HRG_KIRQ => (0, if bit v 0 then e.raise 8 else e)
  | .KEY_CTAKE => (0, if bit v 0 then e.commandTake else e)
  | .KEY_CDONE => (0, if bit v 0 then e.commandDone else e)
  | .LDG_ADDR => (0, e.wrLdgAddr who v)
  | .LDG_CTL =>
    (0, if bit v 0 then e.ledPush .keeper [(e.fld F.LDG_ADDR_ADDR k, e.val .LDG_WD0 0 + e.fld F.LDG_WD1_WD_HI 0 * 2 ^ 20)] else e)
  | .PWR_WAKE => (0, if bit v 0 then e.wakeBy 16 else e)
  | .RST_WDCTL => (0, if bit v 0 then (e.store r j v).wdRestart else e.store r j v)
  | .RST_WDKICK => (0, if bit v 0 then e.wdRestart else e)
  | .RST_BISTCTL => (0, e.wrBist v)
  | .JX_BOOT_CTL => (0, if bit v 0 then (e.store r j v).bootStart else e.store r j v)
  | _ => (0, if r.blk = .hide then b.wrHide who r i j v else (if r.nextCycle then e.keepOld r j else e).store r j v)

end Sys2Proof.Machine
end

