-- ==== Sys2Proof/Machine/Access.lean ====
section
/-! DEFINITION. An access to a device register: the register at the address, the checks, the value or the effect
(00_scope.md R6, R7, R543; 12_memory_fabric.md R321). -/

namespace Sys2Proof

/-- The register at a word address; a TAP access reaches the HIDE_ block alone (20_hide_debug.md R499). -/
def Acc.find (who : Acc) (a : Nat) : Option (Machine.Reg × Nat) :=
  match Machine.Reg.ofAddr a with
  | some (r, i) => if who = .tap ∧ r.blk ≠ .hide then none else some (r, i)
  | none => none

end Sys2Proof

namespace Sys2Proof.Machine

/-- A read of the device register at word address `a`. -/
def Block.devRead (b : Block) (who : Acc) (a : Nat) : DevAns Eng :=
  match who.find a with
  | none => .nowhere
  | some (r, i) =>
    let c := b.eng.readCode who r i
    if c ≠ 0 then .fault c b.eng
    else
      let (v, e) := b.eng.readWord who r i
      .ok v e

/-- A write of `v`, 20 bits, to the device register at word address `a`. -/
def Block.devWrite (b : Block) (who : Acc) (a v : Nat) : DevAns Eng :=
  match who.find a with
  | none => .nowhere
  | some (r, i) =>
    let c := b.eng.writeCode who r i v
    if c ≠ 0 then .fault c b.eng
    else
      let (k, e) := b.writeWord who r i v
      if k = 0 then .ok 0 e else .fault k e

end Sys2Proof.Machine
end

