-- ==== Sys2Proof/Machine/Operands.lean ====
section
/-! DEFINITION. Thread instruction operands: prefixes (10_isa_encoding.md R270, R271, R286), widths and elements (R279 to
R281), operand formats (R273), addressing modes (R276, R277). -/

namespace Sys2Proof.Machine

/-! ### Widths; codes 0 to 9 are BYTE0, BYTE1, QUINT0 to QUINT3, DECA0, DECA1, WORD, PAIR (R271) -/

abbrev wWord : Nat := 8
abbrev wPair : Nat := 9

/-- The operand width in bits (R268). -/
def wBits (w : Nat) : Nat := if w < 2 then 8 else if w < 6 then 5 else if w < 8 then 10 else if w = 8 then 20 else 40

/-- The lowest bit of the element that a width names (R271). -/
def wLow (w : Nat) : Nat :=
  match w with
  | 0 => 8
  | 2 => 15
  | 3 => 10
  | 4 => 5
  | 6 => 10
  | _ => 0

/-- Is the element number 0, or the width word or pair ("elem 0" of R274, R280)? -/
def wElem0 (w : Nat) : Bool := w == 0 || w == 2 || w == 6 || w == 8 || w == 9

/-- The element of a word (R281). -/
def elemOf (w v : Nat) : Nat := (v >>> wLow w) % 2 ^ wBits w

/-- The word with its element replaced (R281). -/
def mergeElem (w v x : Nat) : Nat := setBits v (wLow w + wBits w - 1) (wLow w) x

/-! ### Prefixes -/

/-- What a prefix list says: the AT pair, LOCK, the condition, the width, EXT, the prefix bytes, and where one of them
repeats, stands out of order or is undefined, the bytes up to it (R270, R271, R287). -/
structure Pfx where
  atp : Option Nat := none
  lock : Bool := false
  pred : Option Nat := none
  width : Option Nat := none
  ext : Bool := false
  len : Nat := 0
  rank : Nat := 0
  bad : Option Nat := none
  deriving DecidableEq, Repr

def pfxRank : Prefix → Nat
  | .atPair _ => 1
  | .lock => 2
  | .pred _ => 3
  | .width _ => 4
  | .ext => 5
  | .undef => 0

def pfxLen : Prefix → Nat
  | .atPair _ => 2
  | .pred _ => 2
  | _ => 1

/-- Adds one prefix. -/
def Pfx.add (a : Pfx) (p : Prefix) : Pfx :=
  if a.bad.isSome then a
  else if pfxRank p ≤ a.rank then { a with bad := some (a.len + 1) }
  else
    let b := { a with rank := pfxRank p, len := a.len + pfxLen p }
    match p with
    | .atPair x => { b with atp := some x.toNat }
    | .lock => { b with lock := true }
    | .pred c => { b with pred := some c.toNat }
    | .width k => { b with width := some k.val }
    | .ext => { b with ext := true }
    | .undef => b

def parsePfx (ps : List Prefix) : Pfx := ps.foldl Pfx.add {}

/-- Which width prefixes an instruction accepts (R274, R275). -/
inductive WRule where
  | no | elem0 | elem0NoPair | all | sxt
  deriving DecidableEq, Repr

def WRule.accepts : WRule → Option Nat → Bool
  | .no, w => w.isNone
  | .elem0, none => true
  | .elem0, some w => wElem0 w
  | .elem0NoPair, none => true
  | .elem0NoPair, some w => wElem0 w && w != wPair
  | .all, _ => true
  | .sxt, some w => w == 0 || w == 2 || w == 6
  | .sxt, none => false

/-- What the opcode map says of an instruction: widths, PRED, AT, LOCK, page 1 (R274, R275), and the length of opcode byte
and operand bytes (R273). -/
structure Rules where
  w : WRule := .no
  pred : Bool := true
  atp : Bool := true
  lock : Bool := false
  ext : Bool := false
  len : Nat := 1
  deriving DecidableEq, Repr

/-- Check 3 of R287 for the prefixes: accepted by the instruction, and well-formed. -/
def Rules.pfxOk (r : Rules) (p : Pfx) : Bool :=
  p.bad.isNone && r.w.accepts p.width && (r.pred || p.pred.isNone) && (r.atp || p.atp.isNone) && (r.lock || !p.lock) &&
    (p.ext == r.ext) && !(p.atp.isSome && p.lock) &&
    (match p.pred with
      | some c => decide (c ≤ 13)
      | none => true) &&
    (match p.atp with
      | some a => a % 32 == 0 && decide (a / 32 ≤ 6)
      | none => true)

/-- The condition COND on FLAGS (R282). -/
def condHolds (c flags : Nat) : Bool :=
  let z := bit flags 0
  let n := bit flags 1
  let cy := bit flags 2
  let v := bit flags 3
  match c with
  | 0 => z
  | 1 => !z
  | 2 => cy
  | 3 => !cy
  | 4 => n
  | 5 => !n
  | 6 => v
  | 7 => !v
  | 8 => cy && !z
  | 9 => !cy || z
  | 10 => n == v
  | 11 => n != v
  | 12 => !z && n == v
  | 13 => z || n != v
  | _ => false

/-! ### Operand bytes -/

/-- The first and second register of an RB byte (R273). -/
def rbHi (b : Byte) : Nat := b.toNat / 16
def rbLo (b : Byte) : Nat := b.toNat % 16

/-- Sign extension to 20 bits. -/
def sext20 (w n : Nat) : Nat := toMod 20 (signed w n)

/-- A register operand at width w: [w−1:0] of G[r], or the pair (R279, R280). -/
def Thr.oper (x : Thr) (w r : Nat) : Nat :=
  if w = wPair then x.greg r + x.greg (r + 1) * 2 ^ 20 else x.greg r % 2 ^ wBits w

/-- put(D, v): zero-extended into D, or the pair (R280). -/
def Thr.putOper (x : Thr) (w r v : Nat) : Thr :=
  if w = wPair then (x.setGreg r (v % 2 ^ 20)).setGreg (r + 1) (v / 2 ^ 20 % 2 ^ 20)
  else x.setGreg r (v % 2 ^ wBits w)

/-- Under PAIR a data register is even (R279). -/
def regOk (w r : Nat) : Bool := w != wPair || r % 2 == 0

end Sys2Proof.Machine

namespace Sys2Proof

open Sys2Proof.Machine

def AluOperand.len : AluOperand → Nat
  | .reg _ => 2
  | .imm8 _ _ => 3
  | .imm20 _ _ => 5

def AluOperand.d : AluOperand → Nat
  | .reg rb => rbHi rb
  | .imm8 rb _ => rbHi rb
  | .imm20 rb _ => rbHi rb

/-- The reserved fields of formats I8 and I20 are 0, and the registers fit the width (R273, R279). A shift count is a
single register. -/
def AluOperand.ok (o : AluOperand) (shift : Bool) (w : Nat) : Bool :=
  regOk w o.d &&
    (match o with
      | .reg rb => shift || regOk w (rbLo rb)
      | .imm8 rb _ => rbLo rb == 0
      | .imm20 rb i => rbLo rb == 0 && decide (i.toNat < 2 ^ 20))

/-- The second operand at width w (R280). -/
def AluOperand.val (o : AluOperand) (x : Thr) (w : Nat) : Nat :=
  match o with
  | .reg rb => x.oper w (rbLo rb)
  | .imm8 _ i => toMod (wBits w) (signed 8 i.toNat)
  | .imm20 _ i => toMod (wBits w) (signed 20 i.toNat)

/-- A shift count, 6 bits (R295). -/
def AluOperand.count (o : AluOperand) (x : Thr) : Nat :=
  match o with
  | .reg rb => x.greg (rbLo rb) % 64
  | .imm8 _ i => i.toNat % 64
  | .imm20 _ i => i.toNat % 64

/-- Bytes of format M: RB and the mode bytes (R276). -/
def MemMode.len : MemMode → Nat
  | .d8 _ => 2
  | .d16 _ => 3
  | .idx _ => 2
  | .abs _ => 4
  | _ => 1

/-- The fields of format M are allowed (R276, R277, R279). `lea`: LEA rejects POST and PRE. -/
def MemMode.ok (m : MemMode) (rb : Byte) (lea : Bool) (w : Nat) : Bool :=
  regOk w (rbHi rb) &&
    (match m with
      | .m7 => false
      | .idx x => x.toNat % 4 == 0
      | .abs a => rbLo rb == 0 && decide (a.toNat < 2 ^ 20)
      | .post => !lea && rbHi rb != rbLo rb && (w != wPair || rbHi rb + 1 != rbLo rb)
      | .pre => !lea && rbHi rb != rbLo rb && (w != wPair || rbHi rb + 1 != rbLo rb)
      | _ => true)

/-- The effective address and the base register's new value (R276). -/
def MemMode.ea (m : MemMode) (rb : Byte) (w : Nat) (x : Thr) : Nat × Option (Nat × Nat) :=
  let b := rbLo rb
  let g := x.greg b
  let step := if w = wPair then 2 else 1
  match m with
  | .reg => (g, none)
  | .d8 d => ((g + sext20 8 d.toNat) % 2 ^ 20, none)
  | .d16 d => ((g + sext20 16 d.toNat) % 2 ^ 20, none)
  | .post => (g, some (b, (g + step) % 2 ^ 20))
  | .pre => ((g + 2 ^ 20 - step) % 2 ^ 20, some (b, (g + 2 ^ 20 - step) % 2 ^ 20))
  | .idx i => ((g + (x.greg (i.toNat / 16) <<< (i.toNat / 4 % 4))) % 2 ^ 20, none)
  | .abs a => (a.toNat, none)
  | .m7 => (0, none)

def RelTarget.len : RelTarget → Nat
  | .b8 _ => 2
  | .b16 _ => 3

/-- The branch target: next plus the sign-extended offset, wrapping at 20 bits (R273). -/
def RelTarget.target (r : RelTarget) (next : Nat) : Nat :=
  match r with
  | .b8 d => (next + sext20 8 d.toNat) % 2 ^ 20
  | .b16 d => (next + sext20 16 d.toNat) % 2 ^ 20

def JumpTarget.len : JumpTarget → Nat
  | .reg _ => 2
  | .abs _ => 4

def JumpTarget.ok : JumpTarget → Bool
  | .reg rb => rbHi rb == 0
  | .abs a => decide (a.toNat < 2 ^ 20)

def JumpTarget.target (j : JumpTarget) (x : Thr) : Nat :=
  match j with
  | .reg rb => x.greg (rbLo rb)
  | .abs a => a.toNat

end Sys2Proof
end

