-- ==== Sys2Proof/Machine/Flags.lean ====
section
/-! DEFINITION. Flag computations and the arithmetic of thread instructions (10_isa_encoding.md R267, R268; 11_isa_reference.md
R294 to R299). -/

namespace Sys2Proof.Machine

/-- Flags to set: `none` keeps a flag. -/
structure FlagSet where
  z : Option Bool := none
  n : Option Bool := none
  c : Option Bool := none
  v : Option Bool := none
  deriving DecidableEq, Repr

def setFlag (f i : Nat) (b : Option Bool) : Nat :=
  match b with
  | none => f
  | some x => setBits f i i (b2n x)

/-- FLAGS after an instruction (R267). -/
def FlagSet.on (s : FlagSet) (flags : Word) : Word :=
  word (setFlag (setFlag (setFlag (setFlag flags.toNat 0 s.z) 1 s.n) 2 s.c) 3 s.v)

def Thr.setFlags (x : Thr) (s : FlagSet) : Thr := { x with flags := s.on x.flags }

/-- A result at `w` bits with its flags (R268). -/
structure AluOut where
  res : Nat
  fl : FlagSet
  deriving DecidableEq, Repr

/-- Does a signed value fit in w bits? -/
def fits (w : Nat) (z : Int) : Bool := decide (-((2 ^ (w - 1) : Nat) : Int) ≤ z) && decide (z < (2 ^ (w - 1) : Nat))

/-- d + x + cin at w bits (R268). -/
def addW (w d x cin : Nat) : AluOut :=
  let s := d + x + cin
  let r := s % 2 ^ w
  ⟨r, { z := some (r == 0), n := some (bit r (w - 1)), c := some (decide (2 ^ w ≤ s)),
        v := some (!fits w (signed w d + signed w x + cin)) }⟩

/-- d − x − bin at w bits; C is 1 when no borrow occurred (R268). -/
def subW (w d x bin : Nat) : AluOut :=
  let r := toMod w ((d : Int) - x - bin)
  ⟨r, { z := some (r == 0), n := some (bit r (w - 1)), c := some (decide (x + bin ≤ d)),
        v := some (!fits w (signed w d - signed w x - bin)) }⟩

/-- A logical result: Z and N. -/
def logW (w r : Nat) : AluOut := ⟨r, { z := some (r == 0), n := some (bit r (w - 1)) }⟩

/-- A shift result: Z and N, V = 0, C unchanged when n is 0 (R295). -/
def shiftOut (w n r : Nat) (c : Bool) : AluOut :=
  ⟨r, { z := some (r == 0), n := some (bit r (w - 1)), c := (if n = 0 then none else some c), v := some false }⟩

def shlW (w v n : Nat) : AluOut :=
  shiftOut w n (if n ≤ w then (v <<< n) % 2 ^ w else 0) (decide (n ≤ w) && bit v (w - n))

def shrW (w v n : Nat) : AluOut :=
  shiftOut w n (if n ≤ w then v >>> n else 0) (decide (n ≤ w) && bit v (n - 1))

def sarW (w v n : Nat) : AluOut :=
  shiftOut w n (toMod w (signed w v / (2 ^ min n w : Nat))) (if n ≤ w then bit v (n - 1) else bit v (w - 1))

def rolW (w v n : Nat) : AluOut :=
  let k := n % w
  let r := ((v <<< k) + (v >>> (w - k))) % 2 ^ w
  shiftOut w n r (bit r 0)

/-- MUL: low half; C says the high half is not 0 (R294). -/
def mulW (w d x : Nat) : AluOut :=
  let r := (d * x) % 2 ^ w
  ⟨r, { z := some (r == 0), n := some (bit r (w - 1)), c := some (decide (2 ^ w ≤ d * x)), v := some false }⟩

/-- MULH: high half (R294). -/
def mulhW (w d x : Nat) : AluOut :=
  let r := (d * x) / 2 ^ w % 2 ^ w
  ⟨r, { z := some (r == 0), n := some (bit r (w - 1)), c := some false, v := some false }⟩

/-- Leading zeros of s at w bits (R296). -/
def clzW (w s : Nat) : Nat := ((List.range w).takeWhile (fun i => !bit s (w - 1 - i))).length

/-- The operation of a MemKind ADDM (R300). -/
def addmW (w old r : Nat) : AluOut := addW w old r 0

/-- QPERM: quint i of the result is quint SEL_i of the source (R299). -/
def qperm (s sel : Nat) : Nat :=
  let q (i : Nat) : Nat := (s >>> (15 - 5 * i)) % 32
  q (sel % 4) * 2 ^ 15 + q (sel / 4 % 4) * 2 ^ 10 + q (sel / 16 % 4) * 2 ^ 5 + q (sel / 64 % 4)

/-- BPERM over the four bytes b0 to b3 of a pair, tags kept with their words (R275, R299). -/
def bperm (lo hi sel : Nat) : Nat × Nat :=
  let b (i : Nat) : Nat :=
    match i with
    | 0 => lo / 256 % 256
    | 1 => lo % 256
    | 2 => hi / 256 % 256
    | _ => hi % 256
  (lo / 65536 * 65536 + b (sel % 4) * 256 + b (sel / 4 % 4), hi / 65536 * 65536 + b (sel / 16 % 4) * 256 + b (sel / 64 % 4))

end Sys2Proof.Machine
end

