-- ==== Sys2Proof/Machine/Barrel.lean ====
section
/-! DEFINITION. Issue of thread instructions (09_barrels_threads.md R234 to R254; 10_isa_encoding.md R270 to R289) and their
data accesses (11_isa_reference.md R291 to R293, R300, R306 to R308; 12_memory_fabric.md R323 to R333). -/

namespace Sys2Proof.Machine

/-- What an instruction in execution knows: thread, width code, address of the next instruction and of its own first
byte, LOCK prefix, fed by the Hide (R511), the data latency Ld of one that makes no data access (R290, R310). -/
structure Ctx where
  t : Nat
  w : Nat := 8
  next : Nat
  pc : Nat
  lock : Bool := false
  fed : Bool := false
  ld : Nat := 0
  deriving DecidableEq, Repr

def Block.withEng (b : Block) (e : Eng) : Block := { b with eng := e }

def Block.onEng (b : Block) (f : Eng → Eng) : Block := { b with eng := f b.eng }

def Eng.modThr (e : Eng) (t : Nat) (f : Thr → Thr) : Eng := e.setThr t (f (e.getThr t))

/-- A fed instruction has its RESULT; it is complete in cycle `n` (R511). A feed that was discarded has none. -/
def Eng.feedEnd (e : Eng) (result cause n : Nat) : Eng :=
  if e.hide.feed.isSome then { e with hide := { e.hide with feedRes := some (result, cause, n) } } else e

/-- A fault of an instruction (R255); of a fed one, RESULT FAULT and no record (R511). -/
def Eng.insnFault (e : Eng) (c : Ctx) (cause addr : Nat) : Eng :=
  if c.fed then (e.modThr c.t (fun x => { x with mem := none, hostWin := false })).feedEnd 2 cause (e.now + 8)
  else e.faultThr c.t cause c.pc addr

/-- The instruction is complete in cycle `n` but for the Lf of the instruction that follows (R234, R290). -/
def Thr.completeAt (x : Thr) (n : Nat) : Thr := { x with ready := n + lfOf x.pc.toNat }

/-- An instruction that writes only registers of its thread: `f` on the context with PC at the next instruction. -/
def Ctx.regs (c : Ctx) (f : Thr → Thr) (b : Block) : Block :=
  b.onEng (fun e =>
    if c.fed then (e.modThr c.t (fun x => { f x with pc := x.pc })).feedEnd 0 0 (e.now + 8 + c.ld)
    else e.modThr c.t (fun x => (f { x with pc := word c.next }).completeAt (e.now + 8 + c.ld)))

/-! ### Issue -/

/-- Do the lanes of a thread's barrel issue (R466 to R469, R483, R486, R493): power state RUN or GATE, the barrel not gated,
start-up at the boot ROM or past it, no self-test running (DESIGN CHOICE, log 67)? -/
def Eng.barrelRuns (e : Eng) (p : Nat) : Bool :=
  decide (e.power ≤ 1) && !(e.getBrl p).gated && !e.flag F.RST_STAT_INIT 0 && e.flag F.RST_STAT_PLLLOCK 0 &&
    (e.engState != 0 || e.sys.bootAt != 0) && e.sys.bist.isNone

/-- This cycle's slot (R25, R236). -/
def Eng.slotNow (e : Eng) : Nat := (e.now - e.clk.roundBase) % 32

/-- The thread that a lane's entry of this cycle names, 0 for none (R236). -/
def Eng.entryOf (e : Eng) (p lane : Nat) : Nat := Tab.get 0 (e.getBrl p).force (32 * lane + e.slotNow)

/-- The lane whose entry of this cycle's slot names the thread, if any (R236). -/
def Eng.entryLane (e : Eng) (t : Nat) : Option Nat := [0, 1, 2, 3].find? (fun l => e.entryOf (pavOf t) l == t)

/-- Has the thread an entry in this cycle or one of the 7 that follow (R242)? -/
def Eng.entrySoon (e : Eng) (t : Nat) : Bool :=
  (e.getBrl (pavOf t)).force.any (fun x => x.2 == t && decide ((x.1 % 32 + 32 - e.slotNow) % 32 < 8))

/-- Is an interrupt due (R253)? -/
def Thr.intDue (x : Thr) : Bool := bit x.flags.toNat 4 && decide (0 < x.irq)

/-- Can the thread issue in this cycle where an entry lets it: RUN, or in WAIT on WTK or WEV with a due interrupt; its previous instruction
is complete, and it issued in none of the last 7 cycles and not in this one (R234, R235, R242, R254)? -/
def Eng.ableThr (e : Eng) (t : Nat) : Bool :=
  let x := e.getThr t
  (match x.st, x.wait with
    | .run, _ => true
    | .wait, .wtk => x.intDue
    | .wait, .wev _ _ => x.intDue
    | _, _ => false) &&
    x.mem.isNone && decide (x.ready ≤ e.now) && (x.issued == 0 || decide (x.issued + 7 ≤ e.now))

/-- Is the thread eligible for a spare issue (R242)? The spare pool never issues a LOCK-prefixed instruction (R331). -/
def Eng.spareAble (e : Eng) (t : Nat) : Bool :=
  e.ableThr t && decide (1 ≤ e.effW t) && !e.entrySoon t && !(e.getThr t).atLock

/-- The thread that the next spare entry goes to: of highest effective weight, and among equals the first at or after the spare pointer
(R243). -/
def Eng.spareWinner (e : Eng) (p : Nat) : Option Nat :=
  let s := (e.getBrl p).spare
  let l := (pavThreads p).filter e.spareAble
  (l.filter (fun t => decide (s ≤ t)) ++ l.filter (fun t => decide (t < s))).foldl (fun a t =>
    match a with
    | some u => if e.effW u < e.effW t then some t else a
    | none => some t) none

/-- The idle and unused lanes of this cycle (R242, R243). -/
def Eng.idleLanes (e : Eng) (p : Nat) : List Nat :=
  [0, 1, 2, 3].filter (fun l => let u := e.entryOf p l; u == 0 || (!e.ableThr u && (e.getThr u).issued != e.now + 1))

/-- The spare issues of this cycle (R243). -/
def Barrel.sparesAt (b : Barrel) (now : Nat) : Nat := if b.spared.1 = now + 1 then b.spared.2 else 0

/-- Is an entry of this cycle still idle or unused: more such lanes than spare issues made (R233, R243)? -/
def Eng.spareLeft (e : Eng) (p : Nat) : Bool := decide ((e.getBrl p).sparesAt e.now < (e.idleLanes p).length)

/-- The window of the accesses of a thread's present issue (R328): that of the lane of its entry, else of the lane of its spare issue. -/
def Eng.windowOf (e : Eng) (t : Nat) : Nat :=
  let p := pavOf t
  4 * p + (match e.entryLane t with
    | some l => l
    | none => (e.idleLanes p).getD ((e.getBrl p).sparesAt e.now - 1) 0)

/-- Does the barrel offer the thread an issue in this cycle: at its entry, or from the spare pool (R236, R242, R243)? The issue that took an
interrupt goes on with the first instruction of the handler (R254). -/
def Eng.offered (e : Eng) (t : Nat) : Bool :=
  let x := e.getThr t
  (x.entered && x.issued == e.now + 1) ||
    (e.ableThr t && ((e.entryLane t).isSome || (e.spareLeft (pavOf t) && e.spareWinner (pavOf t) == some t)))

/-- May the thread issue an instruction: RUN, its previous one complete, and the barrel offers it an issue; a LOCK-prefixed
instruction issues only at an entry (R238, R242, R331)? -/
def Eng.canIssue (e : Eng) (t : Nat) (lock : Bool) : Bool :=
  let x := e.getThr t
  decide (t ≠ 0) && e.barrelRuns (pavOf t) && decide (x.st = .run) && x.mem.isNone && e.offered t && (!lock || (e.entryLane t).isSome)

/-- The thread takes an issue of this cycle; one outside its own entries is a spare issue, which moves the pointer and is counted (R242,
R243). The issue that took an interrupt was counted there (R254). -/
def Eng.countSpare (e : Eng) (t : Nat) : Eng :=
  if (e.entryLane t).isSome ∨ (e.getThr t).entered then e
  else
    let p := pavOf t
    let b := e.getBrl p
    (e.setBrl p { b with spare := if t = 21 * p + 21 then 21 * p + 1 else t + 1,
                         spared := (e.now + 1, b.sparesAt e.now + 1) }).bumpReg .BRL_SPCNT p 1

/-- What an issue leaves in its thread: the marks of breakpoints and interrupts are spent, and the next issue comes 8 cycles later at the
earliest (R234). -/
def Eng.takeIssue (e : Eng) (t : Nat) : Eng :=
  (e.countSpare t).modThr t (fun x => { x with noBreak := false, entered := false, issued := e.now + 1, ready := e.now + 8, atLock := false })

/-- The interrupt is taken at this issue (R254). -/
def Thr.takeInt (x : Thr) (ivec : Word) : Thr :=
  { x with irq := x.irq - 1, ipc := x.pc, iflags := x.flags, flags := word (setBits x.flags.toNat 4 4 0),
           pc := ivec, st := .run, wait := .none, seq := none, entered := true }

/-- An interrupt entry: it takes an issue, which the first instruction of the handler goes on with (R254). -/
def Eng.enterInt (e : Eng) (t : Nat) : Eng :=
  (e.countSpare t).modThr t (fun x => { x.takeInt (e.reg .THR_IVEC t) with issued := e.now + 1, atLock := false })

/-- The end of an issue of a stepped thread (R509): it halts when its instruction completes. -/
def Eng.stepEnd (e : Eng) (t : Nat) : Eng :=
  let x := e.getThr t
  if !x.step then e
  else if x.st = .run ∧ x.mem.isNone ∧ x.seq.isNone then e.becomeHalted t 3 0 false
  else e.setThr t { x with step := false, haltReq := some (3, 0, x.seq.isSome) }

/-- Is a HOLD or a halt that waited for the locked sequence due at this closing issue (R247, R510)? -/
def Eng.closeStop (e : Eng) (t : Nat) : Eng :=
  let e := e.modThr t (fun x => { x with seq := none })
  match (e.getThr t).haltReq with
  | some (cause, comp, _) => e.becomeHalted t cause comp true
  | none => e.modThr t (fun x => { x with holdReq := false, st := .held })

/-- Are all bytes of an instruction in one code region (R287, check 1)? -/
def codeOk (pc len : Nat) : Bool :=
  decide (codeRegion pc ≠ 0) && decide (pc + len ≤ 2 ^ 20) && codeRegion (pc + len - 1) == codeRegion pc

/-- Double-bit errors in the code words of an instruction (R327): true if any. -/
def Eng.codeEcc (e : Eng) (p pc len : Nat) : Bool × Eng :=
  let ks := ((List.range len).filterMap (fun i => (codeKey p (pc + i)).map eccCode)).eraseDups
  foldS (fun k (a : Bool × Eng) => let (d, e) := a.2.eccRead k; (a.1 || d, e)) ks (false, e)

/-- The issue of one instruction with its prefixes, by the order of R287. `r` its rules, `ok` its field checks at the width,
`ex` its execution. A command for a thread that cannot issue has no effect (assumption 2). -/
def Block.issue (b : Block) (t : Nat) (ps : List Prefix) (r : Rules) (ok : Nat → Bool) (ex : Ctx → Block → Block) : Block :=
  let e := b.eng
  let p := parsePfx ps
  let x := e.getThr t
  let lock := p.lock && r.pfxOk p && ok (p.width.getD wWord)
  if !e.canIssue t lock then
    (if lock && e.canIssue t false then b.onEng (fun e => e.modThr t (fun x => { x with atLock := true })) else b)
  else if (x.holdReq ∨ x.haltReq.isSome) ∧ (!p.lock ∨ x.seq.isNone) then
    (if x.seq.isSome then b.onEng (fun e => e.closeStop t) else b)
  else if x.intDue ∧ !(p.lock && x.seq.isSome) ∧ !x.atDone then
    b.onEng (fun e => (e.enterInt t).stepEnd t)
  else
    let pc := x.pc.toNat
    let (act, e) := if x.noBreak ∨ x.atDone then (none, e) else e.breakMatch t pc
    let stop : Bool := match act with
      | some _ => x.seq.isNone
      | none => false
    let e := match act with
      | some (a, comp) => e.haltAct t a 1 comp
      | none => e
    if stop then { b with eng := e }
    else
      let len := match p.bad with
        | some n => n
        | none => p.len + r.len
      let w := p.width.getD wWord
      let next := (pc + len) % 2 ^ 20
      let c : Ctx := { t := t, w := w, next := next, pc := pc, lock := p.lock }
      let e := if p.lock then e else e.modThr t (fun x => { x with seq := none })
      if !codeOk pc len then { b with eng := ((e.takeIssue t).insnFault c 4 0).stepEnd t }
      else
        let (dbl, e) := e.codeEcc (pavOf t) pc len
        if dbl then { b with eng := ((e.takeIssue t).insnFault c 5 0).stepEnd t }
        else if !(r.pfxOk p && ok w) then { b with eng := ((e.takeIssue t).insnFault c 1 0).stepEnd t }
        else
          let target := match p.atp with
            | some a => x.greg (2 * (a / 32)) + x.greg (2 * (a / 32) + 1) * 2 ^ 20
            | none => 0
          if p.atp.isSome ∧ !x.atDone ∧ !reached e.ns target then
            { b with eng := e.modThr t (fun x => { x with
              noBreak := false, entered := false
              st := .wait, wait := .atTime, atTarget := target, waitNext := next, atHit := none, atSlept := false }) }
          else
            let e := e.takeIssue t
            let e := if p.atp.isSome ∧ !x.atDone then e.atLate else e
            let e := e.modThr t (fun x => { x with atDone := false })
            let annul : Bool := match p.pred with
              | some cd => !condHolds cd x.flags.toNat
              | none => false
            if annul then
              { b with eng := (e.modThr t (fun x => { x with
                  pc := word next, ready := e.now + 8 + lfOf next,
                  seq := (if p.lock then (if x.seq.isNone then some (0, 0) else x.seq) else none) })).stepEnd t }
            else (ex c { b with eng := e }).onEng (fun e => e.stepEnd t)

/-! ### Data accesses -/

/-- The words of a data register value. -/
def MemOp.words (o : MemOp) : Nat := if o.width = wPair then 2 else 1

def MemOp.ctx (o : MemOp) : Ctx := ⟨o.tid, o.width, o.next, o.pc, o.locked, o.fed, 0⟩

/-- The cycles from the access cycle to completion, but for Lf: 3, and more for a second word and a write after a read (R234, R278, R291). -/
def MemOp.tail (o : MemOp) : Nat :=
  let two := decide (o.kind = .xch) || decide (o.kind = .addm)
  3 + (if o.width = wPair then (if two then 3 else 1) else b2n two)

/-- The cycle in which an access of this cycle is complete, but for Lf: from the access cycle c + 5 + Ld of R291; an access that was held
counts from the cycle in which its target takes it (R330), one of the host window from its response (R293). -/
def MemOp.doneAt (o : MemOp) (now : Nat) : Nat :=
  let rg := regionOf (pavOf o.tid) o.ea
  match rg with
  | .host _ => now + 3
  | _ => if o.late then now + o.tail else now + 5 + rg.ld (pavOf o.tid) + o.tail

/-- An instruction with an access completes: base register, PC and what `f` writes; PC only if not fed (R276, R511). -/
def MemOp.finish (o : MemOp) (e : Eng) (f : Thr → Thr) : Eng :=
  let e := e.modThr o.tid (fun x =>
    let x := { x with mem := none, hostWin := false }
    let y := match o.base with
      | some (r, v) => f (x.setGreg r v)
      | none => f x
    if o.fed then { y with pc := x.pc } else Thr.completeAt { y with pc := word o.next } (o.doneAt e.now))
  if o.fed then e.feedEnd 0 0 (o.doneAt e.now) else e

/-- Does the region of the word accept the instruction (R291, R300)? Narrow widths only in memory regions. -/
def MemOp.accepted (o : MemOp) (rg : Region) : Bool :=
  let narrow := decide (o.width < wWord)
  let pair := o.width == wPair
  match rg with
  | .data _ shared =>
    (match o.kind with
      | .lkw => !shared
      | .lkr => !shared
      | _ => true)
  | .aperture _ =>
    (match o.kind with
      | .ld => !narrow && !pair
      | .lkw => true
      | .lkr => true
      | _ => false)
  | .basin _ => decide (o.kind = .ld) || decide (o.kind = .st)
  | .dev _ => (decide (o.kind = .ld) || decide (o.kind = .st)) && !narrow && !pair
  | .host _ => (decide (o.kind = .ld) || decide (o.kind = .st)) && !narrow
  | .none => true

/-- The halt that a watch match asks for (R513, R515). -/
def Eng.watched (e : Eng) (o : MemOp) (vals : List (Bool × Nat × Nat)) : Eng :=
  if o.fed then e
  else
    let (act, e) := e.watchMatch o.tid vals
    match act with
    | some (a, comp) => e.haltAct o.tid a 2 comp
    | none => e

/-- NOWHERE: the fabric records it, and the thread faults (R321). -/
def Eng.nowhere (e : Eng) (o : MemOp) (a : Nat) : Eng :=
  let e := e.setReg .JX_NWADDR 0 (word a)
  let e := (e.post F.JX_NWSRC_VALID 0).setFld F.JX_NWSRC_SRC 0 o.win
  e.insnFault o.ctx 3 a

/-- The data words of an access to local or shared data: canonical addresses. -/
def MemOp.canons (o : MemOp) (canon : Nat) : List Nat := if o.words = 2 then [canon, canon + 1] else [canon]

/-- An LD, ST, XCH or ADDM on local or shared data takes effect (R281, R291, R300, R325, R326, R345). -/
def Block.dataAccess (b : Block) (o : MemOp) (canon : Nat) : Block :=
  let w := o.width
  let cs := o.canons canon
  let reads := decide (o.kind ≠ .st) || decide (w < wWord)
  let step (a : Option Nat × Eng) (i : Nat) : Option Nat × Eng :=
    if a.1.isSome then a
    else
      let (d, e) := a.2.eccRead (eccData (canon + i))
      (if d then some (o.ea + i) else none, e)
  let (bad, e) := if reads then (List.range cs.length).foldl step (none, b.eng) else (none, b.eng)
  match bad with
  | some a => { b with eng := e.insnFault o.ctx 5 a }
  | none =>
    let b := { b with eng := e }
    let w0 := b.dataWord canon
    let w1 := if o.words = 2 then b.dataWord (canon + 1) else 0
    let old := if w = wPair then w0 + w1 * 2 ^ 20 else elemOf w w0
    let add := addmW (wBits w) old o.val
    let new := match o.kind with
      | .addm => add.res
      | _ => o.val
    let n0 := if w = wPair then new % 2 ^ 20 else mergeElem w w0 new
    let n1 := new / 2 ^ 20
    let wr := decide (o.kind ≠ .ld)
    let b := if wr then (if w = wPair then (b.setWord canon n0).setWord (canon + 1) n1 else b.setWord canon n0)
      else (if w = wPair then (b.touchWord canon).touchWord (canon + 1) else b.touchWord canon)
    let rdVals := if w = wPair then [(false, o.ea, w0), (false, o.ea + 1, w1)] else [(false, o.ea, w0)]
    let wrVals := if w = wPair then [(true, o.ea, n0), (true, o.ea + 1, n1)] else [(true, o.ea, n0)]
    let vals := match o.kind with
      | .ld => rdVals
      | .st => wrVals
      | _ => rdVals ++ wrVals
    b.onEng (fun e => (o.finish e (fun x =>
        match o.kind with
        | .ld => x.putOper w o.r old
        | .st => x
        | .xch => x.putOper w o.r old
        | _ => (x.putOper w o.r old).setFlags add.fl)).watched o vals)

/-- The word as an acquire writes it: HELD, OWNER, ABANDONED and WAITMAX clear, user bits kept (R306, R307). -/
def acquired (t v : Nat) : Nat := 2 ^ 19 + t * 2 ^ 12 + v % 256

/-- A lock word found free is taken by thread `t` in slot `k`: the unit records it, memory holds the word (R306, R307,
R342, R345). -/
def Block.takeLock (b : Block) (t k canon : Nat) : Block :=
  let v := b.dataWord canon
  let e := (b.eng.lockSettle canon).eccClear (eccData canon)
  ⟨b.mem.setData canon (acquired t v), { e with locks := Tab.put e.locks k ⟨false, canon, false⟩ }⟩

/-- A word LD from the lock aperture (R306, R343). -/
def Block.tryAcquire (b : Block) (o : MemOp) (canon : Nat) : Block :=
  let (d, e) := b.eng.eccRead (eccData canon)
  if d then { b with eng := e.insnFault o.ctx 5 o.ea }
  else
    let b := { b with eng := e }
    let v := b.dataWord canon
    let done (b : Block) : Block := b.onEng (fun e =>
      (o.finish e (fun x => x.setGreg o.r v)).watched o [(false, o.ea, v)])
    if bit v 19 then done (b.touchWord canon)
    else
      match b.eng.emptySlot o.tid with
      | none => b.onEng (fun e => (e.bump F.LCK_CNT_SLOTFULL 0 1).insnFault o.ctx 2 o.ea)
      | some k => done (b.takeLock o.tid k canon)

/-- LKW (R307, R343, R344, R346). -/
def Block.lkwAccess (b : Block) (o : MemOp) (canon : Nat) : Block :=
  let (d, e) := b.eng.eccRead (eccData canon)
  if d then { b with eng := e.insnFault o.ctx 5 o.ea }
  else
    let b := { b with eng := e }
    let v := b.dataWord canon
    match b.eng.emptySlot o.tid with
    | none => b.onEng (fun e => (e.bump F.LCK_CNT_SLOTFULL 0 1).insnFault o.ctx 2 o.ea)
    | some k =>
      if !(bit v 19) then
        (b.takeLock o.tid k canon).onEng (fun e => o.finish e (fun x =>
          (x.setGreg o.r (acquired o.tid v)).setFlags { c := some (bit v 18) }))
      else if bits v 17 12 = o.tid then b.onEng (fun e => e.insnFault o.ctx 2 o.ea)
      else
        (b.touchWord canon).onEng (fun e =>
          { e with waiters := e.waiters ++ [(o.tid, canon)] }.modThr o.tid (fun x =>
            { x with mem := none, st := .wait, wait := .lock o.r canon none, waitNext := o.next, waitBase := o.base }))

/-- LKR (R308). -/
def Block.lkrAccess (b : Block) (o : MemOp) (canon : Nat) : Block :=
  let (d, e) := b.eng.eccRead (eccData canon)
  if d then { b with eng := e.insnFault o.ctx 5 o.ea }
  else
    let b := { b with eng := e }
    match b.eng.lockSlot canon with
    | some (k, s) =>
      if s.freed ∨ k / 4 ≠ o.tid then b.onEng (fun e => e.insnFault o.ctx 2 o.ea)
      else
        let e0 := { b.eng.eccClear (eccData canon) with locks := Tab.del b.eng.locks k }
        let user := o.val % 256
        match e0.firstWaiter canon with
        | some t =>
          let e1 := e0.grantTo canon t o.tid false
          ⟨b.mem.setData canon (2 ^ 19 + t * 2 ^ 12 + e1.waitMax canon * 256 + user),
            o.finish e1 (fun x => x.setFlags { c := some true })⟩
        | none => ⟨b.mem.setData canon user, o.finish e0 (fun x => x.setFlags { c := some false })⟩
    | none => b.onEng (fun e => e.insnFault o.ctx 2 o.ea)

/-- The Basin byte address of window word `w` for a thread (R196). -/
def Eng.basinAddr (e : Eng) (t w : Nat) : Nat := (1024 * e.fld F.BSN_WPAGE_PAGE t + w / 64) * 128 + 2 * (w % 64)

/-- A word of the Basin window (R196). -/
def Mem.basinWord (m : Mem) (k : Nat) : Nat := (Tab.get 0 m.basin k).toNat * 256 + (Tab.get 0 m.basin (k + 1)).toNat

/-- LD or ST through the Basin window (R196, R164, R281). -/
def Block.basinAccess (b : Block) (o : MemOp) (w : Nat) : Block :=
  let ks := if o.words = 2 then [b.eng.basinAddr o.tid w, b.eng.basinAddr o.tid (w + 1)] else [b.eng.basinAddr o.tid w]
  let reads := decide (o.kind = .ld) || decide (o.width < wWord)
  let (dbl, e) := if reads then
      foldS (fun k (a : Bool × Eng) => let (d, e) := a.2.eccRead (8 * 2 ^ 20 + k / 2)
                                       (a.1 || d, if d then e.count 1 0 12 1 else e)) ks (false, b.eng)
    else (false, b.eng)
  if dbl then { b with eng := e.insnFault o.ctx 2 o.ea }
  else
    let vals := ks.map b.mem.basinWord
    let v0 := vals.getD 0 0
    let v1 := vals.getD 1 0
    if o.kind = .ld then
      b.withEng ((o.finish e (fun x =>
          x.putOper o.width o.r (if o.width = wPair then v0 + v1 * 2 ^ 20 else elemOf o.width v0))).watched o
            (if o.words = 2 then [(false, o.ea, v0), (false, o.ea + 1, v1)] else [(false, o.ea, v0)]))
    else
      let n0 := if o.width = wPair then o.val % 2 ^ 20 else mergeElem o.width v0 o.val
      let n1 := o.val / 2 ^ 20
      let news := if o.words = 2 then [n0, n1] else [n0]
      let mine := ks.all (fun k => decide ((Tab.get {} e.cells (k / 128)).owner = .thread o.tid))
      if !mine ∨ news.any (fun n => decide (2 ^ 16 ≤ n)) then { b with eng := e.insnFault o.ctx 2 o.ea }
      else
        let mem := (ks.zip news).foldl (fun m kn =>
          (m.setBasin kn.1 (BitVec.ofNat 8 (kn.2 / 256))).setBasin (kn.1 + 1) (BitVec.ofNat 8 kn.2)) b.mem
        let e := foldS (fun k (e : Eng) => e.eccClear (8 * 2 ^ 20 + k / 2)) ks e
        ⟨mem, (o.finish e (fun x => x)).watched o
          (if o.words = 2 then [(true, o.ea, n0), (true, o.ea + 1, n1)] else [(true, o.ea, n0)])⟩

/-- LD or ST of a device register (R291, R7, R321, R543). -/
def Block.devAccess (b : Block) (o : MemOp) (a : Nat) : Block :=
  if h : o.tid < 64 then
    let who := Acc.thread ⟨o.tid, h⟩
    if o.kind = .ld then
      match b.devRead who a with
      | .ok v e => { b with eng := (o.finish e (fun x => x.setGreg o.r v)).watched o [(false, o.ea, v)] }
      | .fault _ e => { b with eng := e.insnFault o.ctx 2 o.ea }
      | .nowhere => b.onEng (fun e => e.nowhere o o.ea)
    else
      match b.devWrite who a o.val with
      | .ok _ e => { b with eng := (o.finish e (fun x => x)).watched o [(true, o.ea, o.val)] }
      | .fault _ e => { b with eng := e.insnFault o.ctx 2 o.ea }
      | .nowhere => b.onEng (fun e => e.nowhere o o.ea)
  else b

/-- The host byte address of window word `w` (R323). -/
def Eng.hostAddr (e : Eng) (w : Nat) : Nat :=
  (e.val .JX_HWBASE0 0 <<< 18) + (e.fld F.JX_HWBASE1_BASE_HI 0 <<< 38) + 4 * w

/-- Asks for a host-window transaction of an access (R293, R323); while its pavilion has 4 outstanding it waits for one to complete (R336). -/
def Eng.hostIssue (e : Eng) (o : MemOp) (w : Nat) : Eng :=
  let p := pavOf o.tid
  let whole := o.width == wPair && w % 2 == 0
  let len := if whole then 8 else 4
  let v := if o.width = wPair then
      (if whole then o.val % 2 ^ 20 + (o.val / 2 ^ 20) * 2 ^ 32 else if o.part = 0 then o.val % 2 ^ 20 else o.val / 2 ^ 20)
    else o.val
  let e := e.modThr o.tid (fun x => { x with mem := some o, hostWin := true })
  e.issueTxn ⟨0x20 + p, decide (o.kind = .st), e.hostAddr (w + o.part), len,
    if o.kind = .st then leBytes len v else [], .window o.tid⟩

/-- LOCK rules for an access (R285): the accesses it makes, or the fault (cause, address). -/
def MemOp.lockCheck (o : MemOp) (x : Thr) (rg : Region) : Option (Nat × Nat) :=
  let n := (match x.seq with
    | some (_, n) => n
    | none => 0) + o.words * (match o.kind with
      | .xch => 2
      | .addm => 2
      | _ => 1)
  if 4 < n then some (1, 0)
  else
    match rg with
    | .data canon _ =>
      let bk := bankOf canon
      let same := match x.seq with
        | some (b, m) => m == 0 || b == bk
        | none => true
      if same && (o.words == 1 || bankOf (canon + 1) == bk) then none else some (2, o.ea)
    | _ => some (2, o.ea)

/-- The open sequence counts an access (R285). -/
def MemOp.lockCount (o : MemOp) (x : Thr) (bk : Nat) : Thr :=
  let n := (match x.seq with
    | some (_, n) => n
    | none => 0) + o.words * (match o.kind with
      | .xch => 2
      | .addm => 2
      | _ => 1)
  { x with seq := some (bk, n) }

/-- An access waits: its thread is stalled with it (R330). -/
def Eng.park (e : Eng) (o : MemOp) : Eng := e.modThr o.tid (fun x => { x with mem := some { o with late := true } })

/-- An access is held at its bank while a locked sequence of another thread blocks it (R330). -/
def Eng.holdAccess (e : Eng) (o : MemOp) : Eng := { e.park o with heldBanks := e.heldBanks ++ [o.tid] }

/-- Does the access read, does it write? A word LD of the aperture may take the lock (R306). -/
def MemOp.writes (o : MemOp) (rg : Region) : Bool :=
  match rg with
  | .aperture _ => true
  | _ => decide (o.kind ≠ .ld)

/-- The words that an access reaches, for the order of R329. -/
def MemOp.reach (o : MemOp) (e : Eng) (rg : Region) : List Nat := rg.words o.words (e.basinAddr o.tid)

/-- Is the access held at a bank that another thread's locked sequence blocks (R330)? -/
def MemOp.heldBy (o : MemOp) (e : Eng) (rg : Region) : Bool :=
  match rg with
  | .data canon _ => e.bankHeld o.tid (bankOf canon) || (o.words == 2 && e.bankHeld o.tid (bankOf (canon + 1)))
  | .aperture canon => e.bankHeld o.tid (bankOf canon)
  | _ => false

/-- An access takes effect at its target (R329), or is held at its bank (R330). -/
def Block.serve (b : Block) (o : MemOp) (rg : Region) : Block :=
  if o.heldBy b.eng rg then b.onEng (fun e => e.holdAccess o)
  else
    let b := b.onEng (fun e => e.placeNote (o.reach e rg) (rg.place o.win) (decide (o.kind ≠ .st)) (o.writes rg))
    match rg with
    | .data canon _ =>
      let b := if o.locked then b.onEng (fun e => e.modThr o.tid (fun x => o.lockCount x (bankOf canon))) else b
      (match o.kind with
        | .lkw => b.lkwAccess o canon
        | .lkr => b.lkrAccess o canon
        | _ => b.dataAccess o canon)
    | .aperture canon =>
      (match o.kind with
        | .lkw => b.lkwAccess o canon
        | .lkr => b.lkrAccess o canon
        | _ => b.tryAcquire o canon)
    | .basin w => b.basinAccess o w
    | .dev a => b.devAccess o a
    | .host w => b.onEng (fun e => e.hostIssue o w)
    | .none => b.onEng (fun e => e.nowhere o o.ea)

/-- An access that passes the checks of its region takes effect in this cycle, or where its place in the order of R329 has passed in this
cycle, in the next one (DESIGN CHOICE, log 3). -/
def Block.access (b : Block) (o : MemOp) : Block :=
  let rg := regionOf (pavOf o.tid) o.ea
  if o.words = 2 ∧ (2 ^ 20 ≤ o.ea + 1 ∨ regionRow (o.ea + 1) ≠ regionRow o.ea) then
    b.onEng (fun e => e.insnFault o.ctx 2 o.ea)
  else if rg = .none then b.serve o rg
  else if !o.accepted rg then b.onEng (fun e => e.insnFault o.ctx 2 o.ea)
  else
    match (if o.locked then o.lockCheck (b.eng.getThr o.tid) rg else none) with
    | some (cause, a) => b.onEng (fun e => e.insnFault o.ctx cause a)
    | none =>
      if b.eng.placePassed (o.reach b.eng rg) (rg.place o.win) (o.writes rg) then
        b.onEng (fun e => { e.park o with passed := e.passed ++ [o.tid] })
      else b.serve o rg

/-- The access that a thread waits with takes effect. -/
def Block.serveThr (b : Block) (t : Nat) : Block :=
  match (b.eng.getThr t).mem with
  | some o => ({ b with eng := b.eng.modThr t (fun x => { x with mem := none }) } : Block).serve o (regionOf (pavOf t) o.ea)
  | none => b

/-- The accesses that waited for this cycle take effect, in the order of R329. -/
def Block.servePassed (b : Block) : Block :=
  let l := b.eng.passed
  let place (t : Nat) : Nat := match (b.eng.getThr t).mem with
    | some o => (regionOf (pavOf t) o.ea).place o.win
    | none => 0
  ((List.range 28).flatMap (fun k => l.filter (fun t => place t == k))).foldl (fun b t => b.serveThr t)
    { b with eng := { b.eng with passed := [] } }

/-- A memory instruction's execution (R276, R300). -/
def Ctx.mem (c : Ctx) (kind : MemKind) (rb : Byte) (m : MemMode) (b : Block) : Block :=
  let x := b.eng.getThr c.t
  let (ea, base) := m.ea rb c.w x
  b.access ⟨c.t, kind, c.w, rbHi rb, ea, x.oper c.w (rbHi rb), base, c.next, c.pc, c.lock, c.fed, 0, false, b.eng.windowOf c.t⟩

/-- Does the access of thread t wait for this bank? -/
def Eng.waitsBank (e : Eng) (t bank : Nat) : Bool :=
  match (e.getThr t).mem with
  | some o => (match regionOf (pavOf t) o.ea with
    | .data c _ => bankOf c == bank || (o.words == 2 && bankOf (c + 1) == bank)
    | .aperture c => bankOf c == bank
    | _ => false)
  | none => false

/-- In the cycle after the close of its sequence the accesses held at a bank take effect, in order, until one opens a sequence (R330, R333). -/
def Block.releaseHeld (b : Block) (bank : Nat) : Block :=
  b.eng.heldBanks.foldl (fun b t =>
    if b.eng.waitsBank t bank ∧ !b.eng.bankHeld t bank then
      ({ b with eng := { b.eng with heldBanks := b.eng.heldBanks.filter (· != t) } } : Block).serveThr t
    else b) b

/-- The response to a host-window transaction of a thread (R293, R323, R324): code 0 DONE, 1 FAULT, 2 NOWHERE. -/
def Block.hostResponse (b : Block) (t code data : Nat) : Block :=
  let e := b.eng
  match (e.getThr t).mem with
  | none => { b with eng := e }
  | some o =>
    let w := o.ea - 0xF0000
    let whole := o.width == wPair && w % 2 == 0
    if code ≠ 0 then
      let e := if code = 2 then
          (e.setReg .JX_NWADDR 0 (word o.ea)).post F.JX_NWSRC_VALID 0 |>.setFld F.JX_NWSRC_SRC 0 o.win else e
      { b with eng := e.insnFault o.ctx (if code = 2 then 3 else 2) o.ea }
    else
      let lo := data % 2 ^ 32
      let hi := data / 2 ^ 32
      let upper := decide (o.kind = .ld) && (decide (2 ^ 20 ≤ lo) || (whole && decide (2 ^ 20 ≤ hi)))
      let e := if upper then e.post F.JX_FABSTAT_HWUPPER 0 else e
      if o.width = wPair ∧ !whole ∧ o.part = 0 then
        { b with eng := e.hostIssue { o with part := 1, val := if o.kind = .ld then lo % 2 ^ 20 else o.val } w }
      else
        let v := if o.width = wPair then
            (if whole then lo % 2 ^ 20 + (hi % 2 ^ 20) * 2 ^ 20 else o.val + (lo % 2 ^ 20) * 2 ^ 20)
          else lo % 2 ^ 20
        let e := e.bumpReg .JX_HWCNT 0 1
        let e := o.finish e (fun x => if o.kind = .ld then x.putOper o.width o.r v else x)
        let x := if o.kind = .ld then v else o.val
        let wr := decide (o.kind ≠ .ld)
        b.withEng (e.watched o ((wr, o.ea, x % 2 ^ 20) :: (if o.width = wPair then [(wr, o.ea + 1, x / 2 ^ 20)] else [])))

end Sys2Proof.Machine
end

