-- ==== Sys2Proof/Machine/Insn.lean ====
section
/-! DEFINITION. A thread instruction as what the opcode map says of it with its execution, and its command on the machine. -/

namespace Sys2Proof.Machine

/-- An instruction: its row of the opcode map (10_isa_encoding.md R274, R275), the checks of its fields at an operand width
(R273, R276 to R280), its execution (11_isa_reference.md). -/
structure Op where
  rules : Rules
  ok : Nat → Bool
  run : Ctx → Block → Block

/-- The command that issues an instruction of a thread. Thread 0 is no thread (R1). -/
def State.insn (s : State) (t : Tid) (p : List Prefix) (o : Op) : Host.Outcome State Fault Refusal :=
  if t = 0 then .fault .noThread
  else .next { s with block := (s.block.onEng Eng.deliverDue).issue t.val p o.rules o.ok o.run }

/-- An event of a thread. -/
def State.thrEvent (s : State) (t : Tid) (f : Block → Block) : Host.Outcome State Fault Refusal :=
  if t = 0 then .fault .noThread else .next { s with block := f s.block }

/-- A command that changes the block. -/
def State.onBlock (s : State) (f : Block → Block) : Host.Outcome State Fault Refusal :=
  .next { s with block := f s.block }

/-- A command that changes the engine alone. -/
def State.onEng (s : State) (f : Eng → Eng) : Host.Outcome State Fault Refusal :=
  .next { s with block := s.block.onEng f }

end Sys2Proof.Machine
end

