-- ==== Sys2Proof/Machine/Alu.lean ====
section
/-! DEFINITION. Register arithmetic (11_isa_reference.md R294 to R299). -/

namespace Sys2Proof.Machine

/-- An ALU operation: `f` gives result and flags from the width in bits, d, x and the thread; `wr` says whether D is written. -/
def aluOp (o : AluOperand) (w : WRule) (shift wr : Bool) (f : Nat → Nat → Nat → Thr → AluOut) : Op where
  rules := { w := w, len := o.len }
  ok := o.ok shift
  run c := c.regs (fun x =>
    let r := f (wBits c.w) (x.oper c.w o.d) (if shift then o.count x else o.val x c.w) x
    (if wr then x.putOper c.w o.d r.res else x).setFlags r.fl)

/-- FLAGS.C at issue. -/
def Thr.carry (x : Thr) : Nat := b2n (bit x.flags.toNat 2)

def opMov (o : AluOperand) : Op := aluOp o .elem0 false true (fun _ _ x _ => ⟨x, {}⟩)
def opAdd (o : AluOperand) : Op := aluOp o .elem0 false true (fun w d x _ => addW w d x 0)
def opAdc (o : AluOperand) : Op := aluOp o .elem0 false true (fun w d x t => addW w d x t.carry)
def opSub (o : AluOperand) : Op := aluOp o .elem0 false true (fun w d x _ => subW w d x 0)
def opSbc (o : AluOperand) : Op := aluOp o .elem0 false true (fun w d x t => subW w d x (1 - t.carry))
def opAnd (o : AluOperand) : Op := aluOp o .elem0 false true (fun w d x _ => logW w (d &&& x))
def opOr (o : AluOperand) : Op := aluOp o .elem0 false true (fun w d x _ => logW w (d ||| x))
def opXor (o : AluOperand) : Op := aluOp o .elem0 false true (fun w d x _ => logW w (d ^^^ x))
def opCmp (o : AluOperand) : Op := aluOp o .elem0 false false (fun w d x _ => subW w d x 0)
def opTst (o : AluOperand) : Op := aluOp o .elem0 false false (fun w d x _ => logW w (d &&& x))
def opShl (o : AluOperand) : Op := aluOp o .elem0 true true (fun w d x _ => shlW w d x)
def opShr (o : AluOperand) : Op := aluOp o .elem0 true true (fun w d x _ => shrW w d x)
def opSar (o : AluOperand) : Op := aluOp o .elem0 true true (fun w d x _ => sarW w d x)
def opRol (o : AluOperand) : Op := aluOp o .elem0 true true (fun w d x _ => rolW w d x)
def opMul (o : AluOperand) : Op := aluOp o .elem0NoPair false true (fun w d x _ => mulW w d x)
def opMulh (o : AluOperand) : Op := aluOp o .elem0NoPair false true (fun w d x _ => mulhW w d x)

/-- A unary operation of format R. -/
def unaryOp (rb : Byte) (f : Nat → Nat → AluOut) : Op where
  rules := { w := .elem0, len := 2 }
  ok w := regOk w (rbHi rb) && regOk w (rbLo rb)
  run c := c.regs (fun x =>
    let r := f (wBits c.w) (x.oper c.w (rbLo rb))
    (x.putOper c.w (rbHi rb) r.res).setFlags r.fl)

def opNot (rb : Byte) : Op := unaryOp rb (fun w s => logW w (2 ^ w - 1 - s))
def opNeg (rb : Byte) : Op := unaryOp rb (fun w s => subW w 0 s 0)
def opClz (rb : Byte) : Op := unaryOp rb (fun w s =>
  ⟨clzW w s, { z := some (clzW w s == 0), n := some false, c := some (s == 0) }⟩)

/-- SXT (R297). -/
def opSxt (rb : Byte) : Op where
  rules := { w := .sxt, ext := true, len := 2 }
  ok _ := true
  run c := c.regs (fun x =>
    let r := sext20 (wBits c.w) (x.greg (rbLo rb))
    (x.setGreg (rbHi rb) r).setFlags (logW 20 r).fl)

/-- A special register (R269). -/
def Thr.special (x : Thr) (t n : Nat) : Nat :=
  match n with
  | 0 => x.flags.toNat
  | 1 => x.ipc.toNat
  | 2 => x.iflags.toNat
  | 3 => x.emPc.toNat
  | 4 => x.emLen.toNat
  | 10 => t
  | k => (Tab.get 0 x.emb (k - 5)).toNat

def opMfs (rb num : Byte) : Op where
  rules := { ext := true, len := 3 }
  ok _ := rbLo rb == 0 && decide (num.toNat ≤ 10)
  run c := c.regs (fun x => x.setGreg (rbHi rb) (x.special c.t num.toNat))

/-- MTS: FLAGS and IFLAGS keep [19:5] = 0 (R297). -/
def opMts (rb num : Byte) : Op where
  rules := { ext := true, len := 3 }
  ok _ := rbLo rb == 0 && decide (num.toNat ≤ 2)
  run c := c.regs (fun x =>
    let v := x.greg (rbHi rb)
    match num.toNat with
    | 0 => { x with flags := word (v % 32) }
    | 1 => { x with ipc := word v }
    | _ => { x with iflags := word (v % 32) })

/-- POS and LEN of format F (R273). -/
def fPos (f : BitVec 16) : Nat := f.toNat % 32
def fLen (f : BitVec 16) : Nat := f.toNat / 32 % 32 + 1
def fOk (f : BitVec 16) : Bool := decide (f.toNat < 1024) && decide (fPos f + fLen f ≤ 20)

def opBfx (rb : Byte) (f : BitVec 16) : Op where
  rules := { ext := true, len := 4 }
  ok _ := fOk f
  run c := c.regs (fun x =>
    let r := (x.greg (rbLo rb) >>> fPos f) % 2 ^ fLen f
    (x.setGreg (rbHi rb) r).setFlags { z := some (r == 0), n := some false })

def opBfi (rb : Byte) (f : BitVec 16) : Op where
  rules := { ext := true, len := 4 }
  ok _ := fOk f
  run c := c.regs (fun x =>
    x.setGreg (rbHi rb) (setBits (x.greg (rbHi rb)) (fPos f + fLen f - 1) (fPos f) (x.greg (rbLo rb))))

def opQperm (rb sel : Byte) : Op where
  rules := { ext := true, len := 3 }
  ok _ := true
  run c := c.regs (fun x => x.setGreg (rbHi rb) (qperm (x.greg (rbLo rb)) sel.toNat))

def opBperm (rb sel : Byte) : Op where
  rules := { ext := true, len := 3 }
  ok _ := rbHi rb % 2 == 0 && rbLo rb % 2 == 0
  run c := c.regs (fun x =>
    let r := bperm (x.greg (rbLo rb)) (x.greg (rbLo rb + 1)) sel.toNat
    (x.setGreg (rbHi rb) r.1).setGreg (rbHi rb + 1) r.2)

section
variable (t : Tid) (p : List Prefix) (o : AluOperand) (rb num : Byte) (f : BitVec 16) (s : State)

/-- MOV (R294). -/
def execMov := s.insn t p (opMov o)
/-- ADD (R294). -/
def execAdd := s.insn t p (opAdd o)
/-- ADC (R294). -/
def execAdc := s.insn t p (opAdc o)
/-- SUB (R294). -/
def execSub := s.insn t p (opSub o)
/-- SBC (R294). -/
def execSbc := s.insn t p (opSbc o)
/-- AND (R294). -/
def execAnd := s.insn t p (opAnd o)
/-- OR (R294). -/
def execOr := s.insn t p (opOr o)
/-- XOR (R294). -/
def execXor := s.insn t p (opXor o)
/-- CMP (R294). -/
def execCmp := s.insn t p (opCmp o)
/-- TST (R294). -/
def execTst := s.insn t p (opTst o)
/-- SHL (R295). -/
def execShl := s.insn t p (opShl o)
/-- SHR (R295). -/
def execShr := s.insn t p (opShr o)
/-- SAR (R295). -/
def execSar := s.insn t p (opSar o)
/-- ROL (R295). -/
def execRol := s.insn t p (opRol o)
/-- MUL (R294). -/
def execMul := s.insn t p (opMul o)
/-- MULH (R294). -/
def execMulh := s.insn t p (opMulh o)
/-- NOT (R296). -/
def execNot := s.insn t p (opNot rb)
/-- NEG (R296). -/
def execNeg := s.insn t p (opNeg rb)
/-- CLZ (R296). -/
def execClz := s.insn t p (opClz rb)
/-- SXT (R297). -/
def execSxt := s.insn t p (opSxt rb)
/-- MFS (R297). -/
def execMfs := s.insn t p (opMfs rb num)
/-- MTS (R297). -/
def execMts := s.insn t p (opMts rb num)
/-- BFX (R298). -/
def execBfx := s.insn t p (opBfx rb f)
/-- BFI (R298). -/
def execBfi := s.insn t p (opBfi rb f)
/-- QPERM (R299). -/
def execQperm := s.insn t p (opQperm rb num)
/-- BPERM (R299). -/
def execBperm := s.insn t p (opBperm rb num)

end

end Sys2Proof.Machine
end

