-- ==== Sys2Proof/Machine/Control.lean ====
section
/-! DEFINITION. Control instructions (11_isa_reference.md R301) and the emulation trap (10_isa_encoding.md R288, R289). -/

namespace Sys2Proof.Machine

/-- An instruction of opcode byte and `len - 1` operand bytes that writes registers of its thread by `f`, which is given
the address of the next instruction; PC stands there already. -/
def regOp (len : Nat) (pred : Bool) (ok : Bool) (f : Nat → Thr → Thr) : Op where
  rules := { pred := pred, len := len }
  ok _ := ok
  run c := c.regs (f c.next)

def opNop : Op := regOp 1 true true (fun _ x => x)
def opRet : Op := regOp 1 true true (fun _ x => { x with pc := word (x.greg 14) })
def opReti : Op := regOp 1 true true (fun _ x => { x with pc := x.ipc, flags := x.iflags })
def opEi : Op := regOp 1 true true (fun _ x => { x with flags := word (setBits x.flags.toNat 4 4 1) })
def opDi : Op := regOp 1 true true (fun _ x => { x with flags := word (setBits x.flags.toNat 4 4 0) })
def opBcc (c : Fin 14) (r : RelTarget) : Op :=
  regOp r.len false true (fun n x => if condHolds c.val x.flags.toNat then { x with pc := word (r.target n) } else x)
def opBra (r : RelTarget) : Op := regOp r.len true true (fun n x => { x with pc := word (r.target n) })
def opBsr (r : RelTarget) : Op := regOp r.len true true (fun n x => { x.setGreg 14 n with pc := word (r.target n) })
def opJmp (j : JumpTarget) : Op := regOp j.len true j.ok (fun _ x => { x with pc := word (j.target x) })
def opJsr (j : JumpTarget) : Op := regOp j.len true j.ok (fun n x => { x.setGreg 14 n with pc := word (j.target x) })

/-! ### The emulation trap -/

/-- The bytes of a prefix. -/
def pfxBytes : Prefix → List Byte
  | .width k => [BitVec.ofNat 8 (0xF0 + k.val)]
  | .pred c => [0xFA, c]
  | .lock => [0xFB]
  | .atPair x => [0xFC, x]
  | .ext => [0xFD]
  | .undef => [0xFE]

/-- The two bytes of a capture register (R289). -/
def embWord (bs : List Byte) (i : Nat) : Word := word (byteAt bs (2 * i) * 256 + byteAt bs (2 * i + 1))

/-- The trap's capture (R289). -/
def Thr.trap (x : Thr) (pc next : Nat) (vec : Word) (bs : List Byte) : Thr :=
  { x with emPc := word pc, emLen := word bs.length,
           emb := [(0, embWord bs 0), (1, embWord bs 1), (2, embWord bs 2), (3, embWord bs 3), (4, embWord bs 4)],
           ipc := word next, iflags := x.flags, flags := word (setBits x.flags.toNat 4 4 0), pc := vec }

/-- A reserved opcode 0xE0 + n (R288, R289): its trap, or EMU where THR_EMVEC is 0 (R255). -/
def opEmu (p : List Prefix) (n : Fin 16) (ops : List Byte) : Op where
  rules := { w := .all, len := 2 + n.val / 4 }
  ok _ := true
  run c b :=
    let vec := b.eng.reg .THR_EMVEC c.t
    if vec = 0 then b.onEng (fun e => e.insnFault c 6 0)
    else
      let bs := p.flatMap pfxBytes ++ [BitVec.ofNat 8 (0xE0 + n.val)] ++ padTo (1 + n.val / 4) (ops.take (1 + n.val / 4))
      c.regs (fun x => x.trap c.pc c.next vec bs) b

section
variable (t : Tid) (p : List Prefix) (r : RelTarget) (j : JumpTarget) (s : State)

/-- NOP (R301). -/
def execNop := s.insn t p opNop
/-- RET (R301). -/
def execRet := s.insn t p opRet
/-- RETI (R301). -/
def execReti := s.insn t p opReti
/-- EI (R301). -/
def execEi := s.insn t p opEi
/-- DI (R301). -/
def execDi := s.insn t p opDi
/-- Bcc (R301). -/
def execBcc (c : Fin 14) (r : RelTarget) (s : State) := s.insn t p (opBcc c r)
/-- BRA (R301). -/
def execBra := s.insn t p (opBra r)
/-- BSR (R301). -/
def execBsr := s.insn t p (opBsr r)
/-- JMP (R301). -/
def execJmp := s.insn t p (opJmp j)
/-- JSR (R301). -/
def execJsr := s.insn t p (opJsr j)
/-- EMULATION_TRAP (R289). -/
def execEmulationTrap (n : Fin 16) (ops : List Byte) (s : State) := s.insn t p (opEmu p n ops)

end

end Sys2Proof.Machine
end

