-- ==== Sys2Proof/Machine/MemInsn.lean ====
section
/-! DEFINITION. Memory instructions (11_isa_reference.md R300, R306 to R308). -/

namespace Sys2Proof.Machine

/-- A memory instruction of format M. -/
def memOp (kind : MemKind) (w : WRule) (atp lock : Bool) (rb : Byte) (m : MemMode) : Op where
  rules := { w := w, atp := atp, lock := lock, len := 1 + m.len }
  ok := m.ok rb false
  run c := c.mem kind rb m

def opLd (rb : Byte) (m : MemMode) : Op := memOp .ld .all true true rb m
def opSt (rb : Byte) (m : MemMode) : Op := memOp .st .all true true rb m
def opXch (rb : Byte) (m : MemMode) : Op := memOp .xch .all true true rb m
def opAddm (rb : Byte) (m : MemMode) : Op := memOp .addm .all true true rb m
def opLkw (rb : Byte) (m : MemMode) : Op := memOp .lkw .no false false rb m
def opLkr (rb : Byte) (m : MemMode) : Op := memOp .lkr .no true false rb m

/-- LEA: R receives ea; no access (R277, R300). -/
def opLea (rb : Byte) (m : MemMode) : Op where
  rules := { len := 1 + m.len }
  ok := m.ok rb true
  run c := c.regs (fun x => x.setGreg (rbHi rb) (m.ea rb c.w x).1)

section
variable (t : Tid) (p : List Prefix) (rb : Byte) (m : MemMode) (s : State)

/-- LD (R300). -/
def execLd := s.insn t p (opLd rb m)
/-- ST (R300). -/
def execSt := s.insn t p (opSt rb m)
/-- LEA (R300). -/
def execLea := s.insn t p (opLea rb m)
/-- XCH (R300). -/
def execXch := s.insn t p (opXch rb m)
/-- ADDM (R300). -/
def execAddm := s.insn t p (opAddm rb m)
/-- LKW (R307). -/
def execLkw := s.insn t p (opLkw rb m)
/-- LKR (R308). -/
def execLkr := s.insn t p (opLkr rb m)

/-- Does the thread's effective address lie in the lock aperture (R306)? -/
def inAperture (t : Tid) (rb : Byte) (m : MemMode) (s : State) : Bool :=
  let ea := (m.ea rb wWord (s.block.eng.getThr t.val)).1
  decide (0x60000 ≤ ea) && decide (ea < 0x80000)

/-- LOCK_TRY_ACQUIRE: a word LD of an aperture address (R306). The row names the LD of that address; at another address the
command has no effect. -/
def execLockTryAcquire : Host.Outcome State Fault Refusal :=
  if inAperture t rb m s then s.insn t p (opLd rb m) else s.thrEvent t (fun b => b)

end

end Sys2Proof.Machine
end

