-- ==== Sys2Proof/Machine/Waits.lean ====
section
/-! DEFINITION. Waits and conduits: WTK, WEV, WEVR, CSND, CSNC, CRCV, CABT (11_isa_reference.md R303 to R312; 13 R353,
R354), and the ends of waits (R304, R309, R310, R311; 03_sundial.md R72). -/

namespace Sys2Proof.Machine

/-- The thread waits; PC stays at the instruction (R247). -/
def Ctx.wait (c : Ctx) (w : Wait) (b : Block) : Block :=
  b.onEng (fun e => e.modThr c.t (fun x => { x with st := .wait, wait := w, waitNext := c.next }))

/-- WTK (R303). -/
def opWtk : Op where
  rules := { atp := false }
  ok _ := true
  run c b := (c.wait .wtk b).onEng (fun e => e.modThr c.t (fun x => { x with wtkCyc := e.now + 1 }))

/-- The lowest event input of a mask with a count (R304). -/
def Thr.firstEv (x : Thr) (m : Nat) : Option Nat :=
  [0, 1, 2, 3, 4, 5, 6, 7].find? (fun i => bit m i && decide (0 < Tab.get 0 x.ev i))

/-- The end of a wait on event input `k`: the count, and for WEVR the register (R304). -/
def Thr.endEv (x : Thr) (k : Nat) (reg : Option Nat) : Thr :=
  let y := { x with ev := Tab.put x.ev k (Tab.get 0 x.ev k - 1) }
  match reg with
  | none => y
  | some r => y.setGreg r (2 ^ (8 + k) + x.greg r % 256)

/-- WEV and WEVR with their mask (R304). -/
def Ctx.wev (c : Ctx) (m : Nat) (reg : Option Nat) (b : Block) : Block :=
  match (b.eng.getThr c.t).firstEv m with
  | some k => c.regs (fun x => x.endEv k reg) b
  | none => c.wait (.wev m reg) b

def opWev (mask : Byte) : Op where
  rules := { atp := false, len := 2 }
  ok _ := decide (mask ≠ 0)
  run c := c.wev mask.toNat none

def opWevr (rb : Byte) : Op where
  rules := { atp := false, len := 2 }
  ok _ := rbHi rb == 0
  run c b :=
    let m := (b.eng.getThr c.t).greg (rbLo rb) % 256
    if m = 0 then b.onEng (fun e => e.insnFault c 1 0) else c.wev m (some (rbLo rb)) b

/-! ### Conduits -/

/-- Cycles until an event at a conduit is visible to its other thread (R354). -/
def Eng.cndLag (e : Eng) (cd : Nat) : Nat :=
  if pavOf (e.fld F.CND_CFG_WTID cd) = pavOf (e.fld F.CND_CFG_RTID cd) then 1 else 2

/-- Has the oldest closed message become visible to the reader (R311, R354)? -/
def Eng.cndReadable (e : Eng) (cd : Nat) : Bool :=
  match (e.getCnd cd).closed with
  | (_, c) :: _ => decide (c + e.cndLag cd ≤ e.now)
  | [] => false

/-- A word is appended to the open message, opening one if none is (R310); `close`: CSNC. -/
def Eng.cndAppend (e : Eng) (cd : Nat) (w : Word) (close : Bool) : Eng :=
  let x := e.getCnd cd
  let msg := x.opened.getD [] ++ [w]
  if close then e.setCnd cd { x with opened := none, closed := x.closed ++ [(msg, e.now)], closeCyc := e.now + 1 }
  else e.setCnd cd { x with opened := some msg }

/-- CSND and CSNC (R310, R353). -/
def Ctx.send (c : Ctx) (rb cd : Byte) (close : Bool) (b : Block) : Block :=
  let d := cd.toNat
  let e := b.eng
  let x := e.getCnd d
  if !(e.flag F.CND_CFG_EN d) ∨ e.fld F.CND_CFG_WTID d ≠ c.t then b.onEng (fun e => e.insnFault c 2 d)
  else if x.opened.isNone ∧ 2 ≤ e.cndUsed d then c.wait (.csend (rbHi rb) d close) b
  else if 8 ≤ (x.opened.getD []).length then b.onEng (fun e => e.insnFault c 2 d)
  else c.regs (fun x => x) (b.onEng (fun e => e.cndAppend d (word ((e.getThr c.t).greg (rbHi rb))) close))

/-- The next word of the oldest closed message is taken: the word, whether it was the last (R311, R354). -/
def Eng.cndTake (e : Eng) (cd : Nat) : Word × Bool × Eng :=
  let x := e.getCnd cd
  match x.closed with
  | [] => (0, false, e)
  | (m, _) :: rest =>
    let w := m.getD x.taken 0
    if x.taken + 1 < m.length then (w, false, e.setCnd cd { x with taken := x.taken + 1 })
    else
      let fr := (x.freeing.filter (fun k => decide (e.now < k))) ++ [e.now + e.cndLag cd]
      (w, true, e.setCnd cd { x with closed := rest, taken := 0, freeing := fr })

/-- What CRCV writes (R311). -/
def Thr.received (x : Thr) (r : Nat) (w : Word) (last : Bool) : Thr :=
  (x.setGreg r w.toNat).setFlags { c := some last }

/-- CRCV (R311, R353). -/
def Ctx.recv (c : Ctx) (rb cd : Byte) (b : Block) : Block :=
  let d := cd.toNat
  let e := b.eng
  if !(e.flag F.CND_CFG_EN d) ∨ e.fld F.CND_CFG_RTID d ≠ c.t then b.onEng (fun e => e.insnFault c 2 d)
  else if !(e.cndReadable d) then c.wait (.crecv (rbHi rb) d) b
  else
    let (w, last, e) := e.cndTake d
    c.regs (fun x => x.received (rbHi rb) w last) { b with eng := e }

/-- CABT (R312, R353, R355). -/
def Ctx.abortMsg (c : Ctx) (cd : Byte) (b : Block) : Block :=
  let d := cd.toNat
  let e := b.eng
  if !(e.flag F.CND_CFG_EN d) ∨ e.fld F.CND_CFG_WTID d ≠ c.t then b.onEng (fun e => e.insnFault c 2 d)
  else
    let was := (e.getCnd d).opened.isSome
    let e := if was then (e.dropOpen d).bump F.CND_CNT_ABORTS 0 1 else e
    c.regs (fun x => x.setFlags { z := some (!was) }) { b with eng := e }

/-- A conduit instruction of format C; its Ld is 8 (R310). -/
def cndOp (atp : Bool) (ok : Bool) (cd : Byte) (run : Ctx → Block → Block) : Op where
  rules := { atp := atp, len := 3 }
  ok _ := ok && decide (cd.toNat < 64)
  run c := run { c with ld := 8 }

def opCsnd (rb cd : Byte) : Op := cndOp false (rbLo rb == 0) cd (fun c => c.send rb cd false)
def opCsnc (rb cd : Byte) : Op := cndOp false (rbLo rb == 0) cd (fun c => c.send rb cd true)
def opCrcv (rb cd : Byte) : Op := cndOp false (rbLo rb == 0) cd (fun c => c.recv rb cd)
def opCabt (rb cd : Byte) : Op := cndOp true (decide (rb = 0)) cd (fun c => c.abortMsg cd)

/-! ### The ends of waits -/

/-- Is the thread WAIT, or HALTED with PREV WAIT (R508)? -/
def Thr.waiting (x : Thr) : Bool := decide (x.under = .wait)

/-- The wait is over: RUN, PC at the next instruction, which may issue from now on, `f` written (R303 to R311, R508). -/
def Thr.endWait (x : Thr) (f : Thr → Thr) : Thr :=
  f { x.setUnder .run with wait := .none, pc := word x.waitNext, ready := 0 }

/-- The end of a WEV or WEVR (R304): a count stands, and the barrels run (R475). -/
def Eng.endWev (e : Eng) (t : Nat) : Eng :=
  let x := e.getThr t
  match x.wait with
  | .wev m reg =>
    (match x.firstEv m with
      | some k => if x.waiting ∧ e.lanesOn ∧ !e.outranked t 0 then e.setThr t (x.endWait (fun y => y.endEv k reg)) else e
      | none => e)
  | _ => e

/-- A granted LKW steps its base register; one abandoned while it waits does not (R247, R276). -/
def Thr.stepBase (y : Thr) : Thr :=
  match y.waitBase with
  | some (r, v) => y.setGreg r v
  | none => y

/-- The end of an LKW: the grant's cycle has come; C = ABANDONED at the grant, R = the word as granted (R307, R309). -/
def Block.endLkw (b : Block) (t : Nat) : Block :=
  let x := b.eng.getThr t
  match x.wait with
  | .lock r a (some (c, ab, wm)) =>
    if b.eng.now < c ∨ !x.waiting ∨ !b.eng.lanesOn ∨ b.eng.outranked t 0 then b
    else
      let w := acquired t (Tab.get 0 b.mem.data a).toNat + wm * 256
      let e := b.eng
      let e := { e with locks := e.locks.map (fun (ks : Nat × LockSlot) =>
        if ks.2.addr = a then (ks.1, { ks.2 with abandoned := false }) else ks) }
      { b with eng := e.setThr t (x.endWait (fun y => (y.stepBase.setGreg r w).setFlags { c := some ab })) }
  | _ => b

/-- The end of a CRCV (R311, R354). -/
def Eng.endCrcv (e : Eng) (t : Nat) : Eng :=
  let x := e.getThr t
  match x.wait with
  | .crecv r d =>
    if !x.waiting ∨ !e.lanesOn ∨ e.outranked t 0 ∨ !(e.cndReadable d) then e
    else
      let (w, last, e) := e.cndTake d
      e.setThr t (x.endWait (fun y => y.received r w last))
  | _ => e

/-- The end of an opening send (R310, R354). -/
def Eng.endSend (e : Eng) (t : Nat) : Eng :=
  let x := e.getThr t
  match x.wait with
  | .csend r d close =>
    if !x.waiting ∨ !e.lanesOn ∨ e.outranked t 0 ∨ 2 ≤ e.cndUsed d then e
    else (e.cndAppend d (word (x.greg r)) close).setThr t (x.endWait (fun y => y))
  | _ => e

/-- Was the AT target of a waiting thread first found reached two cycles ago or earlier (R72)? The barrels run (R76, R475), and no event of
higher precedence reached the thread in this cycle (R246). -/
def Eng.atDue (e : Eng) (t : Nat) : Bool :=
  let x := e.getThr t
  decide (x.wait = .atTime) && x.waiting && e.lanesOn && !e.outranked t 0 &&
    (match x.atHit with
      | some c => decide (c + 2 ≤ e.now)
      | none => false)

/-- AT_RELEASE: the thread runs, and its instruction issues (R72, R284); one reached while the barrels did not run is late (R76). -/
def Eng.atRelease (e : Eng) (t : Nat) : Eng :=
  if !e.atDue t then e
  else
    let x := e.getThr t
    let e := if x.atSlept then e.atLate else e
    e.setThr t { x.setUnder .run with wait := .none, atDone := true, atHit := none, atSlept := false }

section
variable (t : Tid) (p : List Prefix) (rb cd : Byte) (s : State)

/-- WTK (R303). -/
def execWtk := s.insn t p opWtk
/-- WEV (R304). -/
def execWev (mask : Byte) (s : State) := s.insn t p (opWev mask)
/-- WEVR (R304). -/
def execWevr := s.insn t p (opWevr rb)
/-- CSND (R310). -/
def execCsnd := s.insn t p (opCsnd rb cd)
/-- CSNC (R310). -/
def execCsnc := s.insn t p (opCsnc rb cd)
/-- CRCV (R311). -/
def execCrcv := s.insn t p (opCrcv rb cd)
/-- CABT (R312). -/
def execCabt := s.insn t p (opCabt rb cd)
/-- WEV_WAIT_END (R304). -/
def execWevWaitEnd := s.thrEvent t (fun b => b.onEng (fun e => e.endWev t.val))
/-- LKW_WAIT_END (R309). -/
def execLkwWaitEnd := s.thrEvent t (fun b => b.endLkw t.val)
/-- CRCV_WAIT_END (R311). -/
def execCrcvWaitEnd := s.thrEvent t (fun b => b.onEng (fun e => e.endCrcv t.val))
/-- SEND_OPEN_WAIT_END (R310). -/
def execSendOpenWaitEnd := s.thrEvent t (fun b => b.onEng (fun e => e.endSend t.val))
/-- AT_RELEASE (R72). -/
def execAtRelease := s.thrEvent t (fun b => b.onEng (fun e => e.atRelease t.val))

end

end Sys2Proof.Machine
end

