-- ==== Sys2Proof/Machine/Feed.lean ====
section
/-! DEFINITION. Instructions fed to a halted thread (20_hide_debug.md R511): the bytes as prefixes and opcode (10_isa_encoding.md R270
to R276), what is rejected, and the execution. -/

namespace Sys2Proof.Machine

/-- The prefixes in front of an opcode byte, and the bytes from it on; none where the bytes end inside them (R270, R271). -/
def splitPfx : List Byte → Option (List Prefix × List Byte)
  | [] => none
  | b :: t =>
    let more (x : Prefix) (r : Option (List Prefix × List Byte)) : Option (List Prefix × List Byte) := r.map (fun y => (x :: y.1, y.2))
    let k := b.toNat
    if k < 0xF0 then some ([], b :: t)
    else if h : k - 0xF0 < 10 then more (.width ⟨k - 0xF0, h⟩) (splitPfx t)
    else if k = 0xFA then
      match t with
      | c :: t => more (.pred c) (splitPfx t)
      | [] => none
    else if k = 0xFB then more .lock (splitPfx t)
    else if k = 0xFC then
      match t with
      | c :: t => more (.atPair c) (splitPfx t)
      | [] => none
    else if k = 0xFD then some ([.ext], t)
    else none

/-- ALU op k (R274). -/
def aluOps : List (AluOperand → Op) :=
  [opMov, opAdd, opAdc, opSub, opSbc, opAnd, opOr, opXor, opCmp, opTst, opShl, opShr, opSar, opRol, opMul, opMulh]

/-- A 24-bit field, low byte first. -/
def le24 (a b c : Byte) : BitVec 24 := c ++ b ++ a

/-- The mode bytes of format M (R276). -/
def feedMode : Nat → List Byte → Option MemMode
  | 0, [] => some .reg
  | 1, [d] => some (.d8 d)
  | 2, [a, b] => some (.d16 (b ++ a))
  | 3, [] => some .post
  | 4, [] => some .pre
  | 5, [x] => some (.idx x)
  | 6, [a, b, c] => some (.abs (le24 a b c))
  | _, _ => none

/-- The instruction of a page 0 opcode with exactly its operand bytes; none for what a feed rejects (R274, R511). -/
def feedPage0 (k : Nat) (l : List Byte) : Option Op :=
  let low := decide (k % 16 < 8)
  match k / 16, l with
  | 0, [] => if k = 0 then some opNop else if k = 4 then some opEi else if k = 5 then some opDi else none
  | 1, [rb] => aluOps[k % 16]?.map (fun f => f (.reg rb))
  | 2, [rb, i] => aluOps[k % 16]?.map (fun f => f (.imm8 rb i))
  | 3, [rb, a, b, c] => aluOps[k % 16]?.map (fun f => f (.imm20 rb (le24 a b c)))
  | 4, rb :: t => (feedMode (k % 8) t).map (fun m => if low then opLd rb m else opSt rb m)
  | 5, rb :: t => (feedMode (k % 8) t).map (fun m => if low then opLea rb m else opXch rb m)
  | 6, rb :: t => if low then (feedMode (k % 8) t).map (fun m => opAddm rb m) else none
  | 7, rb :: t => if low then (feedMode (k % 8) t).map (fun m => opLkr rb m) else none
  | 11, [rb] => if k = 0xB0 then some (opNot rb) else if k = 0xB1 then some (opNeg rb) else if k = 0xB2 then some (opClz rb) else none
  | 12, [rb, cd] => if k = 0xC5 then some (opCabt rb cd) else none
  | _, _ => none

/-- The instruction of a page 1 opcode with exactly its operand bytes (R275). -/
def feedPage1 (k : Nat) (l : List Byte) : Option Op :=
  match k, l with
  | 0x00, [rb, a, b] => some (opBfx rb (b ++ a))
  | 0x01, [rb, a, b] => some (opBfi rb (b ++ a))
  | 0x02, [rb, sel] => some (opQperm rb sel)
  | 0x03, [rb, sel] => some (opBperm rb sel)
  | 0x04, [rb] => some (opSxt rb)
  | 0x10, [rb, n] => some (opMfs rb n)
  | 0x11, [rb, n] => some (opMts rb n)
  | _, _ => none

/-- The instruction that fed bytes spell, with its prefixes, where it is accepted (R511). -/
def feedDecode (l : List Byte) : Option (Pfx × Op) :=
  match splitPfx l with
  | some (ps, b :: rest) =>
    let p := parsePfx ps
    (if p.ext then feedPage1 b.toNat rest else feedPage0 b.toNat rest).bind (fun o =>
      if !p.lock && p.atp.isNone && o.rules.pfxOk p && o.ok (p.width.getD wWord) then some (p, o) else none)
  | _ => none

/-- Does this cycle offer the fed instruction an issue: an entry of its thread, two cycles after the write or later, or for a thread with none an
idle or unused entry of its barrel (R511)? -/
def Eng.feedDue (e : Eng) (t : Nat) : Bool :=
  decide (e.hide.feedAt + 2 ≤ e.now) && ((e.entryLane t).isSome ||
    ((e.getBrl (pavOf t)).force.all (fun x => x.2 != t) && e.spareLeft (pavOf t)))

/-- The fed instruction takes its issue, ahead of the spare pool's choice (R511). -/
def Eng.feedTake (e : Eng) (t : Nat) : Eng :=
  let p := pavOf t
  let b := e.getBrl p
  let e := { e with hide := { e.hide with feedIss := true } }
  if (e.entryLane t).isSome then e else e.setBrl p { b with spared := (e.now + 1, b.sparesAt e.now + 1) }

/-- A feed in its cycles (R511): an instruction that is not accepted is rejected; an accepted one issues at the first entry that it is offered
and runs with the thread's registers. -/
def Block.feedStep (b : Block) : Block :=
  match b.eng.hide.feed with
  | none => b
  | some (t, l) =>
    let x := b.eng.getThr t
    if b.eng.hide.feedIss ∨ b.eng.hide.feedRes.isSome then b
    else
      match feedDecode l with
      | none => b.onEng (fun e => e.feedEnd 1 0 e.now)
      | some (p, o) =>
        if x.st ≠ .halted ∨ x.mem.isSome ∨ !b.eng.barrelRuns (pavOf t) ∨ !b.eng.feedDue t then b
        else
          let b := b.onEng (fun e => e.feedTake t)
          let annul : Bool := match p.pred with
            | some c => !condHolds c x.flags.toNat
            | none => false
          if annul then b.onEng (fun e => e.feedEnd 0 0 (e.now + 8))
          else o.run { t := t, w := p.width.getD wWord, next := x.pc.toNat, pc := x.pc.toNat, fed := true } b

/-- FEED_DONE: BUSY clears once the instruction is complete, and HIDE_FSTAT shows its RESULT (R511). -/
def Eng.feedDone (e : Eng) : Eng :=
  match e.hide.feed, e.hide.feedRes with
  | some _, some (result, cause, n) =>
    if e.now < n then e
    else
      let e := { e with hide := { e.hide with feed := none, feedIss := false, feedRes := none } }
      ((e.setFld F.HIDE_FSTAT_BUSY 0 0).setFld F.HIDE_FSTAT_RESULT 0 result).setFld F.HIDE_FSTAT_CAUSE 0 cause
  | _, _ => e

end Sys2Proof.Machine
end

