-- ==== Sys2Proof/Machine/RegOps.lean ====
section
/-! DEFINITION. Register accesses as commands: by an accessor at a word address, and by a request at the target port
(00_scope.md R6, R7, R11, R543; 12_memory_fabric.md R321; 16_host_rings.md R400 to R403; 19_reset_recovery.md R487). -/

namespace Sys2Proof.Machine

/-! ### Answers -/

/-- The answer to a register access (R399): accessor, 0 DONE, 1 FAULT or 2 NOWHERE, the data (RDATA 0 with a FAULT, R543). -/
def Eng.answer (e : Eng) (who : Acc) (resp v : Nat) : Eng := { e with sys := { e.sys with ans := (who.key, resp, v) } }

/-- An illegal access of the host is recorded (R403, R434). -/
def Eng.setupErr (e : Eng) (addr code : Nat) : Eng :=
  ((e.post F.JX_SETUP_ERR_VALID 0).setFld F.JX_SETUP_ERR_CODE 0 code).setReg .JX_SETUP_EADDR 0 (word addr)

/-- The fabric records a NOWHERE with its source (R321, R340). -/
def Eng.nowhereAt (e : Eng) (addr src : Nat) : Eng :=
  ((e.setReg .JX_NWADDR 0 (word addr)).post F.JX_NWSRC_VALID 0).setFld F.JX_NWSRC_SRC 0 src

/-- A thread whose access is illegal or finds nothing takes a fault (R7, R255, R321) at its PC, which points to the instruction that
makes the access (R256; log 14). -/
def Eng.accessFault (e : Eng) (t cause addr : Nat) : Eng :=
  let x := e.getThr t
  if x.st ≠ .run then e else e.faultThr t cause x.pc.toNat addr

/-- The block after an access, with its answer. -/
def Block.settleAns (b : Block) (who : Acc) (addr : Nat) (d : DevAns Eng) : Block :=
  match d with
  | .ok v e => { b with eng := e.answer who 0 v }
  | .fault c e =>
    let e := e.answer who 1 0
    { b with eng := match who with
      | .thread t => e.accessFault t.val 2 addr
      | .host => e.setupErr addr c
      | _ => e }
  | .nowhere =>
    let e := b.eng.answer who 2 0
    { b with eng := match who with
      | .thread t => (e.nowhereAt addr (e.windowOf t.val)).accessFault t.val 3 addr
      | .host => e.nowhereAt addr 16
      | .hide => e.nowhereAt addr 17
      | .tap => e }

def Block.regRead (b : Block) (who : Acc) (addr : Nat) : Block := b.settleAns who addr (b.devRead who addr)

def Block.regWrite (b : Block) (who : Acc) (addr v : Nat) : Block := b.settleAns who addr (b.devWrite who addr v)

/-! ### The target port -/

/-- The check of one half of a request: 0, the code of FAULT, or 16 for NOWHERE; `v` is the 32-bit half word (R7, R400, R403, R487). -/
def Eng.halfCode (e : Eng) (wr : Bool) (addr v : Nat) : Nat :=
  let reg := if 0xC0000 ≤ addr ∧ addr < 0xF0000 then Reg.ofAddr addr else none
  match reg with
  | none => if e.engState = 0 then 3 else 16
  | some (r, i) =>
    if wr then firstCode [need (e.engState != 0) 3, need (decide (v < 2 ^ 20)) 7, e.writeCode .host r i v]
    else e.readCode .host r i

/-- The halves of a request that name a register: word address and 32-bit data, the lower first (R401). -/
def reqHalves (q : HostReq) : List (Nat × Nat) :=
  let w := q.addr.toNat / 4
  let lo := (w, q.data.toNat % 2 ^ 32)
  let hi := (w + 1, q.data.toNat / 2 ^ 32)
  if q.be = 0x0F then [lo] else if q.be = 0xF0 then [hi] else [lo, hi]

/-- Is the request of a form of R401? -/
def reqFormOk (q : HostReq) : Bool :=
  q.len == 0 && (q.be == 0x0F || q.be == 0xF0 || q.be == 0xFF) && q.addr.toNat % 8 == 0

/-- The first half that fails its check, with its code. -/
def Eng.failingHalf (e : Eng) (wr : Bool) (l : List (Nat × Nat)) : Option (Nat × Nat) :=
  (l.map (fun h => (h.1, e.halfCode wr h.1 h.2))).find? (fun h => h.2 != 0)

/-- The accesses of a request whose halves passed: the data read, the failure of a write's own check, the block (R401, R402). -/
def Block.doHalves (b : Block) (wr : Bool) : List (Nat × Nat) → Nat × Option (Nat × Nat) × Block
  | [] => (0, none, b)
  | (a, v) :: rest =>
    let (x, f, e) : Nat × Option (Nat × Nat) × Eng :=
      match (if wr then b.devWrite .host a v else b.devRead .host a) with
      | .ok x e => (x, none, e)
      | .fault c e => (0, some (a, c), e)
      | .nowhere => (0, some (a, 16), b.eng)
    let (y, g, b) := ({ b with eng := e } : Block).doHalves wr rest
    (x * 2 ^ (if a % 2 = 0 then 0 else 32) + y, (match f with
      | none => g
      | some z => some z), b)

/-- A request at the target port, with its response (R399 to R403). -/
def Block.target (b : Block) (wr : Bool) (q : HostReq) : Block :=
  let w := q.addr.toNat / 4
  if !reqFormOk q then { b with eng := (b.eng.answer .host 1 0).setupErr w 8 }
  else
    let l := reqHalves q
    match b.eng.failingHalf wr l with
    | some (a, 16) => { b with eng := (b.eng.answer .host 2 0).nowhereAt a 16 }
    | some (a, c) => { b with eng := (b.eng.answer .host 1 0).setupErr a c }
    | none =>
      let (x, f, b) := b.doHalves wr l
      match f with
      | none => { b with eng := b.eng.answer .host 0 x }
      | some (a, c) => { b with eng := (b.eng.answer .host 1 0).setupErr a c }

/-! ### Commands -/

/-- A command of an accessor. Thread 0 is no thread (R1). -/
def State.onAcc (s : State) (who : Acc) (f : Block → Block) : Host.Outcome State Fault Refusal :=
  if who = .thread 0 then .fault .noThread else .next { s with block := f s.block }

/-- An action that a register write starts: `who` writes `v` to register r, copy i. Where no bit of `start` is set in `v`, or its field
does not hold one of the values of `ops`, the word does not start it, and nothing happens. -/
def State.action (s : State) (who : Acc) (r : Reg) (i : Nat) (v : Word) (starts : Nat → Bool) : Host.Outcome State Fault Refusal :=
  s.onAcc who (fun b => if starts v.toNat then b.regWrite who (r.addr i) v.toNat else b)

/-- READ_CLEAR, T80_READ, COUNT_LATCH_READ and the like: a read of a register whose kind the command names. -/
def State.readOf (s : State) (who : Acc) (addr : Nat) (is : Reg → Nat → Bool) : Host.Outcome State Fault Refusal :=
  s.onAcc who (fun b => match Reg.ofAddr addr with
    | some (r, i) => if is r i then b.regRead who addr else b
    | none => b)

end Sys2Proof.Machine
end

