-- ==== Sys2Proof/Machine/HideEvents.lean ====
section
/-! DEFINITION. The Hide: the ends of its accesses and of feeds, the cool-down, the TAP path (20_hide_debug.md R502 to R511;
21_integration.md R534). -/

namespace Sys2Proof.Machine

/-! ### The access unit (R504 to R506) -/

/-- Are all 21 threads of pavilion p HALTED? -/
def Eng.pavHalted (e : Eng) (p : Nat) : Bool := (pavThreads p).all (fun t => decide ((e.getThr t).st = .halted))

/-- Are all three pavilions halted? -/
def Eng.allHalted (e : Eng) : Bool := [0, 1, 2].all e.pavHalted

/-- The access ends with RESP, ERR and, where it read a value, HIDE_ADATA. -/
def Eng.accEnd (e : Eng) (resp err : Nat) (v : Option Nat) : Eng :=
  let e := { e with hide := { e.hide with acc := none } }
  let e := (e.setFld F.HIDE_ASTAT_RESP 0 resp).setFld F.HIDE_ASTAT_ERR 0 err
  match v with
  | some x => e.setReg .HIDE_ADATA 0 (word x)
  | none => e

/-- An access to a device register (R504). -/
def Block.accDev (b : Block) (a : HideAcc) : Block :=
  match (if a.wr then b.devWrite .hide a.addr a.data else b.devRead .hide a.addr) with
  | .ok v e => { b with eng := e.accEnd 0 0 (if a.wr then none else some v) }
  | .fault c e => { b with eng := e.accEnd 1 c none }
  | .nowhere => { b with eng := (b.eng.nowhereAt a.addr 17).accEnd 2 0 none }

/-- An access to a word of local or shared data (R505, R325, R345). -/
def Block.accWord (b : Block) (a : HideAcc) (canon : Nat) (still wrOk : Bool) : Block :=
  if a.wr && !wrOk then b.onEng (fun e => e.accEnd 1 7 none)
  else if !still then b.onEng (fun e => e.accEnd 1 3 none)
  else if a.wr then (b.setWord canon a.data).onEng (fun e => e.accEnd 0 0 none)
  else
    let (dbl, e) := b.eng.eccRead (eccData canon)
    let b := { b with eng := e }
    if dbl then b.onEng (fun e => e.accEnd 3 0 none)
    else (b.touchWord canon).onEng (fun e => e.accEnd 0 0 (some (b.dataWord canon)))

/-- A read of a Basin cell (R505, R196). -/
def Block.accBasin (b : Block) (a : HideAcc) : Block :=
  let w := a.addr - 0x80000
  let k := (1024 * a.page + w / 64) * 128 + 2 * (w % 64)
  if a.wr then b.onEng (fun e => e.accEnd 1 7 none)
  else if !b.eng.allHalted then b.onEng (fun e => e.accEnd 1 3 none)
  else
    let (dbl, e) := b.eng.eccRead (8 * 2 ^ 20 + k / 2)
    let e := if dbl then e.count 1 0 12 1 else e
    { b with eng := if dbl then e.accEnd 3 0 none else e.accEnd 0 0 (some (b.mem.basinWord k)) }

/-- A data access by its address (R505). -/
def Block.accData (b : Block) (a : HideAcc) : Block :=
  let e := b.eng
  match regionOf 0 a.addr with
  | .data canon shared =>
    if a.addr < 0x10000 then b.onEng (fun e => e.accEnd 1 7 none)
    else b.accWord a canon (if shared then e.allHalted else e.pavHalted (canon / 0x10000 - 1)) true
  | .aperture canon => b.accWord a canon e.allHalted false
  | .basin _ => b.accBasin a
  | .dev _ => b.accDev a
  | .host _ => b.onEng (fun e => e.accEnd 1 7 none)
  | .none => b.onEng (fun e => (e.nowhereAt a.addr 17).accEnd 2 0 none)

/-- An access to a code word (R506); an address in no code region is answered RANGE (assumption 41). -/
def Block.accCode (b : Block) (a : HideAcc) : Block :=
  let e := b.eng
  let rg := codeRegion a.addr
  if a.addr % 2 = 1 ∨ rg = 0 ∨ (rg = 3 ∧ a.wr) then b.onEng (fun e => e.accEnd 1 7 none)
  else if (rg = 1 ∧ !e.pavHalted a.pav) ∨ (rg = 2 ∧ !e.allHalted) then b.onEng (fun e => e.accEnd 1 3 none)
  else
    match codeKey a.pav a.addr with
    | none =>
      b.onEng (fun e => e.accEnd 0 0 (some ((b.mem.codeByte a.pav a.addr).toNat * 256 + (b.mem.codeByte a.pav (a.addr + 1)).toNat)))
    | some k =>
      if a.wr then
        ⟨b.mem.setCodeBytes k [BitVec.ofNat 8 (a.data / 256), BitVec.ofNat 8 a.data], (e.eccClear (eccCode k)).accEnd 0 0 none⟩
      else
        let (dbl, e) := e.eccRead (eccCode k)
        { b with eng := if dbl then e.accEnd 3 0 none
          else e.accEnd 0 0 (some ((b.mem.codeByte a.pav a.addr).toNat * 256 + (b.mem.codeByte a.pav (a.addr + 1)).toNat)) }

/-- HIDE_ACCESS_DONE: the access in progress receives its response. -/
def Block.accDone (b : Block) : Block :=
  match b.eng.hide.acc with
  | none => b
  | some a => if a.code then b.accCode a else b.accData a

/-! ### The TAP path (21_integration.md R534) -/

/-- The data register: RESP or OP, offset, data. -/
def tapWord (hi off data : Nat) : Nat := hi * 2 ^ 32 + off % 2 ^ 12 * 2 ^ 20 + data % 2 ^ 20

/-- Capture-DR: the result of the last access, or RESP 3 and a free value where one is in progress. -/
def Eng.tapCapture (e : Eng) : Eng :=
  match e.hide.tapReq with
  | some r =>
    let (v, e) := e.freeVal 20
    { e with hide := { e.hide with tapOut := tapWord 3 (bits r 31 20) v } }
  | none => { e with hide := { e.hide with tapOut := e.hide.tapLast } }

/-- Update-DR: OP 0 starts nothing, and an Update while an access is in progress is ignored. -/
def Eng.tapUpdate (e : Eng) (dr : Nat) : Eng :=
  let dr := dr % 2 ^ 34
  let e := { e with hide := { e.hide with tapOut := dr } }
  if e.hide.tapReq.isSome ∨ bits dr 33 32 = 0 then e else { e with hide := { e.hide with tapReq := some dr } }

/-- JX_D_TRST_N at 0: an access in progress is abandoned without its effect. -/
def Eng.tapReset (e : Eng) : Eng := { e with hide := { e.hide with tapReq := none } }

/-- The access in progress of the TAP path takes effect; the data that Capture-DR shows of a read not DONE is a free value
(assumption 12). -/
def Block.tapAccess (b : Block) : Block :=
  match b.eng.hide.tapReq with
  | none => b
  | some dr =>
    let off := bits dr 31 20
    let op := bits dr 33 32
    let a := 0xD0000 + off
    let fin (e : Eng) (resp data : Nat) : Block := { b with eng := { e with hide := { e.hide with tapReq := none, tapLast := tapWord resp off data } } }
    let free (e : Eng) (resp : Nat) : Block :=
      let (v, e) := e.freeVal 20
      fin e resp v
    if !b.eng.awake then b
    else if op = 1 then
      match b.devRead .tap a with
      | .ok v e => fin e 0 v
      | .fault _ e => free e 1
      | .nowhere => free b.eng 2
    else if op = 2 then
      match b.devWrite .tap a (dr % 2 ^ 20) with
      | .ok _ e => fin e 0 0
      | .fault _ e => fin e 1 0
      | .nowhere => fin b.eng 2 0
    else free b.eng 1

/-! ### Commands -/

/-- HIDE_ACCESS_DONE (20_hide_debug.md R504). -/
def execHideAccessDone (s : State) : Host.Outcome State Fault Refusal := s.onBlock (fun b => b.accDone)

/-- COOL_EXPIRY (R502). -/
def execCoolExpiry (s : State) : Host.Outcome State Fault Refusal := s.onEng (fun e => e.coolExpiry)

/-- FEED_DONE (R511). -/
def execFeedDone (s : State) : Host.Outcome State Fault Refusal := s.onEng (fun e => e.feedDone)

/-- TAP_CAPTURE (21_integration.md R534). -/
def execTapCapture (s : State) : Host.Outcome State Fault Refusal := s.onEng (fun e => e.tapCapture)

/-- TAP_UPDATE: the data register's 34 bits (R534). -/
def execTapUpdate (dr : BitVec 64) (s : State) : Host.Outcome State Fault Refusal := s.onEng (fun e => e.tapUpdate dr.toNat)

/-- TAP_RESET (R534). -/
def execTapReset (s : State) : Host.Outcome State Fault Refusal := s.onEng (fun e => e.tapReset)

end Sys2Proof.Machine
end

