-- ==== Sys2Proof/Machine/Clock.lean ====
section
/-! DEFINITION. The clock: what one cycle does when no command waits (02_time_levels.md R24, R25, R27; 03_sundial.md R53,
R55, R74; 13_locks_conduits.md R348; 09_barrels_threads.md R261; 19_reset_recovery.md R494). -/

namespace Sys2Proof.Machine

/-- One REFCLK edge of Sundial in REFCLK counting (R74); half an increment is kept for the next edge. -/
def Clk.refEdge (c : Clk) (sel : Nat) : Clk :=
  let h := incOf c.rate * refRatio2 sel + b2n c.refHalf
  { c with sun := c.seen + BitVec.ofNat 100 (h / 2), refHalf := h % 2 == 1 }

/-- A change of the course of Sundial is kept while a link may still refer to the time before it (R66). -/
def Clk.noteCourse (c old : Clk) (kept : List (Nat × BitVec 100 × BitVec 40)) : Clk :=
  if c.sun = old.plainNext ∧ c.rate = old.rate then c
  else { c with course := (c.cycle + 1, c.sun, c.rate) :: kept }

/-- The changes of the last 1,024 cycles, and the one before them. -/
def Clk.recent (c : Clk) : List (Nat × BitVec 100 × BitVec 40) :=
  c.course.filter (fun s => decide (c.cycle < s.1 + 1024)) ++ (c.course.filter (fun s => decide (s.1 + 1024 ≤ c.cycle))).take 1

/-- Sundial at the next cycle (R53, R55, R61, R74): it counts once the PLL is locked. -/
def Clk.tickSun (c : Clk) (locked refMode : Bool) : Clk :=
  let c2 := if refMode then c.refEdge Config.refSel.toNat else if locked then { c with sun := c.nextSun } else c
  let c3 := { c2 with rate := c2.rateNext, after := none, loaded := false, applied := 0 }
  c3.noteCourse c (if refMode || !locked then [] else c.recent)

/-- The cycle of a decision, 8 cycles before a round boundary: its record (R27, R46). -/
def Eng.decide8 (e : Eng) : Eng :=
  if (e.now - e.clk.roundBase) % 32 = 24 then
    { e with tick := { e.tick with dec := some ⟨e.now + 8, e.ns, e.flag F.TIK_CTL_RUN 0 && !e.tick.stopping, e.tick.set, e.tick.armed⟩ } }
  else e

/-- The cycle from which still water has held, as the states at the ends of the cycles say (R261). -/
def Eng.swTrack (e : Eng) : Eng :=
  { e with swSince := if e.stillWater ∧ e.flag F.THR_SWCTL_EN 0 ∧ !e.flag F.THR_SWSTAT_PEND 0 then (match e.swSince with
      | some c => some c
      | none => some (e.now - 1)) else none }

/-- The nanoseconds of one step of time (R455, R525): a CCLK cycle, or while Sundial counts REFCLK edges one REFCLK period. -/
def Eng.stepNs (e : Eng) : Nat := if e.flag F.SUN_STAT_REFMODE 0 then refRatio2 Config.refSel.toNat else 2

/-- The clock and Sundial move on to the next cycle; what its events set is cleared by writes and reads from now on (R9). -/
def Eng.advance (e : Eng) : Eng :=
  let c := e.clk.tickSun (e.flag F.RST_STAT_PLLLOCK 0) (e.flag F.SUN_STAT_REFMODE 0)
  let s := { e.sys with hourNs := e.sys.hourNs + e.stepNs }
  { e with clk := { c with cycle := c.cycle + 1, runCyc := c.runCyc + b2n e.awake }, sys := s, recent := { banks := e.blocked } }

/-- A global start of timers made in the cycle before (15_timers.md R385). -/
def Eng.startDue (e : Eng) : Eng := if e.sys.gstart = e.now then e.globalStart else e

/-- The output signals of the reeds change at phase 0 of the cycle (R104), but in NAP and DORMANT, where they hold (R127). -/
def Eng.setsDue (e : Eng) : Eng := if e.awake then { e with reeds := e.reeds.map (fun r => (r.1, r.2.setsDue e.now)) } else e

/-- The AT comparators of the waiting threads in this cycle (R72): the first cycle in which the target is reached; the barrels do not
run in DOZE, NAP and DORMANT, and a target reached there counts as late once they do (R76, R475). -/
def Thr.atTrack (x : Thr) (lanes : Bool) (now ns : Nat) : Thr :=
  if x.wait ≠ .atTime ∨ x.atHit.isSome then x
  else if !lanes then { x with atSlept := x.atSlept || reached ns x.atTarget }
  else if reached ns x.atTarget then { x with atHit := some now }
  else { x with atSlept := false }

def Eng.atTrack (e : Eng) : Eng := { e with thr := e.thr.map (fun t => (t.1, t.2.atTrack e.lanesOn e.now e.ns)) }

/-- Allocations of the ring unit and of an image load that have their outcome (R418, R460). -/
def Eng.allocsDone (e : Eng) : Eng :=
  foldS (fun a e => match a.ok, a.why with
    | some ok, .tx r idx d => e.txCells r idx d a ok
    | some ok, .image => e.imageCellsDone a ok
    | _, _ => e) e.sw.allocs e

/-- The end of a cycle: what follows its instruction accesses (R350, R355), the aborts of commands (R440), deliveries not yet made, an apply of the owner thread (R63), the timers (R386), the events of the links (R86) and of the schedule layers (R223), the reeds, the Basin,
the rings, the levels of the pins; the parts of the pavilions stand still in NAP and DORMANT (R466);
the gates of the barrels and the power states, start-up, and the trace packets of the cycle (R521). -/
def Eng.cycleEnd (e : Eng) : Eng :=
  let e := e.closeEnd.keysEnd.deliverDue.sunOwner.timersEnd.linksEnd.schedEnd.reedsEnd
  (if e.awake then e.basinStep.allocsDone.ringsUp.rxWaits.gatesEnd else e).pinShift.powerEnd.startEnd.coolExpiry.traceEnd

/-- One cycle: what its end brings, the clock and Sundial move on, and what follows a cycle by itself
happens: the first issue of the boot ROM, halts on their way, tick settings and a Sundial apply that waited, AT comparators, output signals, transmissions, borrowed weights, the record of a decision,
still water, a global start, flushes that end, the watchdog, commands that wait for flushes and row sets. -/
def Eng.cycle (e : Eng) : Eng :=
  (e.cycleEnd.advance.bootPoint.haltsDue.irqStep.arbitrate.relockDue.tickDue.sunDue.atTrack.setsDue.macCycles.pinsDue.stepBorrow.decide8.swTrack.startDue.flushClears.wdTick).cmdPoll

/-- The same on the block: an expiry of the watchdog acts in its cycle (R494); then, in the next one, the accesses of threads that waited for it (R329),
the issue of a fed instruction (20_hide_debug.md R511) and the access of the TAP path (21_integration.md R534). -/
def Block.cycle (b : Block) : Block :=
  let b := b.wdEnd
  ({ b with eng := b.eng.cycle } : Block).servePassed.feedStep.tapAccess

end Sys2Proof.Machine
end

