-- ==== Sys2Proof/Machine/CoderInsn.lean ====
section
/-! DEFINITION. The CODE instruction in each mode of its slot (06_line_coding.md R134 to R152); the functions are in Coders.lean. -/

namespace Sys2Proof.Machine

/-- The command that issues a CODE on a slot in mode `m` (R134, R136). -/
def State.onCode (s : State) (k : ReedId) (m : Nat) (f : Nat → Nat → Coder → CodeOut) : Host.Outcome State Fault Refusal :=
  s.onEng (fun e => e.reedInsn k.val (fun w => rop w == 0x11 && e.fld F.COD_MODE_MODE (8 * k.val + bits w 11 9) == m)
    (fun w => bits w 7 0 == 0) (rCode f))

/-- CODE on a slot in mode 0, PASS (06_line_coding.md R136). -/
def execPass (k : ReedId) (s : State) : Host.Outcome State Fault Refusal :=
  s.onCode k 0 codePass

/-- CODE on a slot in mode 1 (R138). -/
def execNrziTx (k : ReedId) (s : State) : Host.Outcome State Fault Refusal :=
  s.onCode k 1 codeNrziTx

/-- CODE on a slot in mode 2 (R138). -/
def execNrziRx (k : ReedId) (s : State) : Host.Outcome State Fault Refusal :=
  s.onCode k 2 codeNrziRx

/-- CODE on a slot in mode 3 (R139). -/
def execManTx (k : ReedId) (s : State) : Host.Outcome State Fault Refusal :=
  s.onCode k 3 codeManTx

/-- CODE on a slot in mode 4 (R140). -/
def execManRx (k : ReedId) (s : State) : Host.Outcome State Fault Refusal :=
  s.onCode k 4 codeManRx

/-- CODE on a slot in mode 5 (R142). -/
def execB4b5Tx (k : ReedId) (s : State) : Host.Outcome State Fault Refusal :=
  s.onCode k 5 codeB4b5Tx

/-- CODE on a slot in mode 6 (R143). -/
def execB4b5Rx (k : ReedId) (s : State) : Host.Outcome State Fault Refusal :=
  s.onCode k 6 codeB4b5Rx

/-- CODE on a slot in mode 7 (R144). -/
def execT1lTx (k : ReedId) (s : State) : Host.Outcome State Fault Refusal :=
  s.onCode k 7 codeT1lTx

/-- CODE on a slot in mode 8 (R144). -/
def execT1lRx (k : ReedId) (s : State) : Host.Outcome State Fault Refusal :=
  s.onCode k 8 codeT1lRx

/-- CODE on a slot in mode 9 (R145). -/
def execB8b10Tx (k : ReedId) (s : State) : Host.Outcome State Fault Refusal :=
  s.onCode k 9 codeB8b10Tx

/-- CODE on a slot in mode 10 (R145). -/
def execB8b10Rx (k : ReedId) (s : State) : Host.Outcome State Fault Refusal :=
  s.onCode k 10 codeB8b10Rx

/-- CODE on a slot in mode 11 (R146). -/
def execHdlcTx (k : ReedId) (s : State) : Host.Outcome State Fault Refusal :=
  s.onCode k 11 codeHdlcTx

/-- CODE on a slot in mode 12 (R147). -/
def execHdlcRx (k : ReedId) (s : State) : Host.Outcome State Fault Refusal :=
  s.onCode k 12 codeHdlcRx

/-- CODE on a slot in mode 13 (R148 to R150). -/
def execCanTx (k : ReedId) (s : State) : Host.Outcome State Fault Refusal :=
  s.onCode k 13 codeCanTx

/-- CODE on a slot in mode 14 (R148 to R150). -/
def execCanRx (k : ReedId) (s : State) : Host.Outcome State Fault Refusal :=
  s.onCode k 14 codeCanRx

/-- CODE on a slot in mode 15 (R152). -/
def execAsyncTx (k : ReedId) (s : State) : Host.Outcome State Fault Refusal :=
  s.onCode k 15 codeAsyncTx

/-- CODE on a slot in mode 16 (R152). -/
def execAsyncRx (k : ReedId) (s : State) : Host.Outcome State Fault Refusal :=
  s.onCode k 16 codeAsyncRx

end Sys2Proof.Machine
end

