-- ==== Sys2Proof/Machine/LinkEvents.lean ====
section
/-! DEFINITION. What happens at links and in the switched path: words from the MACs, beats, commits, starts and ends of transmissions
(04_link_ports.md, 07_basin_switching.md). -/

namespace Sys2Proof.Machine

/-- A command of a part whose clock runs in RUN and DOZE alone (18_power.md R466). -/
def State.onAwake (s : State) (f : Block → Block) : Host.Outcome State Fault Refusal :=
  s.onBlock (fun b => if b.eng.awake then f b else b)

/-- A word from the MAC of link n, of one kind (04_link_ports.md R79, R87, R544): its start-of-frame point was the edge `back` cycles ago at a
phase (R66, R96). -/
def State.macWord (s : State) (n : LinkId) (w : Word) (back phase : Nat) (is : Eng → Bool) : Host.Outcome State Fault Refusal :=
  s.onAwake (fun b => b.onEng (fun e =>
    if (e.linkMode n.val = 1 ∨ e.linkMode n.val = 2) ∧ is e then e.ingressWord n.val w false (e.timeBack back phase) else e))

/-- Does the TXR of link n wait in PULLS? -/
def Eng.txrWaits (e : Eng) (n : Nat) : Bool :=
  (List.range 48).any (fun k => e.txLink k == some n && decide ((e.reed k).waitCode = 7))

/-- LINK_LOSS_CLOCK (04_link_ports.md R85, R89). -/
def execLinkLossClock (c : ClockStop) (s : State) : Host.Outcome State Fault Refusal :=
  s.onAwake (fun b => b.onEng (fun e => e.clockLoss c.link.val c.tx))

/-- TRAINING_TIMEOUT (R85). -/
def execTrainingTimeout (n : LinkId) (s : State) : Host.Outcome State Fault Refusal :=
  s.onAwake (fun b => b.onEng (fun e => e.trainTimeout n.val))

/-- FLAP_HOLD_EXPIRY (R90). -/
def execFlapHoldExpiry (n : LinkId) (s : State) : Host.Outcome State Fault Refusal :=
  s.onAwake (fun b => b.onEng (fun e => e.expiryEvent n.val))

/-- FLUSH_RELEASE (R92). -/
def execFlushRelease (n : LinkId) (s : State) : Host.Outcome State Fault Refusal :=
  s.onAwake (fun b => b.onEng (fun e => e.flushRelease n.val))

/-- FRAME_START: a word from the MAC that opens a frame (07_basin_switching.md R165). -/
def execFrameStart (n : LinkId) (w : Word) (sof : SofEdge) (s : State) : Host.Outcome State Fault Refusal :=
  s.macWord n w sof.back.toNat sof.phase.val (fun e => e.wordKind n.val w == .opens)

/-- DISCARD_RUN: a word from the MAC while no frame is open (R544). -/
def execDiscardRun (n : LinkId) (w : Word) (s : State) : Host.Outcome State Fault Refusal :=
  s.macWord n w 0 0 (fun e => e.wordKind n.val w == .discards)

/-- LOOKUP: a word from the MAC inside the open frame, in which the last lookup byte may stand (R172). -/
def execLookup (n : LinkId) (w : Word) (s : State) : Host.Outcome State Fault Refusal :=
  s.macWord n w 0 0 (fun e => e.wordKind n.val w == .inside && !tagEnds (w.toNat / 2 ^ 16))

/-- VERDICT_COMMIT (R172). -/
def execVerdictCommit (seq : Word) (s : State) : Host.Outcome State Fault Refusal :=
  s.onAwake (fun b => b.onEng (fun e => e.verdictCommit seq.toNat))

/-- FRAME_END: the last word of the open frame from the MAC (R544). -/
def execFrameEnd (n : LinkId) (w : Word) (s : State) : Host.Outcome State Fault Refusal :=
  s.macWord n w 0 0 (fun e => e.wordKind n.val w == .inside && tagEnds (w.toNat / 2 ^ 16))

/-- BEAT_WRITE (04_link_ports.md R94). -/
def execBeatWrite (n : LinkId) (s : State) : Host.Outcome State Fault Refusal :=
  s.onAwake (fun b => b.beatWrite n.val)

/-- BEAT_READ (R94); the TXR waits where its wait code is that of PULLS (R120). -/
def execBeatRead (n : LinkId) (s : State) : Host.Outcome State Fault Refusal :=
  s.onAwake (fun b => b.beatRead n.val (b.eng.txrWaits n.val))

/-- FRAME_TX_START (07_basin_switching.md R178), with the phase of the transmit clock edge in this cycle (04_link_ports.md R93); port 24 writes to
host memory (16_host_rings.md R422). -/
def execFrameTxStart (x : TxEdge) (s : State) : Host.Outcome State Fault Refusal :=
  s.onAwake (fun b => b.onEng (fun e => if x.port.val = 24 then e.rxStart else e.txStart x.port.val x.phase.val))

/-- FRAME_TX_END (04_link_ports.md R97). -/
def execFrameTxEnd (port : Fin 25) (s : State) : Host.Outcome State Fault Refusal :=
  s.onAwake (fun b => b.onEng (fun e => if port.val = 24 then e.rxEnd else e.txEnd port.val))

/-- BAD_TAIL (07_basin_switching.md R184); port 24 sends no frame cut through (R181). -/
def execBadTail (port : Fin 25) (s : State) : Host.Outcome State Fault Refusal :=
  s.onAwake (fun b => b.onEng (fun e => if port.val = 24 then e else e.badTail port.val))

/-- LAUNCH_DEADLINE (04_link_ports.md R93); port 24 has none (R91). -/
def execLaunchDeadline (port : Fin 25) (s : State) : Host.Outcome State Fault Refusal :=
  s.onAwake (fun b => b.onEng (fun e => if port.val = 24 then e else e.launchDeadline port.val))

/-- CELL_CHAIN_RELEASE: one cell of the frame (07_basin_switching.md R163). -/
def execCellChainRelease (seq : Word) (s : State) : Host.Outcome State Fault Refusal :=
  s.onAwake (fun b => b.onEng (fun e => e.releaseStep seq.toNat))

/-- TOKEN_REFILL (R187). -/
def execTokenRefill (s : State) : Host.Outcome State Fault Refusal :=
  s.onAwake (fun b => b.onEng (fun e => e.refill))

/-- ALLOC_DONE (R197). -/
def execAllocDone (t : Tid) (s : State) : Host.Outcome State Fault Refusal :=
  s.onAwake (fun b => b.onEng (fun e => e.allocDone t.val))

/-- FWD_OP_RESULT (R173). -/
def execFwdOpResult (s : State) : Host.Outcome State Fault Refusal :=
  s.onAwake (fun b => b.onEng (fun e => e.fwdEnd))

/-- AUDIT_TIMEOUT (R191). -/
def execAuditTimeout (s : State) : Host.Outcome State Fault Refusal :=
  s.onAwake (fun b => b.onEng (fun e => e.auditDue))

/-- AUDIT_PASS_END (R195). -/
def execAuditPassEnd (s : State) : Host.Outcome State Fault Refusal :=
  s.onAwake (fun b => b.onEng (fun e => e.auditEnd))

end Sys2Proof.Machine
end

