-- ==== Sys2Proof/Machine/CommandEvents.lean ====
section
/-! DEFINITION. The commands of the host, at the moment the unit or the Keeper carries them out (17_commands_keys.md R435 to R448, R460), and the
ends of Ledger writes (R454, R455). Each acts where the command that runs is the one named. -/

namespace Sys2Proof.Machine

/-- COMMAND_HANDOVER (16_host_rings.md R415). -/
def execCommandHandover (s : State) : Host.Outcome State Fault Refusal :=
  s.onBlock (fun b => { b with eng := b.commandHandover })

/-- NOP (17_commands_keys.md R438). -/
def execCmdNop (s : State) : Host.Outcome State Fault Refusal :=
  s.onEng (fun e => e.cmdNop)

/-- GET_STATE. -/
def execGetState (s : State) : Host.Outcome State Fault Refusal :=
  s.onEng (fun e => e.cmdGetState)

/-- ABORT (R440). -/
def execAbort (s : State) : Host.Outcome State Fault Refusal :=
  s.onEng (fun e => e.cmdAbort)

/-- SET_LATENCY (18_power.md R473). -/
def execSetLatency (s : State) : Host.Outcome State Fault Refusal :=
  s.onEng (fun e => e.cmdSetLatency)

/-- PROVISION (R447). -/
def execProvision (s : State) : Host.Outcome State Fault Refusal :=
  s.onBlock (fun b => { b with eng := b.cmdProvision })

/-- SELFTEST (19_reset_recovery.md R493). -/
def execSelftest (s : State) : Host.Outcome State Fault Refusal :=
  s.onEng (fun e => e.cmdSelftest)

/-- LOAD_IMAGE: its first steps; the reads and Ledger writes that follow carry it to its end (R460). -/
def execLoadImage (s : State) : Host.Outcome State Fault Refusal :=
  s.onEng (fun e => e.loadImageStart)

/-- KEY_CHANGE (R448). -/
def execKeyChange (s : State) : Host.Outcome State Fault Refusal :=
  s.onBlock (fun b => { b with eng := b.cmdKeyChange })

/-- LINK_ENABLE (R438). -/
def execLinkEnable (s : State) : Host.Outcome State Fault Refusal :=
  s.onEng (fun e => e.cmdLinkEnable)

/-- SCHEDULE_CHANGE (R438). -/
def execScheduleChange (s : State) : Host.Outcome State Fault Refusal :=
  s.onEng (fun e => e.cmdSchedule)

/-- SUNDIAL_SET with a step (R438). -/
def execSundialSetStep (s : State) : Host.Outcome State Fault Refusal :=
  s.onEng (fun e => e.cmdSundial 1)

/-- SUNDIAL_SET with a load (R438). -/
def execSundialSetLoad (s : State) : Host.Outcome State Fault Refusal :=
  s.onEng (fun e => e.cmdSundial 2)

/-- RESET_ENGINE, scope ENGINE (R441, R480). -/
def execResetEngine (s : State) : Host.Outcome State Fault Refusal :=
  s.onEng (fun e => e.cmdReset 1)

/-- RESET_ENGINE, scope ENGINE_NOBOOT. -/
def execResetEngineNoboot (s : State) : Host.Outcome State Fault Refusal :=
  s.onEng (fun e => e.cmdReset 2)

/-- DEBUG_UNLOCK (20_hide_debug.md R502). -/
def execDebugUnlock (s : State) : Host.Outcome State Fault Refusal :=
  s.onEng (fun e => e.cmdDebugUnlock)

/-- LEDGER_WRITE (R438). -/
def execLedgerWrite (s : State) : Host.Outcome State Fault Refusal :=
  s.onEng (fun e => e.cmdLedgerWrite)

/-- COUNTER_SEAL (R436). -/
def execCounterSeal (s : State) : Host.Outcome State Fault Refusal :=
  s.onEng (fun e => e.cmdSeal)

/-- MAINTENANCE, enter (19_reset_recovery.md R492). -/
def execMaintenanceEnter (s : State) : Host.Outcome State Fault Refusal :=
  s.onEng (fun e => e.cmdMaintEnter)

/-- MAINTENANCE, leave (R490). -/
def execMaintenanceLeave (s : State) : Host.Outcome State Fault Refusal :=
  s.onEng (fun e => e.cmdMaintLeave)

/-- A firmware command 0x80 to 0xBF (R438). -/
def execFirmwareCommand (s : State) : Host.Outcome State Fault Refusal :=
  s.onEng (fun e => e.cmdFirmware false)

/-- A firmware command 0xC0 to 0xFF (R438). -/
def execFirmwareCommandCritical (s : State) : Host.Outcome State Fault Refusal :=
  s.onEng (fun e => e.cmdFirmware true)

/-- LEDGER_WORD_WRITE_DONE (R454). -/
def execLedgerWordWriteDone (s : State) : Host.Outcome State Fault Refusal :=
  s.onBlock (fun b => b.ledgerDone)

/-- HOURS (R455). -/
def execHours (s : State) : Host.Outcome State Fault Refusal :=
  s.onBlock (fun b => { b with eng := b.eng.hoursDue b.mem })

end Sys2Proof.Machine
end

