-- ==== Sys2Proof/Machine/HideRegs.lean ====
section
/-! DEFINITION. The Hide: the register accesses that act (20_hide_debug.md). -/

namespace Sys2Proof.Machine

/-- HIDE_CHALCTL.REQ (20_hide_debug.md R501). -/
def execChallengeRequest (who : Acc) (v : Word) (s : State) : Host.Outcome State Fault Refusal :=
  s.action who .HIDE_CHALCTL 0 v (fun v => v % 4 != 0)

/-- A write of HIDE_RESP3 (R502). -/
def execResponseCheck (who : Acc) (v : Word) (s : State) : Host.Outcome State Fault Refusal :=
  s.action who .HIDE_RESP 3 v (fun _ => true)

/-- HIDE_CHALCTL.DROP (R503). -/
def execAuthDrop (who : Acc) (v : Word) (s : State) : Host.Outcome State Fault Refusal :=
  s.action who .HIDE_CHALCTL 0 v (fun v => bit v 2)

/-- HIDE_ACMD: a read of a register or of data memory (R504, R505). -/
def execHideAccessRead (who : Acc) (v : Word) (s : State) : Host.Outcome State Fault Refusal :=
  s.action who .HIDE_ACMD 0 v (fun v => !bit v 2 && v % 4 == 1)

/-- HIDE_ACMD: a write of a register or of data memory (R504, R505). -/
def execHideAccessWrite (who : Acc) (v : Word) (s : State) : Host.Outcome State Fault Refusal :=
  s.action who .HIDE_ACMD 0 v (fun v => !bit v 2 && v % 4 == 2)

/-- HIDE_ACMD: a read of a code word (R506). -/
def execHideCodeRead (who : Acc) (v : Word) (s : State) : Host.Outcome State Fault Refusal :=
  s.action who .HIDE_ACMD 0 v (fun v => bit v 2 && v % 4 == 1)

/-- HIDE_ACMD: a write of a code word (R506). -/
def execHideCodeWrite (who : Acc) (v : Word) (s : State) : Host.Outcome State Fault Refusal :=
  s.action who .HIDE_ACMD 0 v (fun v => bit v 2 && v % 4 == 2)

/-- HIDE_HCTL.HALT (R507). -/
def execHideHalt (who : Acc) (v : Word) (s : State) : Host.Outcome State Fault Refusal :=
  s.action who .HIDE_HCTL 0 v (fun v => bit v 0)

/-- HIDE_HCTL.RESUME (R509). -/
def execHideResume (who : Acc) (v : Word) (s : State) : Host.Outcome State Fault Refusal :=
  s.action who .HIDE_HCTL 0 v (fun v => bit v 1)

/-- HIDE_HCTL.STEP (R509). -/
def execHideStep (who : Acc) (v : Word) (s : State) : Host.Outcome State Fault Refusal :=
  s.action who .HIDE_HCTL 0 v (fun v => bit v 2)

/-- HIDE_HCTL.HALTPAV (R507). -/
def execHaltpav (who : Acc) (v : Word) (s : State) : Host.Outcome State Fault Refusal :=
  s.action who .HIDE_HCTL 0 v (fun v => bit v 3)

/-- HIDE_HCTL.RESUMEPAV (R509). -/
def execResumepav (who : Acc) (v : Word) (s : State) : Host.Outcome State Fault Refusal :=
  s.action who .HIDE_HCTL 0 v (fun v => bit v 4)

/-- HIDE_HCTL.HALTALL (R507). -/
def execHaltall (who : Acc) (v : Word) (s : State) : Host.Outcome State Fault Refusal :=
  s.action who .HIDE_HCTL 0 v (fun v => bit v 5)

/-- HIDE_HCTL.RESUMEALL (R509). -/
def execResumeall (who : Acc) (v : Word) (s : State) : Host.Outcome State Fault Refusal :=
  s.action who .HIDE_HCTL 0 v (fun v => bit v 6)

/-- A write of HIDE_HDATA (R511). -/
def execHaltedRegisterWrite (who : Acc) (v : Word) (s : State) : Host.Outcome State Fault Refusal :=
  s.action who .HIDE_HDATA 0 v (fun _ => true)

/-- HIDE_FEED.GO (R511). -/
def execFeedGo (who : Acc) (v : Word) (s : State) : Host.Outcome State Fault Refusal :=
  s.action who .HIDE_FEED 0 v (fun v => bit v 4)

/-- HIDE_SPCFG.TCLR (R520). -/
def execTallyClear (who : Acc) (v : Word) (s : State) : Host.Outcome State Fault Refusal :=
  s.action who .HIDE_SPCFG 0 v (fun v => bit v 0)

/-- A write of HIDE_TXDp (R518). -/
def execVtTxWrite (who : Acc) (p : Pav) (v : Word) (s : State) : Host.Outcome State Fault Refusal :=
  s.action who .HIDE_TXD p.val v (fun _ => true)

/-- A write of HIDE_RXDp (R519). -/
def execVtRxWrite (who : Acc) (p : Pav) (v : Word) (s : State) : Host.Outcome State Fault Refusal :=
  s.action who .HIDE_RXD p.val v (fun _ => true)

/-- A read of HIDE_TXDp (R518). -/
def execVtTxRead (who : Acc) (p : Pav) (s : State) : Host.Outcome State Fault Refusal :=
  s.onAcc who (fun b => b.regRead who (Reg.addr .HIDE_TXD p.val))

/-- A read of HIDE_RXDp (R519). -/
def execVtRxRead (who : Acc) (p : Pav) (s : State) : Host.Outcome State Fault Refusal :=
  s.onAcc who (fun b => b.regRead who (Reg.addr .HIDE_RXD p.val))

/-- A write of a stimulus port in one MODE (R520): 0 VALUE, 1 TALLY, 2 MARK. -/
def State.stimCmd (s : State) (who : Acc) (n : Fin 32) (v : Word) (mode : Nat) : Host.Outcome State Fault Refusal :=
  s.onAcc who (fun b => if b.eng.fld F.HIDE_SPCFG_MODE n.val = mode then b.regWrite who (Reg.addr .HIDE_STIM n.val) v.toNat else b)

/-- A VALUE port is written (R520). -/
def execStimValue (who : Acc) (n : Fin 32) (v : Word) (s : State) : Host.Outcome State Fault Refusal := s.stimCmd who n v 0

/-- A TALLY port is written (R520). -/
def execStimTally (who : Acc) (n : Fin 32) (v : Word) (s : State) : Host.Outcome State Fault Refusal := s.stimCmd who n v 1

/-- A MARK port is written (R520). -/
def execStimMark (who : Acc) (n : Fin 32) (v : Word) (s : State) : Host.Outcome State Fault Refusal := s.stimCmd who n v 2

end Sys2Proof.Machine
end

