-- ==== Sys2Proof/Machine/HostRegs.lean ====
section
/-! DEFINITION. Host rings, command unit, Ledger, power and recovery: the register writes that act (16_host_rings.md to
19_reset_recovery.md). -/

namespace Sys2Proof.Machine

/-- HRG_KNOCK.KNOCK (16_host_rings.md R410). -/
def execKnockWrite (who : Acc) (v : Word) (s : State) : Host.Outcome State Fault Refusal :=
  s.action who .HRG_KNOCK 0 v (fun v => bit v 0)

/-- HRG_RCTL.EN written 1 (R412). -/
def execRingEnable (who : Acc) (v : Word) (s : State) : Host.Outcome State Fault Refusal :=
  s.action who .HRG_RCTL 0 v (fun v => bit v 0)

/-- HRG_RCTL.EN written 0 (R412). -/
def execRingDisable (who : Acc) (v : Word) (s : State) : Host.Outcome State Fault Refusal :=
  s.action who .HRG_RCTL 0 v (fun v => !bit v 0)

/-- HRG_RCTL.RESTART (R412). -/
def execRingRestart (who : Acc) (v : Word) (s : State) : Host.Outcome State Fault Refusal :=
  s.action who .HRG_RCTL 0 v (fun v => bit v 1)

/-- HRG_KIRQ.RAISE (R429). -/
def execKeeperIrq (who : Acc) (v : Word) (s : State) : Host.Outcome State Fault Refusal :=
  s.action who .HRG_KIRQ 0 v (fun v => bit v 0)

/-- KEY_CTAKE.TAKE (17_commands_keys.md R442). -/
def execCommandTake (who : Acc) (v : Word) (s : State) : Host.Outcome State Fault Refusal :=
  s.action who .KEY_CTAKE 0 v (fun v => bit v 0)

/-- KEY_CDONE.DONE (R442). -/
def execCommandDone (who : Acc) (v : Word) (s : State) : Host.Outcome State Fault Refusal :=
  s.action who .KEY_CDONE 0 v (fun v => bit v 0)

/-- LDG_CTL.WRITE (R454, R465). -/
def execLdgWrite (who : Acc) (v : Word) (s : State) : Host.Outcome State Fault Refusal :=
  s.action who .LDG_CTL 0 v (fun v => bit v 0)

/-- A write of LDG_ADDR (R465). -/
def execLedgerReadStart (who : Acc) (v : Word) (s : State) : Host.Outcome State Fault Refusal :=
  s.action who .LDG_ADDR 0 v (fun _ => true)

/-- PWR_WAKE.WAKE (18_power.md R471). -/
def execHostWake (who : Acc) (v : Word) (s : State) : Host.Outcome State Fault Refusal :=
  s.action who .PWR_WAKE 0 v (fun v => bit v 0)

/-- JX_BOOT_CTL.GO (19_reset_recovery.md R489). -/
def execBootGo (who : Acc) (v : Word) (s : State) : Host.Outcome State Fault Refusal :=
  s.action who .JX_BOOT_CTL 0 v (fun v => bit v 0)

/-- RST_WDKICK.KICK (R494). -/
def execWatchdogKick (who : Acc) (v : Word) (s : State) : Host.Outcome State Fault Refusal :=
  s.action who .RST_WDKICK 0 v (fun v => bit v 0)

/-- RST_WDCTL.EN written 1 (R494). -/
def execWatchdogEnable (who : Acc) (v : Word) (s : State) : Host.Outcome State Fault Refusal :=
  s.action who .RST_WDCTL 0 v (fun v => bit v 0)

/-- RST_BISTCTL.GO (R493). -/
def execBistGo (who : Acc) (v : Word) (s : State) : Host.Outcome State Fault Refusal :=
  s.action who .RST_BISTCTL 0 v (fun v => bit v 2)

/-- LEDGER_READ_DONE: 16 cycles after the LDG_ADDR write the word is held for its reader (R465). -/
def Block.ledgerReadDone (b : Block) (who : Acc) : Block :=
  let e := b.eng
  match Tab.find e.sys.ldgRead who.key with
  | some (a, c) =>
    if c + 16 ≤ e.now then
      { b with eng := { e with sys := { e.sys with ldgShown := Tab.put e.sys.ldgShown who.key (b.mem.ledgerRead a) } } }
    else b
  | none => b

/-- LEDGER_READ_DONE (R465). -/
def execLedgerReadDone (who : Acc) (s : State) : Host.Outcome State Fault Refusal := s.onAcc who (fun b => b.ledgerReadDone who)

end Sys2Proof.Machine
end

