-- ==== Sys2Proof/Machine/LinkRegs.lean ====
section
/-! DEFINITION. Links, Basin, forwarding, Warden and schedule: the register accesses that act (04_link_ports.md, 07_basin_switching.md,
08_scheduled_windows.md). -/

namespace Sys2Proof.Machine

/-- LNKn_CTL.EN written 1 (04_link_ports.md R85). -/
def execLinkEnSet (who : Acc) (n : LinkId) (v : Word) (s : State) : Host.Outcome State Fault Refusal :=
  s.action who .LNK_CTL n.val v (fun v => bit v 0)

/-- LNKn_CTL.EN written 0 (R85, R92). -/
def execLinkEnClear (who : Acc) (n : LinkId) (v : Word) (s : State) : Host.Outcome State Fault Refusal :=
  s.action who .LNK_CTL n.val v (fun v => !bit v 0)

/-- LNKn_CTL.UP_REQ (R85, R86). -/
def execUpRequest (who : Acc) (n : LinkId) (v : Word) (s : State) : Host.Outcome State Fault Refusal :=
  s.action who .LNK_CTL n.val v (fun v => bit v 1)

/-- LNKn_CTL.LOSS (R85, R88). -/
def execLinkLossWrite (who : Acc) (n : LinkId) (v : Word) (s : State) : Host.Outcome State Fault Refusal :=
  s.action who .LNK_CTL n.val v (fun v => bit v 2)

/-- LNKn_TSCTL.POP_I (R97). -/
def execTsPopIngress (who : Acc) (n : LinkId) (v : Word) (s : State) : Host.Outcome State Fault Refusal :=
  s.action who .LNK_TSCTL n.val v (fun v => bit v 0)

/-- LNKn_TSCTL.POP_E (R97). -/
def execTsPopEgress (who : Acc) (n : LinkId) (v : Word) (s : State) : Host.Outcome State Fault Refusal :=
  s.action who .LNK_TSCTL n.val v (fun v => bit v 1)

/-- A write of BSN_ALLOC (07_basin_switching.md R197). -/
def execBsnAlloc (who : Acc) (v : Word) (s : State) : Host.Outcome State Fault Refusal :=
  s.action who .BSN_ALLOC 0 v (fun _ => true)

/-- A write of BSN_CHAIN1 (R197). -/
def execChainRelink (who : Acc) (v : Word) (s : State) : Host.Outcome State Fault Refusal :=
  s.action who .BSN_CHAIN1 0 v (fun _ => true)

/-- A write of BSN_RELEASE (R194, R197). -/
def execBsnRelease (who : Acc) (v : Word) (s : State) : Host.Outcome State Fault Refusal :=
  s.action who .BSN_RELEASE 0 v (fun _ => true)

/-- BSN_INJGO.GO (R198). -/
def execFrameInject (who : Acc) (v : Word) (s : State) : Host.Outcome State Fault Refusal :=
  s.action who .BSN_INJGO 0 v (fun v => bit v 0)

/-- FWD_OP.OP INSERT (R173). -/
def execFwdInsert (who : Acc) (v : Word) (s : State) : Host.Outcome State Fault Refusal :=
  s.action who .FWD_OP 0 v (fun v => v % 8 == 1)

/-- FWD_OP.OP DELETE (R173). -/
def execFwdDelete (who : Acc) (v : Word) (s : State) : Host.Outcome State Fault Refusal :=
  s.action who .FWD_OP 0 v (fun v => v % 8 == 2)

/-- FWD_OP.OP FIND (R173). -/
def execFwdFind (who : Acc) (v : Word) (s : State) : Host.Outcome State Fault Refusal :=
  s.action who .FWD_OP 0 v (fun v => v % 8 == 3)

/-- FWD_OP.OP READ (R173). -/
def execFwdRead (who : Acc) (v : Word) (s : State) : Host.Outcome State Fault Refusal :=
  s.action who .FWD_OP 0 v (fun v => v % 8 == 4)

/-- WRD_CTL.NOW (R191). -/
def execWardenNow (who : Acc) (v : Word) (s : State) : Host.Outcome State Fault Refusal :=
  s.action who .WRD_CTL 0 v (fun v => bit v 1)

/-- SCH_LCTL.APPLY (08_scheduled_windows.md R209). -/
def execRowSetApply (who : Acc) (v : Word) (s : State) : Host.Outcome State Fault Refusal :=
  s.action who .SCH_LCTL 0 v (fun v => bit v 2)

/-- SCH_LCTL.CANCEL (R209). -/
def execRowSetCancel (who : Acc) (v : Word) (s : State) : Host.Outcome State Fault Refusal :=
  s.action who .SCH_LCTL 0 v (fun v => bit v 3)

/-- SCH_LCTL.EN written 1 (R222). -/
def execScheduleEnSet (who : Acc) (v : Word) (s : State) : Host.Outcome State Fault Refusal :=
  s.action who .SCH_LCTL 0 v (fun v => bit v 0)

/-- SCH_LCTL.EN written 0 (R222). -/
def execScheduleEnClear (who : Acc) (v : Word) (s : State) : Host.Outcome State Fault Refusal :=
  s.action who .SCH_LCTL 0 v (fun v => !bit v 0)

/-- SCH_EOP 1 (R229). -/
def execSchEntryWrite (who : Acc) (v : Word) (s : State) : Host.Outcome State Fault Refusal :=
  s.action who .SCH_EOP 0 v (fun v => v == 1)

/-- SCH_EOP 2 (R229). -/
def execSchEntryRead (who : Acc) (v : Word) (s : State) : Host.Outcome State Fault Refusal :=
  s.action who .SCH_EOP 0 v (fun v => v == 2)

/-- SCH_BCTL.COMMIT (R213). -/
def execBufferCommit (who : Acc) (v : Word) (s : State) : Host.Outcome State Fault Refusal :=
  s.action who .SCH_BCTL 0 v (fun v => bit v 0)

/-- SCH_BCTL.CLEAR (R213). -/
def execBufferClear (who : Acc) (v : Word) (s : State) : Host.Outcome State Fault Refusal :=
  s.action who .SCH_BCTL 0 v (fun v => bit v 1)

/-- FWD_OVR0 with an action in FWD_OVR1.ACT (R175): 0 KEEP, 1 DROP, 2 PORTS, 3 TRAP. -/
def State.overrideCmd (s : State) (who : Acc) (v : Word) (act : Nat) : Host.Outcome State Fault Refusal :=
  s.onAcc who (fun b => if b.eng.fld F.FWD_OVR1_ACT 0 = act then b.regWrite who (Reg.addr .FWD_OVR0 0) v.toNat else b)

/-- An override commit with KEEP (R175). -/
def execOverrideKeep (who : Acc) (v : Word) (s : State) : Host.Outcome State Fault Refusal := s.overrideCmd who v 0

/-- An override commit with DROP (R175). -/
def execOverrideDrop (who : Acc) (v : Word) (s : State) : Host.Outcome State Fault Refusal := s.overrideCmd who v 1

/-- An override commit with PORTS (R175). -/
def execOverridePorts (who : Acc) (v : Word) (s : State) : Host.Outcome State Fault Refusal := s.overrideCmd who v 2

/-- An override commit with TRAP (R175). -/
def execOverrideTrap (who : Acc) (v : Word) (s : State) : Host.Outcome State Fault Refusal := s.overrideCmd who v 3

/-- A read of BSN_TRAP0 (R199). -/
def execTrapPop (who : Acc) (s : State) : Host.Outcome State Fault Refusal :=
  s.onAcc who (fun b => b.regRead who (Reg.addr .BSN_TRAP0 0))

/-- A read of FWD_NOTE0 (R174). -/
def execNoticePop (who : Acc) (s : State) : Host.Outcome State Fault Refusal :=
  s.onAcc who (fun b => b.regRead who (Reg.addr .FWD_NOTE0 0))

end Sys2Proof.Machine
end

