-- ==== Sys2Proof/Machine/PowerEvents.lean ====
section
/-! DEFINITION. Power states, reset, start-up, self-test, scrubbing (18_power.md, 19_reset_recovery.md). -/

namespace Sys2Proof.Machine

/-- POWER_STATE_ENTRY (18_power.md R472). -/
def execPowerStateEntry (s : State) : Host.Outcome State Fault Refusal :=
  s.onEng (fun e => e.powerEntry)

/-- POWER_ENTRY_END (R472). -/
def execPowerEntryEnd (s : State) : Host.Outcome State Fault Refusal :=
  s.onEng (fun e => e.powerEntryEnd)

/-- POWER_EXIT_START (R474). -/
def execPowerExitStart (s : State) : Host.Outcome State Fault Refusal :=
  s.onEng (fun e => e.powerExitStart)

/-- POWER_EXIT_END (R475). -/
def execPowerExitEnd (s : State) : Host.Outcome State Fault Refusal :=
  s.onEng (fun e => e.powerExitEnd)

/-- LINK_WAKE: the levels of a link's signals (R477). -/
def execLinkWake (n : LinkId) (pins : BitVec 16) (s : State) : Host.Outcome State Fault Refusal :=
  s.onEng (fun e => e.linkWake n.val pins.toNat)

/-- POWER_ON_RESET: the level of the detector (21_integration.md R528). -/
def execPowerOnReset (level : Bool) (s : State) : Host.Outcome State Fault Refusal :=
  s.onBlock (fun b => b.powerOn level)

/-- BLOCK_RESET_ASSERT (19_reset_recovery.md R479). -/
def execBlockResetAssert (s : State) : Host.Outcome State Fault Refusal :=
  s.onBlock (fun b => b.resetAssert)

/-- BLOCK_RESET_RELEASE (R479). -/
def execBlockResetRelease (s : State) : Host.Outcome State Fault Refusal :=
  s.onEng (fun e => e.resetRelease)

/-- PLL_LOCK (R486). -/
def execPllLock (s : State) : Host.Outcome State Fault Refusal :=
  s.onBlock (fun b => { b with eng := b.eng.pllLock b.mem })

/-- MEMORY_INIT_END (R486). -/
def execMemoryInitEnd (s : State) : Host.Outcome State Fault Refusal :=
  s.onEng (fun e => e.memoryInitEnd)

/-- BOOT_DECISION (R488). -/
def execBootDecision (s : State) : Host.Outcome State Fault Refusal :=
  s.onEng (fun e => e.bootDecision)

/-- WATCHDOG_EXPIRY (R494). -/
def execWatchdogExpiry (s : State) : Host.Outcome State Fault Refusal :=
  s.onEng (fun e => e.watchdogExpiry)

/-- BIST_END: the tests that failed, the first failing memory with its word and places (R493). -/
def execBistEnd (failed : BitVec 2) (mem : Byte) (idx : BitVec 24) (where_ : BitVec 4) (s : State) : Host.Outcome State Fault Refusal :=
  s.onBlock (fun b => b.bistEnd failed.toNat mem.toNat idx.toNat where_.toNat)

/-- SCRUB_VISIT: a word of a memory (R495). -/
def execScrubVisit (mem : Fin 12) (idx : Word) (s : State) : Host.Outcome State Fault Refusal :=
  s.onEng (fun e => if e.awake then e.scrubVisit mem.val idx.toNat else e)

end Sys2Proof.Machine
end

