-- ==== Sys2Proof/Machine/ReedEvents.lean ====
section
/-! DEFINITION. What happens to a reed from outside: ticks, waits, timed actions, tracked edges (05_reeds.md). -/

namespace Sys2Proof.Machine

/-- INPUT_TICK: the signals as sampled, at a phase of this cycle (R109). -/
def execInputTick (k : ReedId) (pins : BitVec 16) (phase : Fin 16) (s : State) : Host.Outcome State Fault Refusal :=
  s.onEng (fun e => e.inputTick k.val pins.toNat phase.val)

/-- OUTPUT_TICK (R111); the phase is that of an edge of a clock pin (R107). -/
def execOutputTick (k : ReedId) (phase : Fin 16) (s : State) : Host.Outcome State Fault Refusal :=
  s.onEng (fun e => e.outputTick k.val phase.val)

/-- REED_WAIT_END: the signals in this cycle, at a phase (R110, R115). -/
def execReedWaitEnd (k : ReedId) (pins : BitVec 16) (phase : Fin 16) (s : State) : Host.Outcome State Fault Refusal :=
  s.onEng (fun e => e.reedWaitEnd k.val pins.toNat phase.val)

/-- REED_ACTION_EXECUTE (03_sundial.md R70). -/
def execReedActionExecute (k : ReedId) (s : State) : Host.Outcome State Fault Refusal :=
  s.onEng (fun e => e.reedAction k.val)

/-- TRACKER_CORRECTION: an edge at a phase of this cycle (06_line_coding.md R153). -/
def execTrackerCorrection (k : ReedId) (pins : BitVec 16) (phase : Fin 16) (s : State) : Host.Outcome State Fault Refusal :=
  s.onEng (fun e => e.trackerEdge k.val pins.toNat phase.val)

end Sys2Proof.Machine
end

