-- ==== Sys2Proof/Machine/ReedInsn.lean ====
section
/-! DEFINITION. The instructions of the reeds: the encodings and the checks of their operands (05_reeds.md R112 to R115); what they do is in
Reeds.lean. -/

namespace Sys2Proof.Machine

/-- The command that issues a reed's instruction, where the word at its PC is one that `is` recognises. -/
def State.onReed (s : State) (k : ReedId) (is ok : Nat → Bool) (run : Eng → Nat → Nat → ROut) : Host.Outcome State Fault Refusal :=
  s.onEng (fun e => e.deliverDue.reedInsn k.val is ok run)

/-- NOP (05_reeds.md R113). -/
def execReedNop (k : ReedId) (s : State) : Host.Outcome State Fault Refusal :=
  s.onReed k (fun w => rop w == 0x00) (fun _ => true) rNop

/-- SIN (R110). -/
def execReedSin (k : ReedId) (s : State) : Host.Outcome State Fault Refusal :=
  s.onReed k (fun w => rop w == 0x01) (fun w => bits w 9 0 == 0) rSin

/-- SOUT (R110). -/
def execReedSout (k : ReedId) (s : State) : Host.Outcome State Fault Refusal :=
  s.onReed k (fun w => rop w == 0x02) (fun w => bits w 9 0 == 0) rSout

/-- MOV. -/
def execReedMov (k : ReedId) (s : State) : Host.Outcome State Fault Refusal :=
  s.onReed k (fun w => rop w == 0x03) (fun w => bits w 9 0 == 0) rMov

/-- LDI. -/
def execReedLdi (k : ReedId) (s : State) : Host.Outcome State Fault Refusal :=
  s.onReed k (fun w => rop w == 0x04) (fun _ => true) rLdi

/-- LDH. -/
def execReedLdh (k : ReedId) (s : State) : Host.Outcome State Fault Refusal :=
  s.onReed k (fun w => rop w == 0x05) (fun w => bits w 5 0 == 0) rLdh

/-- ALU, OP 0. -/
def execReedAnd (k : ReedId) (s : State) : Host.Outcome State Fault Refusal :=
  s.onReed k (fun w => rop w == 0x06 && bits w 9 7 == 0) (fun w => bits w 6 0 == 0) (rAlu (fun a b => a &&& b))

/-- ALU, OP 1. -/
def execReedOr (k : ReedId) (s : State) : Host.Outcome State Fault Refusal :=
  s.onReed k (fun w => rop w == 0x06 && bits w 9 7 == 1) (fun w => bits w 6 0 == 0) (rAlu (fun a b => a ||| b))

/-- ALU, OP 2. -/
def execReedXor (k : ReedId) (s : State) : Host.Outcome State Fault Refusal :=
  s.onReed k (fun w => rop w == 0x06 && bits w 9 7 == 2) (fun w => bits w 6 0 == 0) (rAlu (fun a b => a ^^^ b))

/-- ALU, OP 3. -/
def execReedAdd (k : ReedId) (s : State) : Host.Outcome State Fault Refusal :=
  s.onReed k (fun w => rop w == 0x06 && bits w 9 7 == 3) (fun w => bits w 6 0 == 0) (rAlu (fun a b => (a + b) % 2 ^ 20))

/-- ALU, OP 4. -/
def execReedSub (k : ReedId) (s : State) : Host.Outcome State Fault Refusal :=
  s.onReed k (fun w => rop w == 0x06 && bits w 9 7 == 4) (fun w => bits w 6 0 == 0) (rAlu (fun a b => (a + 2 ^ 20 - b) % 2 ^ 20))

/-- ALU, OP 5. -/
def execReedShl (k : ReedId) (s : State) : Host.Outcome State Fault Refusal :=
  s.onReed k (fun w => rop w == 0x06 && bits w 9 7 == 5) (fun w => bits w 6 0 == 0) (rAlu (fun a b => a <<< (b % 32) % 2 ^ 20))

/-- ALU, OP 6. -/
def execReedShr (k : ReedId) (s : State) : Host.Outcome State Fault Refusal :=
  s.onReed k (fun w => rop w == 0x06 && bits w 9 7 == 6) (fun w => bits w 6 0 == 0) (rAlu (fun a b => a >>> (b % 32)))

/-- ALU, OP 7. -/
def execReedNot (k : ReedId) (s : State) : Host.Outcome State Fault Refusal :=
  s.onReed k (fun w => rop w == 0x06 && bits w 9 7 == 7) (fun w => bits w 6 0 == 0) (rAlu (fun _ b => 2 ^ 20 - 1 - b))

/-- SHI. -/
def execReedShi (k : ReedId) (s : State) : Host.Outcome State Fault Refusal :=
  s.onReed k (fun w => rop w == 0x07) (fun w => bits w 6 0 == 0 && decide (bits w 11 7 < 20)) rShi

/-- JMP (R115). -/
def execReedJmp (k : ReedId) (s : State) : Host.Outcome State Fault Refusal :=
  s.onReed k (fun w => rop w == 0x08) (fun w => !bit w 6) rJmp

/-- DJNZ. -/
def execReedDjnz (k : ReedId) (s : State) : Host.Outcome State Fault Refusal :=
  s.onReed k (fun w => rop w == 0x09) (fun w => bits w 13 6 == 0) rDjnz

/-- WAITP (R115). -/
def execReedWaitp (k : ReedId) (s : State) : Host.Outcome State Fault Refusal :=
  s.onReed k (fun w => rop w == 0x0A) (fun w => bits w 8 0 == 0) rWaitp

/-- WAITE (R124). -/
def execReedWaite (k : ReedId) (s : State) : Host.Outcome State Fault Refusal :=
  s.onReed k (fun w => rop w == 0x0B) (fun w => bits w 14 0 == 0) rWaite

/-- SETP, MODE 0: the level of one signal (R104). -/
def execReedSetpLevel (k : ReedId) (s : State) : Host.Outcome State Fault Refusal :=
  s.onReed k (fun w => rop w == 0x0C && bits w 14 13 == 0) (fun w => bits w 7 0 == 0) (rSetpOne false)

/-- SETP, MODE 1: the levels of the signals of QA. -/
def execReedSetpMasked (k : ReedId) (s : State) : Host.Outcome State Fault Refusal :=
  s.onReed k (fun w => rop w == 0x0C && bits w 14 13 == 1) (fun w => bits w 7 0 == 0) (rSetpMany false)

/-- SETP, MODE 2: the enable of one signal (R104). -/
def execReedSetpEnable (k : ReedId) (s : State) : Host.Outcome State Fault Refusal :=
  s.onReed k (fun w => rop w == 0x0C && bits w 14 13 == 2) (fun w => bits w 7 0 == 0) (rSetpOne true)

/-- SETP, MODE 3: the enables of the signals of QA. -/
def execReedSetpEnables (k : ReedId) (s : State) : Host.Outcome State Fault Refusal :=
  s.onReed k (fun w => rop w == 0x0C && bits w 14 13 == 3) (fun w => bits w 7 0 == 0) (rSetpMany true)

/-- PUSHF (R122). -/
def execReedPushf (k : ReedId) (s : State) : Host.Outcome State Fault Refusal :=
  s.onReed k (fun w => rop w == 0x0D) (fun w => bits w 11 0 == 0) rPushf

/-- PULLM (R123). -/
def execReedPullm (k : ReedId) (s : State) : Host.Outcome State Fault Refusal :=
  s.onReed k (fun w => rop w == 0x0E) (fun w => bits w 12 0 == 0) rPullm

/-- PUSHS (R119). -/
def execReedPushs (k : ReedId) (s : State) : Host.Outcome State Fault Refusal :=
  s.onReed k (fun w => rop w == 0x0F) (fun w => bits w 5 0 == 0) rPushs

/-- PULLS (R120). -/
def execReedPulls (k : ReedId) (s : State) : Host.Outcome State Fault Refusal :=
  s.onReed k (fun w => rop w == 0x10) (fun w => bits w 12 0 == 0) rPulls

/-- CRC INIT (06_line_coding.md R155); OP 2 and 3 are unlisted. -/
def execReedCrcInit (k : ReedId) (s : State) : Host.Outcome State Fault Refusal :=
  s.onReed k (fun w => rop w == 0x12 && bits w 14 13 != 1) (fun w => bits w 14 13 == 0 && bits w 4 0 == 0) rCrcInit

/-- CRC FEED (R155). -/
def execReedCrcFeed (k : ReedId) (s : State) : Host.Outcome State Fault Refusal :=
  s.onReed k (fun w => rop w == 0x12 && bits w 14 13 == 1) (fun w => bits w 4 0 == 0 && decide (bits w 9 5 < 20)) rCrcFeed

/-- DRST (05_reeds.md R106). -/
def execReedDrst (k : ReedId) (s : State) : Host.Outcome State Fault Refusal :=
  s.onReed k (fun w => rop w == 0x13) (fun w => bits w 11 0 == 0 && bits w 14 13 != 0) rDrst

/-- TLD (R116). -/
def execReedTld (k : ReedId) (s : State) : Host.Outcome State Fault Refusal :=
  s.onReed k (fun w => rop w == 0x14) (fun w => bits w 12 0 == 0) rTld

/-- TADD (R116). -/
def execReedTadd (k : ReedId) (s : State) : Host.Outcome State Fault Refusal :=
  s.onReed k (fun w => rop w == 0x15) (fun w => bits w 13 12 != 3) rTadd

/-- POST, KIND 0 (R117); KIND 3 is unlisted. -/
def execReedPostPin (k : ReedId) (s : State) : Host.Outcome State Fault Refusal :=
  s.onReed k (fun w => rop w == 0x16 && (bits w 14 13 == 0 || bits w 14 13 == 3)) (fun w => bits w 14 13 == 0 && bits w 7 0 == 0) rPost

/-- POST, KIND 1. -/
def execReedPostOstart (k : ReedId) (s : State) : Host.Outcome State Fault Refusal :=
  s.onReed k (fun w => rop w == 0x16 && bits w 14 13 == 1) (fun w => bits w 12 0 == 0) rPost

/-- POST, KIND 2. -/
def execReedPostFire (k : ReedId) (s : State) : Host.Outcome State Fault Refusal :=
  s.onReed k (fun w => rop w == 0x16 && bits w 14 13 == 2) (fun w => bits w 12 7 == 0) rPost

/-- MARK. -/
def execReedMark (k : ReedId) (s : State) : Host.Outcome State Fault Refusal :=
  s.onReed k (fun w => rop w == 0x17) (fun w => bits w 13 0 == 0) rMark

/-- FIRE. -/
def execReedFire (k : ReedId) (s : State) : Host.Outcome State Fault Refusal :=
  s.onReed k (fun w => rop w == 0x18) (fun w => bits w 14 7 == 0) rFire

/-- STOP; an opcode from 0x1A on stops with ILLEGAL (R112). -/
def execReedStopInsn (k : ReedId) (s : State) : Host.Outcome State Fault Refusal :=
  s.onReed k (fun w => decide (0x19 ≤ rop w)) (fun w => rop w == 0x19 && bits w 14 0 == 0) rStop

end Sys2Proof.Machine
end

