-- ==== Sys2Proof/Machine/ReedRegs.lean ====
section
/-! DEFINITION. Reeds and coder assist: the register accesses that act (05_reeds.md, 06_line_coding.md). -/

namespace Sys2Proof.Machine

/-- REEDk_CTL.START (05_reeds.md R125). -/
def execReedStart (who : Acc) (k : ReedId) (v : Word) (s : State) : Host.Outcome State Fault Refusal :=
  s.action who .REED_CTL k.val v (fun v => bit v 0)

/-- REEDk_CTL.ARM (R125). -/
def execReedArm (who : Acc) (k : ReedId) (v : Word) (s : State) : Host.Outcome State Fault Refusal :=
  s.action who .REED_CTL k.val v (fun v => bit v 1)

/-- REEDk_CTL.HALT (R125). -/
def execReedHalt (who : Acc) (k : ReedId) (v : Word) (s : State) : Host.Outcome State Fault Refusal :=
  s.action who .REED_CTL k.val v (fun v => bit v 2)

/-- REEDk_CTL.SWAP (R130). -/
def execReedSwap (who : Acc) (k : ReedId) (v : Word) (s : State) : Host.Outcome State Fault Refusal :=
  s.action who .REED_CTL k.val v (fun v => bit v 3)

/-- REEDk_CTL.FORCE (R131). -/
def execReedForce (who : Acc) (k : ReedId) (v : Word) (s : State) : Host.Outcome State Fault Refusal :=
  s.action who .REED_CTL k.val v (fun v => bit v 4)

/-- REEDk_SYNC.GO of a pavilion (R126). -/
def execReedSyncGo (who : Acc) (p : Pav) (v : Word) (s : State) : Host.Outcome State Fault Refusal :=
  s.action who .REED_SYNC (16 * p.val) v (fun v => bit v 9)

/-- A write of REEDk_MBX (R123). -/
def execReedMbxWrite (who : Acc) (k : ReedId) (v : Word) (s : State) : Host.Outcome State Fault Refusal :=
  s.action who .REED_MBX k.val v (fun _ => true)

/-- A write of REEDk_PDATA (R128, R130). -/
def execProgramWrite (who : Acc) (k : ReedId) (v : Word) (s : State) : Host.Outcome State Fault Refusal :=
  s.action who .REED_PDATA k.val v (fun _ => true)

/-- A write of REEDk_TSET0 (R133). -/
def execTsetCommit (who : Acc) (k : ReedId) (v : Word) (s : State) : Host.Outcome State Fault Refusal :=
  s.action who .REED_TSET (4 * k.val) v (fun _ => true)

/-- COD_CTL.SRST (06_line_coding.md R135, R159). -/
def execSlotReset (who : Acc) (v : Word) (s : State) : Host.Outcome State Fault Refusal :=
  s.action who .COD_CTL 0 v (fun v => bit v 0)

/-- COD_CTL.SRSTALL (R135, R159). -/
def execSlotResetAll (who : Acc) (v : Word) (s : State) : Host.Outcome State Fault Refusal :=
  s.action who .COD_CTL 0 v (fun v => bit v 1)

/-- A write of COD_MODE (R159). -/
def execCodModeWrite (who : Acc) (v : Word) (s : State) : Host.Outcome State Fault Refusal :=
  s.action who .COD_MODE 0 v (fun _ => true)

/-- A read of REEDk_FIFO (R122). -/
def execReedFifoRead (who : Acc) (k : ReedId) (s : State) : Host.Outcome State Fault Refusal :=
  s.onAcc who (fun b => b.regRead who (Reg.addr .REED_FIFO k.val))

end Sys2Proof.Machine
end

