-- ==== Sys2Proof/Machine/ThreadEvents.lean ====
section
/-! DEFINITION. Events of threads that no instruction makes: interrupt entry (09_barrels_threads.md R254), a HOLD or a halt that
waited (R247; 20_hide_debug.md R507, R510), accesses held behind a locked sequence (12_memory_fabric.md R330, R333),
responses of the host window (R293). -/

namespace Sys2Proof.Machine

/-- May a due interrupt be taken now: at an issue of a RUN thread outside a locked sequence, or in WAIT on WTK or WEV
(R242, R253, R254)? -/
def Eng.canInterrupt (e : Eng) (t : Nat) : Bool :=
  let x := e.getThr t
  let state := match x.st, x.wait with
    | .run, _ => x.seq.isNone && !x.atDone
    | .wait, .wtk => true
    | .wait, .wev _ _ => true
    | _, _ => false
  x.intDue && state && e.barrelRuns (pavOf t) && !x.holdReq && x.haltReq.isNone && !e.outranked t 0 && e.offered t

/-- INTERRUPT_ENTRY (R254). -/
def Eng.interruptEntry (e : Eng) (t : Nat) : Eng :=
  let e := e.deliverDue
  if e.canInterrupt t then
    (e.enterInt t).stepEnd t
  else e

/-- THREAD_HELD: the last instruction of a held thread has completed (R247). -/
def Eng.threadHeld (e : Eng) (t : Nat) : Eng :=
  let x := e.getThr t
  if x.holdReq ∧ !x.inFlight ∧ x.seq.isNone then
    let e1 := e.abandonWait t
    let y := e1.getThr t
    e1.setThr t { y.setUnder .held with holdReq := false }
  else e

/-- THREAD_HALTED: the last instruction of a halted thread has completed (R507, R510). -/
def Eng.threadHalted (e : Eng) (t : Nat) : Eng :=
  let x := e.getThr t
  match x.haltReq with
  | some (cause, comp, deferred) =>
    if x.mem.isNone ∧ x.seq.isNone ∧ x.st ≠ .halted then e.becomeHalted t cause comp deferred else e
  | none => e

/-- The oldest outstanding transaction of thread accesses of a pavilion on the initiator port (12_memory_fabric.md R336). -/
def Eng.windowTxn (e : Eng) (p : Nat) : Option (Txn × Nat) :=
  (e.oldestTxn (0x20 + p)).bind (fun x => match x.why with
    | .window t => some (x, t)
    | _ => none)

/-- HOST_WINDOW_RESPONSE (R293, R323, R324); of a thread that was reset since, the response is discarded (R248). -/
def Block.windowResponse (b : Block) (p code data : Nat) : Block :=
  match b.eng.windowTxn p with
  | some (x, t) =>
    let e := b.eng.dropTxn (0x20 + p)
    let e := if code = 0 then e else e.busError x.addr 31 code
    if t = 0 then { b with eng := e } else ({ b with eng := e } : Block).hostResponse t code data
  | none => b

/-- INTERRUPT_ENTRY (R254). -/
def execInterruptEntry (t : Tid) (s : State) := s.thrEvent t (fun b => b.onEng (fun e => e.interruptEntry t.val))
/-- THREAD_HELD (R247). -/
def execThreadHeld (t : Tid) (s : State) := s.thrEvent t (fun b => b.onEng (fun e => e.threadHeld t.val))
/-- THREAD_HALTED (R507). -/
def execThreadHalted (t : Tid) (s : State) := s.thrEvent t (fun b => b.onEng (fun e => e.threadHalted t.val))
/-- BANK_HOLD_RELEASE (R330). -/
def execBankHoldRelease (bank : Fin 20) (s : State) := s.onBlock (fun b => b.releaseHeld bank.val)
/-- HOST_WINDOW_RESPONSE (R293). -/
def execHostWindowResponse (p : Pav) (code : BitVec 2) (data : BitVec 64) (s : State) :=
  s.onBlock (fun b => b.windowResponse p.val code.toNat data.toNat)

end Sys2Proof.Machine
end

