-- ==== Sys2Proof/Machine/RingEvents.lean ====
section
/-! DEFINITION. The responses on the initiator port, and what the rings do by themselves (16_host_rings.md R399, R404 to R424). -/

namespace Sys2Proof.Machine

/-- A failed transaction whose ring HRG_BERRSTAT does not name is recorded with a free value (assumption 12). -/
def Eng.busErrorFree (e : Eng) (addr code : Nat) : Eng :=
  let (r, e) := e.freeVal 5
  e.busError addr r code

/-- A completion has become visible: its CMDQ entry is written back (R414), L of a critical RESET_ENGINE or leave advances (R445), and
the reset of those commands acts (R441, R490). -/
def Block.completionSeen (b : Block) : Block :=
  let e := b.eng
  match e.keys.shown with
  | [] => b
  | (idx, d) :: rest =>
    let e := { e with keys := { e.keys with shown := rest } }
    let e := e.ringOut 0 idx ((d.drop 24).take 7 ++ [BitVec.ofNat 8 (byteAt d 31 % 128 + 128)])
    match e.keys.reset with
    | some (i, cause, noboot, c) =>
      if i = idx then Block.engineReset ⟨b.mem, { e with keys := { e.keys with l := max e.keys.l c } }⟩ cause noboot
      else { b with eng := e }
    | none => { b with eng := e }

/-- An entry of ring r is visible. -/
def Block.entrySeen (b : Block) (r : Nat) : Block :=
  let b := b.onEng (fun e => e.entryVisible r)
  if r = 1 then b.completionSeen else b

/-- A transaction was answered DONE. -/
def Block.txnDone (b : Block) (x : Txn) (data : List Byte) : Block :=
  let e := b.eng
  match x.why with
  | .doorbell => { b with eng := e.passTake data }
  | .fetch r idx n => { b with eng := e.fetchTake x r idx n data }
  | .txData r idx _ => b.txData r idx data
  | .rxData r idx => { b with eng := e.rxDataDone r idx }
  | .entryHead r => { b with eng := e.entryTail r }
  | .entryTail r => b.entrySeen r
  | .window _ => b
  | .cmdData idx _ => { b with eng := b.cmdData idx true data }
  | .image _ => b.imageData true data
  | .discard => b

/-- A transaction was answered FAULT (1) or NOWHERE (2) (R412, R419, R435, R460). -/
def Block.txnFail (b : Block) (x : Txn) (code : Nat) : Block :=
  let e := b.eng
  match x.why with
  | .doorbell => { b with eng := (e.busErrorFree x.addr code).passEnd }
  | .fetch r _ _ => { b with eng := ((e.busError x.addr r code).stopRing r 1 [x]).passEnd }
  | .txData r idx _ => { b with eng := (e.busError x.addr r code).txDataErr r idx }
  | .rxData r idx =>
    let e := e.busError x.addr r code
    { b with eng := if e.ringState r = 0 then e.rxDataDone r idx else e.stopRing r 2 [x] }
  | .entryHead r =>
    let e := e.busError x.addr r code
    { b with eng := if e.ringState r = 0 then e.entryLost r else e.stopRing r 2 [x] }
  | .entryTail r =>
    let e := e.busError x.addr r code
    { b with eng := if e.ringState r = 0 then e.entryLost r else e.stopRing r 2 [x] }
  | .window _ => b
  | .cmdData idx _ => Block.mk b.mem (Block.cmdData ⟨b.mem, e.busErrorFree x.addr code⟩ idx false [])
  | .image _ => Block.imageData ⟨b.mem, e.busErrorFree x.addr code⟩ false []
  | .discard => b

/-- The response to the oldest transaction of an ID (12_memory_fabric.md R336). Code 3 is FAULT (R399); a read answered DONE brings
its bytes. -/
def Block.respond (b : Block) (id code : Nat) (data : List Byte) : Block :=
  match b.eng.oldestTxn id with
  | none => b
  | some x =>
    if code = 0 ∧ !x.wr ∧ data.length ≠ x.len then b
    else
      match x.why with
      | .window _ => b.windowResponse (id - 0x20) code (leAt data 0 8)
      | _ =>
        let b := b.onEng (fun e => e.dropTxn id)
        if code = 0 then b.txnDone x data else b.txnFail x (if code = 2 then 2 else 1)

/-- DOORBELL_PASS: a requested pass starts (R410). -/
def execDoorbellPass (s : State) : Host.Outcome State Fault Refusal := s.onEng (fun e => e.passStart)

/-- KNOCK: the level of JX_KNOCK (R410, R411; 18_power.md R471). -/
def execKnock (level : Bool) (s : State) : Host.Outcome State Fault Refusal := s.onEng (fun e => e.knock level)

/-- DOORBELL_POLL (R410). -/
def execDoorbellPoll (s : State) : Host.Outcome State Fault Refusal := s.onAwake (fun b => b.onEng (fun e => e.doorbellPoll))

/-- INITIATOR_RESPONSE (R399). -/
def execInitiatorResponse (id : BitVec 6) (code : BitVec 2) (data : List Byte) (s : State) : Host.Outcome State Fault Refusal :=
  s.onBlock (fun b => b.respond id.toNat code.toNat data)

/-- TX_DESCRIPTOR (R418). -/
def execTxDescriptor (k : Fin 8) (s : State) : Host.Outcome State Fault Refusal := s.onEng (fun e => e.txDescriptor k.val)

/-- TX_CELL_RETRY (R418). -/
def execTxCellRetry (k : Fin 8) (s : State) : Host.Outcome State Fault Refusal :=
  s.onAwake (fun b => b.onEng (fun e => e.txCellRetry k.val))

/-- TX_WRITEBACK (R419, R420). -/
def execTxWriteback (k : Fin 8) (s : State) : Host.Outcome State Fault Refusal := s.onEng (fun e => e.txWriteback k.val)

/-- RX_BUFFER_POST (R421). -/
def execRxBufferPost (k : Fin 8) (s : State) : Host.Outcome State Fault Refusal := s.onEng (fun e => e.rxBufferPost k.val)

/-- RX_FRAME_WRITE (R422). -/
def execRxFrameWrite (k : Fin 8) (s : State) : Host.Outcome State Fault Refusal := s.onBlock (fun b => b.rxFrameWrite k.val)

end Sys2Proof.Machine
end

