-- ==== Sys2Proof/Machine/SchedEvents.lean ====
section
/-! DEFINITION. What happens in the schedule layers (08_scheduled_windows.md). -/

namespace Sys2Proof.Machine

/-- WINDOW_CHECK (08_scheduled_windows.md R207). -/
def execWindowCheck (n : LinkId) (s : State) : Host.Outcome State Fault Refusal :=
  s.onAwake (fun b => b.onEng (fun e => e.windowCheck n.val))

/-- ROW_SET_CHECKS_END (R209). -/
def execRowSetChecksEnd (n : LinkId) (s : State) : Host.Outcome State Fault Refusal :=
  s.onAwake (fun b => b.onEng (fun e => e.rowChecksEnd n.val))

/-- ROW_SET_TAKE_EFFECT (R209). -/
def execRowSetTakeEffect (n : LinkId) (s : State) : Host.Outcome State Fault Refusal :=
  s.onAwake (fun b => b.onEng (fun e => e.rowTakeEffect n.val))

/-- REFERENCE_RECEIVE (R221). -/
def execReferenceReceive (n : LinkId) (s : State) : Host.Outcome State Fault Refusal :=
  s.onAwake (fun b => b.onEng (fun e => e.refEvent n.val))

/-- LISTEN_TIMER_EXPIRY (R222). -/
def execListenTimerExpiry (n : LinkId) (s : State) : Host.Outcome State Fault Refusal :=
  s.onAwake (fun b => b.onEng (fun e => e.listenEvent n.val))

/-- REF_WINDOW_MISS (R222). -/
def execRefWindowMiss (n : LinkId) (s : State) : Host.Outcome State Fault Refusal :=
  s.onAwake (fun b => b.onEng (fun e => e.missEvent n.val))

/-- GRID_FRAME_BOUNDARY (R222). -/
def execGridFrameBoundary (n : LinkId) (s : State) : Host.Outcome State Fault Refusal :=
  s.onAwake (fun b => b.onEng (fun e => e.gridBoundary n.val))

end Sys2Proof.Machine
end

