-- ==== Sys2Proof/Machine/ThreadRegs.lean ====
section
/-! DEFINITION. Threads, slot tables, locks and conduits: the register writes that act (09_barrels_threads.md, 13_locks_conduits.md). -/

namespace Sys2Proof.Machine

/-- THR_CTL.HOLD (09_barrels_threads.md R247). -/
def execThreadHold (who : Acc) (v : Word) (s : State) : Host.Outcome State Fault Refusal :=
  s.action who .THR_CTL 0 v (fun v => bit v 1)

/-- THR_CTL.RELEASE (R245, R246). -/
def execThreadRelease (who : Acc) (v : Word) (s : State) : Host.Outcome State Fault Refusal :=
  s.action who .THR_CTL 0 v (fun v => bit v 0)

/-- THR_CTL.RESET (R248). -/
def execThreadReset (who : Acc) (v : Word) (s : State) : Host.Outcome State Fault Refusal :=
  s.action who .THR_CTL 0 v (fun v => bit v 2)

/-- A write of THR_CDATA (R249, R250). -/
def execContextWrite (who : Acc) (v : Word) (s : State) : Host.Outcome State Fault Refusal :=
  s.action who .THR_CDATA 0 v (fun _ => true)

/-- THR_SWCTL.ACK (R262). -/
def execStillWaterAck (who : Acc) (v : Word) (s : State) : Host.Outcome State Fault Refusal :=
  s.action who .THR_SWCTL 0 v (fun v => bit v 9)

/-- A write of BRLp_SENT (R239). -/
def execSlotEntryWrite (who : Acc) (p : Pav) (v : Word) (s : State) : Host.Outcome State Fault Refusal :=
  s.action who .BRL_SENT p.val v (fun _ => true)

/-- BRLp_CTL.COPY (R239). -/
def execSlotTableCopy (who : Acc) (p : Pav) (v : Word) (s : State) : Host.Outcome State Fault Refusal :=
  s.action who .BRL_CTL p.val v (fun v => bit v 0)

/-- BRLp_CTL.APPLY (R239). -/
def execSlotTableApply (who : Acc) (p : Pav) (v : Word) (s : State) : Host.Outcome State Fault Refusal :=
  s.action who .BRL_CTL p.val v (fun v => bit v 1)

/-- BRLp_CTL.CANCEL (R240). -/
def execSlotTableCancel (who : Acc) (p : Pav) (v : Word) (s : State) : Host.Outcome State Fault Refusal :=
  s.action who .BRL_CTL p.val v (fun v => bit v 3)

/-- LCK_FCTL.FORCE (13_locks_conduits.md R350). -/
def execLockForce (who : Acc) (v : Word) (s : State) : Host.Outcome State Fault Refusal :=
  s.action who .LCK_FCTL 0 v (fun v => bit v 0)

/-- CND_CTL.ABORT (R355). -/
def execConduitAbort (who : Acc) (v : Word) (s : State) : Host.Outcome State Fault Refusal :=
  s.action who .CND_CTL 0 v (fun v => bit v 0)

/-- CND_CTL.FLUSH (R356). -/
def execConduitFlush (who : Acc) (v : Word) (s : State) : Host.Outcome State Fault Refusal :=
  s.action who .CND_CTL 0 v (fun v => bit v 1)

end Sys2Proof.Machine
end

