-- ==== Sys2Proof/Machine/TimeEvents.lean ====
section
/-! DEFINITION. Ticks, slot tables, the Causeway, timers, gates of barrels (02_time_levels.md, 09_barrels_threads.md, 14_causeway.md,
15_timers.md, 18_power.md). -/

namespace Sys2Proof.Machine

/-- STILL_WATER_WAKE (09_barrels_threads.md R261). -/
def execStillWaterWake (s : State) : Host.Outcome State Fault Refusal :=
  s.onAwake (fun b => b.onEng (fun e => e.stillWake))

/-- SLOT_CHECKS_END (R239). -/
def execSlotChecksEnd (p : Pav) (s : State) : Host.Outcome State Fault Refusal :=
  s.onAwake (fun b => b.onEng (fun e => e.slotChecksEnd p.val))

/-- SLOT_TABLE_TAKE_EFFECT (R240). -/
def execSlotTableTakeEffect (p : Pav) (s : State) : Host.Outcome State Fault Refusal :=
  s.onAwake (fun b => b.onEng (fun e => e.tableDue p.val))

/-- TICK_LAUNCH (02_time_levels.md R27). -/
def execTickLaunch (s : State) : Host.Outcome State Fault Refusal :=
  s.onAwake (fun b => b.onEng (fun e => e.tickLaunch))

/-- TICK_RUNNING_CLEAR (R46). -/
def execTickRunningClear (s : State) : Host.Outcome State Fault Refusal :=
  s.onAwake (fun b => b.onEng (fun e => e.tickRunningClear))

/-- CHANNEL_DELIVERY (14_causeway.md R364). -/
def execChannelDelivery (ch : Chan) (s : State) : Host.Outcome State Fault Refusal :=
  s.onEng (fun e => e.channelDelivery ch.val)

/-- FLOOD_COUNT_RESET (R372). -/
def execFloodCountReset (s : State) : Host.Outcome State Fault Refusal :=
  s.onAwake (fun b => b.onEng (fun e => e.floodReset))

/-- TIMER_INCREMENT (15_timers.md R378). -/
def execTimerIncrement (u : TmrId) (s : State) : Host.Outcome State Fault Refusal :=
  s.onEng (fun e => e.tmrIncrement u.val)

/-- BARREL_GATE (18_power.md R468). -/
def execBarrelGate (p : Pav) (s : State) : Host.Outcome State Fault Refusal :=
  s.onAwake (fun b => b.onEng (fun e => e.barrelGate p.val))

/-- BARREL_UNGATE (R469). -/
def execBarrelUngate (p : Pav) (s : State) : Host.Outcome State Fault Refusal :=
  s.onAwake (fun b => b.onEng (fun e => e.barrelUngate p.val))

end Sys2Proof.Machine
end

