-- ==== Sys2Proof/Machine/TimeRegs.lean ====
section
/-! DEFINITION. Ticks, Sundial, Causeway and timers: the register accesses that act (02_time_levels.md, 03_sundial.md, 14_causeway.md,
15_timers.md). -/

namespace Sys2Proof.Machine

/-- TIK_CTL.APPLY (02_time_levels.md R42, R43). -/
def execTickApply (who : Acc) (v : Word) (s : State) : Host.Outcome State Fault Refusal :=
  s.action who .TIK_CTL 0 v (fun v => bit v 1)

/-- TIK_CTL.CANCEL (R44). -/
def execTickCancel (who : Acc) (v : Word) (s : State) : Host.Outcome State Fault Refusal :=
  s.action who .TIK_CTL 0 v (fun v => bit v 3)

/-- TIK_CTL.RUN written 1 (R46). -/
def execTickRunSet (who : Acc) (v : Word) (s : State) : Host.Outcome State Fault Refusal :=
  s.action who .TIK_CTL 0 v (fun v => bit v 0)

/-- TIK_CTL.RUN written 0 (R46). -/
def execTickRunClear (who : Acc) (v : Word) (s : State) : Host.Outcome State Fault Refusal :=
  s.action who .TIK_CTL 0 v (fun v => !bit v 0)

/-- SUN_CTL.OP STEP (03_sundial.md R61). -/
def execSundialStep (who : Acc) (v : Word) (s : State) : Host.Outcome State Fault Refusal :=
  s.action who .SUN_CTL 0 v (fun v => v == 1)

/-- SUN_CTL.OP LOAD (R61). -/
def execSundialLoad (who : Acc) (v : Word) (s : State) : Host.Outcome State Fault Refusal :=
  s.action who .SUN_CTL 0 v (fun v => v == 2)

/-- SUN_CTL.OP RATE (R55, R61). -/
def execSundialRate (who : Acc) (v : Word) (s : State) : Host.Outcome State Fault Refusal :=
  s.action who .SUN_CTL 0 v (fun v => v == 3)

/-- A write of CWY_FIRE (14_causeway.md R368). -/
def execSoftwareFire (who : Acc) (v : Word) (s : State) : Host.Outcome State Fault Refusal :=
  s.action who .CWY_FIRE 0 v (fun _ => true)

/-- A W1C write of CWY_MUTEw (R373). -/
def execUnmute (who : Acc) (w : Fin 7) (v : Word) (s : State) : Host.Outcome State Fault Refusal :=
  s.action who .CWY_MUTE w.val v (fun _ => true)

/-- TMR_CTL.START (15_timers.md R384, R385). -/
def execTimerStart (who : Acc) (u : TmrId) (v : Word) (s : State) : Host.Outcome State Fault Refusal :=
  s.action who .TMR_CTL u.val v (fun v => bit v 0)

/-- TMR_CTL.STOP (R384). -/
def execTimerStop (who : Acc) (u : TmrId) (v : Word) (s : State) : Host.Outcome State Fault Refusal :=
  s.action who .TMR_CTL u.val v (fun v => bit v 1)

/-- TMR_CTL.CONT (R384). -/
def execTimerCont (who : Acc) (u : TmrId) (v : Word) (s : State) : Host.Outcome State Fault Refusal :=
  s.action who .TMR_CTL u.val v (fun v => bit v 2)

/-- TMR_CTL.CAP (R391). -/
def execTimerCaptureNow (who : Acc) (u : TmrId) (v : Word) (s : State) : Host.Outcome State Fault Refusal :=
  s.action who .TMR_CTL u.val v (fun v => bit v 3)

/-- A write of TMR_CNT (R386, rank 5). -/
def execTimerCountWrite (who : Acc) (u : TmrId) (v : Word) (s : State) : Host.Outcome State Fault Refusal :=
  s.action who .TMR_CNT u.val v (fun _ => true)

/-- TMR_GSTART.GO (R385). -/
def execGlobalStart (who : Acc) (v : Word) (s : State) : Host.Outcome State Fault Refusal :=
  s.action who .TMR_GSTART 0 v (fun v => bit v 8)

/-- A read of SUN_ECAPn_T0 (R68). -/
def execEcapRead (who : Acc) (n : Fin 4) (s : State) : Host.Outcome State Fault Refusal :=
  s.onAcc who (fun b => b.regRead who (Reg.addr .SUN_ECAP_T (4 * n.val)))

/-- A read of TMR_CNT (R390). -/
def execTimerCountRead (who : Acc) (u : TmrId) (s : State) : Host.Outcome State Fault Refusal :=
  s.onAcc who (fun b => b.regRead who (Reg.addr .TMR_CNT u.val))

/-- A read of TMR_CAP (R392, R393). -/
def execTimerCaptureRead (who : Acc) (u : TmrId) (s : State) : Host.Outcome State Fault Refusal :=
  s.onAcc who (fun b => b.regRead who (Reg.addr .TMR_CAP u.val))

/-- The registers that head a T80 group (R11, R57): word 0. -/
def t80Head (r : Reg) (i : Nat) : Bool :=
  match r with
  | .SUN_TIME | .TIK_LAUNCH => i == 0
  | .SUN_ECAP_T | .REED_ATIME | .REED_CAPT | .REED_FLT => i % 4 == 0
  | .LNK_TSI | .LNK_TSE => i % 8 == 0
  | _ => false

/-- T80_READ: a read of word 0 of a T80 group (R57). -/
def execT80Read (who : Acc) (addr : Word) (s : State) : Host.Outcome State Fault Refusal :=
  s.readOf who addr.toNat t80Head

/-- COUNT_LATCH_READ: a read of the low word of a two-word value (00_scope.md R11). -/
def execCountLatchRead (who : Acc) (addr : Word) (s : State) : Host.Outcome State Fault Refusal :=
  s.readOf who addr.toNat
    (fun r _ => [Reg.TIK_COUNT0, .LNK_CNT0, .BSN_CNT0, .HRG_CNT0, .KEY_LAST0, .KEY_CEIL0, .SCH_LD0].contains r)

/-- COUNTER_WINDOW_READ: a read through a counter window (R98, R202, R232, R433). -/
def execCounterWindowRead (who : Acc) (addr : Word) (s : State) : Host.Outcome State Fault Refusal :=
  s.readOf who addr.toNat (fun r _ => [Reg.LNK_CNT0, .BSN_CNT0, .HRG_CNT0, .SCH_LCNT].contains r)

/-- READ_CLEAR: a read of a register by an accessor or at the target port (R6, R9, R543). -/
def execReadClear (q : ReadReq) (s : State) : Host.Outcome State Fault Refusal :=
  match q with
  | .reg who addr => s.onAcc who (fun b => b.regRead who addr.toNat)
  | .target h => s.onBlock (fun b => b.target false h)

/-- REGISTER_WRITE: a write of a register by an accessor or at the target port (R6, R7, R400 to R403). -/
def execRegisterWrite (q : WriteReq) (s : State) : Host.Outcome State Fault Refusal :=
  match q with
  | .reg who addr v => s.onAcc who (fun b => b.regWrite who addr.toNat v.toNat)
  | .target h => s.onBlock (fun b => b.target true h)

end Sys2Proof.Machine
end

