-- ==== Sys2Proof/Machine/Dispatch.lean ====
section
/-! DEFINITION. Which meaning each command has, one arm per constructor of Instr. -/

namespace Sys2Proof.Machine

/-- The effect of a command on everything but the queue. -/
def exec (i : Instr) (s : State) : Host.Outcome State Fault Refusal :=
  match i with
  | .nop t p => Sys2Proof.Machine.execNop t p s
  | .wtk t p => Sys2Proof.Machine.execWtk t p s
  | .ret t p => Sys2Proof.Machine.execRet t p s
  | .reti t p => Sys2Proof.Machine.execReti t p s
  | .ei t p => Sys2Proof.Machine.execEi t p s
  | .di t p => Sys2Proof.Machine.execDi t p s
  | .mov t p o => Sys2Proof.Machine.execMov t p o s
  | .add t p o => Sys2Proof.Machine.execAdd t p o s
  | .adc t p o => Sys2Proof.Machine.execAdc t p o s
  | .sub t p o => Sys2Proof.Machine.execSub t p o s
  | .sbc t p o => Sys2Proof.Machine.execSbc t p o s
  | .and t p o => Sys2Proof.Machine.execAnd t p o s
  | .or t p o => Sys2Proof.Machine.execOr t p o s
  | .xor t p o => Sys2Proof.Machine.execXor t p o s
  | .cmp t p o => Sys2Proof.Machine.execCmp t p o s
  | .tst t p o => Sys2Proof.Machine.execTst t p o s
  | .shl t p o => Sys2Proof.Machine.execShl t p o s
  | .shr t p o => Sys2Proof.Machine.execShr t p o s
  | .sar t p o => Sys2Proof.Machine.execSar t p o s
  | .rol t p o => Sys2Proof.Machine.execRol t p o s
  | .mul t p o => Sys2Proof.Machine.execMul t p o s
  | .mulh t p o => Sys2Proof.Machine.execMulh t p o s
  | .ld t p rb m => Sys2Proof.Machine.execLd t p rb m s
  | .st t p rb m => Sys2Proof.Machine.execSt t p rb m s
  | .lea t p rb m => Sys2Proof.Machine.execLea t p rb m s
  | .xch t p rb m => Sys2Proof.Machine.execXch t p rb m s
  | .addm t p rb m => Sys2Proof.Machine.execAddm t p rb m s
  | .lockTryAcquire t p rb m => Sys2Proof.Machine.execLockTryAcquire t p rb m s
  | .lkw t p rb m => Sys2Proof.Machine.execLkw t p rb m s
  | .lkr t p rb m => Sys2Proof.Machine.execLkr t p rb m s
  | .bcc t p c rel => Sys2Proof.Machine.execBcc t p c rel s
  | .bra t p rel => Sys2Proof.Machine.execBra t p rel s
  | .bsr t p rel => Sys2Proof.Machine.execBsr t p rel s
  | .jmp t p j => Sys2Proof.Machine.execJmp t p j s
  | .jsr t p j => Sys2Proof.Machine.execJsr t p j s
  | .not t p rb => Sys2Proof.Machine.execNot t p rb s
  | .neg t p rb => Sys2Proof.Machine.execNeg t p rb s
  | .clz t p rb => Sys2Proof.Machine.execClz t p rb s
  | .wev t p mask => Sys2Proof.Machine.execWev t p mask s
  | .wevr t p rb => Sys2Proof.Machine.execWevr t p rb s
  | .csnd t p rb cd => Sys2Proof.Machine.execCsnd t p rb cd s
  | .csnc t p rb cd => Sys2Proof.Machine.execCsnc t p rb cd s
  | .crcv t p rb cd => Sys2Proof.Machine.execCrcv t p rb cd s
  | .cabt t p rb cd => Sys2Proof.Machine.execCabt t p rb cd s
  | .bfx t p rb f => Sys2Proof.Machine.execBfx t p rb f s
  | .bfi t p rb f => Sys2Proof.Machine.execBfi t p rb f s
  | .qperm t p rb sel => Sys2Proof.Machine.execQperm t p rb sel s
  | .bperm t p rb sel => Sys2Proof.Machine.execBperm t p rb sel s
  | .sxt t p rb => Sys2Proof.Machine.execSxt t p rb s
  | .mfs t p rb num => Sys2Proof.Machine.execMfs t p rb num s
  | .mts t p rb num => Sys2Proof.Machine.execMts t p rb num s
  | .emulationTrap t p n ops => Sys2Proof.Machine.execEmulationTrap t p n ops s
  | .wevWaitEnd t => Sys2Proof.Machine.execWevWaitEnd t s
  | .lkwWaitEnd t => Sys2Proof.Machine.execLkwWaitEnd t s
  | .crcvWaitEnd t => Sys2Proof.Machine.execCrcvWaitEnd t s
  | .sendOpenWaitEnd t => Sys2Proof.Machine.execSendOpenWaitEnd t s
  | .atRelease t => Sys2Proof.Machine.execAtRelease t s
  | .interruptEntry t => Sys2Proof.Machine.execInterruptEntry t s
  | .bankHoldRelease bank => Sys2Proof.Machine.execBankHoldRelease bank s
  | .hostWindowResponse p code data => Sys2Proof.Machine.execHostWindowResponse p code data s
  | .threadHold who v => Sys2Proof.Machine.execThreadHold who v s
  | .threadHeld t => Sys2Proof.Machine.execThreadHeld t s
  | .threadRelease who v => Sys2Proof.Machine.execThreadRelease who v s
  | .threadReset who v => Sys2Proof.Machine.execThreadReset who v s
  | .contextWrite who v => Sys2Proof.Machine.execContextWrite who v s
  | .stillWaterWake => Sys2Proof.Machine.execStillWaterWake s
  | .stillWaterAck who v => Sys2Proof.Machine.execStillWaterAck who v s
  | .slotEntryWrite who p v => Sys2Proof.Machine.execSlotEntryWrite who p v s
  | .slotTableCopy who p v => Sys2Proof.Machine.execSlotTableCopy who p v s
  | .slotTableApply who p v => Sys2Proof.Machine.execSlotTableApply who p v s
  | .slotChecksEnd p => Sys2Proof.Machine.execSlotChecksEnd p s
  | .slotTableCancel who p v => Sys2Proof.Machine.execSlotTableCancel who p v s
  | .slotTableTakeEffect p => Sys2Proof.Machine.execSlotTableTakeEffect p s
  | .tickApply who v => Sys2Proof.Machine.execTickApply who v s
  | .tickCancel who v => Sys2Proof.Machine.execTickCancel who v s
  | .tickRunSet who v => Sys2Proof.Machine.execTickRunSet who v s
  | .tickRunClear who v => Sys2Proof.Machine.execTickRunClear who v s
  | .tickLaunch => Sys2Proof.Machine.execTickLaunch s
  | .sundialStep who v => Sys2Proof.Machine.execSundialStep who v s
  | .sundialLoad who v => Sys2Proof.Machine.execSundialLoad who v s
  | .sundialRate who v => Sys2Proof.Machine.execSundialRate who v s
  | .t80Read who addr => Sys2Proof.Machine.execT80Read who addr s
  | .countLatchRead who addr => Sys2Proof.Machine.execCountLatchRead who addr s
  | .counterWindowRead who addr => Sys2Proof.Machine.execCounterWindowRead who addr s
  | .readClear q => Sys2Proof.Machine.execReadClear q s
  | .ecapRead who n => Sys2Proof.Machine.execEcapRead who n s
  | .registerWrite q => Sys2Proof.Machine.execRegisterWrite q s
  | .linkEnSet who n v => Sys2Proof.Machine.execLinkEnSet who n v s
  | .linkEnClear who n v => Sys2Proof.Machine.execLinkEnClear who n v s
  | .upRequest who n v => Sys2Proof.Machine.execUpRequest who n v s
  | .linkLossWrite who n v => Sys2Proof.Machine.execLinkLossWrite who n v s
  | .linkLossClock c => Sys2Proof.Machine.execLinkLossClock c s
  | .trainingTimeout n => Sys2Proof.Machine.execTrainingTimeout n s
  | .flapHoldExpiry n => Sys2Proof.Machine.execFlapHoldExpiry n s
  | .flushRelease n => Sys2Proof.Machine.execFlushRelease n s
  | .tsPopIngress who n v => Sys2Proof.Machine.execTsPopIngress who n v s
  | .tsPopEgress who n v => Sys2Proof.Machine.execTsPopEgress who n v s
  | .frameStart n w sof => Sys2Proof.Machine.execFrameStart n w sof s
  | .discardRun n w => Sys2Proof.Machine.execDiscardRun n w s
  | .lookup n w => Sys2Proof.Machine.execLookup n w s
  | .verdictCommit seq => Sys2Proof.Machine.execVerdictCommit seq s
  | .frameEnd n w => Sys2Proof.Machine.execFrameEnd n w s
  | .beatWrite n => Sys2Proof.Machine.execBeatWrite n s
  | .beatRead n => Sys2Proof.Machine.execBeatRead n s
  | .frameTxStart x => Sys2Proof.Machine.execFrameTxStart x s
  | .frameTxEnd port => Sys2Proof.Machine.execFrameTxEnd port s
  | .badTail port => Sys2Proof.Machine.execBadTail port s
  | .launchDeadline port => Sys2Proof.Machine.execLaunchDeadline port s
  | .cellChainRelease seq => Sys2Proof.Machine.execCellChainRelease seq s
  | .tokenRefill => Sys2Proof.Machine.execTokenRefill s
  | .bsnAlloc who v => Sys2Proof.Machine.execBsnAlloc who v s
  | .allocDone t => Sys2Proof.Machine.execAllocDone t s
  | .chainRelink who v => Sys2Proof.Machine.execChainRelink who v s
  | .bsnRelease who v => Sys2Proof.Machine.execBsnRelease who v s
  | .frameInject who v => Sys2Proof.Machine.execFrameInject who v s
  | .trapPop who => Sys2Proof.Machine.execTrapPop who s
  | .fwdInsert who v => Sys2Proof.Machine.execFwdInsert who v s
  | .fwdDelete who v => Sys2Proof.Machine.execFwdDelete who v s
  | .fwdFind who v => Sys2Proof.Machine.execFwdFind who v s
  | .fwdRead who v => Sys2Proof.Machine.execFwdRead who v s
  | .fwdOpResult => Sys2Proof.Machine.execFwdOpResult s
  | .noticePop who => Sys2Proof.Machine.execNoticePop who s
  | .overrideKeep who v => Sys2Proof.Machine.execOverrideKeep who v s
  | .overrideDrop who v => Sys2Proof.Machine.execOverrideDrop who v s
  | .overridePorts who v => Sys2Proof.Machine.execOverridePorts who v s
  | .overrideTrap who v => Sys2Proof.Machine.execOverrideTrap who v s
  | .wardenNow who v => Sys2Proof.Machine.execWardenNow who v s
  | .auditTimeout => Sys2Proof.Machine.execAuditTimeout s
  | .auditPassEnd => Sys2Proof.Machine.execAuditPassEnd s
  | .windowCheck n => Sys2Proof.Machine.execWindowCheck n s
  | .rowSetApply who v => Sys2Proof.Machine.execRowSetApply who v s
  | .rowSetChecksEnd n => Sys2Proof.Machine.execRowSetChecksEnd n s
  | .rowSetTakeEffect n => Sys2Proof.Machine.execRowSetTakeEffect n s
  | .rowSetCancel who v => Sys2Proof.Machine.execRowSetCancel who v s
  | .scheduleEnSet who v => Sys2Proof.Machine.execScheduleEnSet who v s
  | .scheduleEnClear who v => Sys2Proof.Machine.execScheduleEnClear who v s
  | .schEntryWrite who v => Sys2Proof.Machine.execSchEntryWrite who v s
  | .schEntryRead who v => Sys2Proof.Machine.execSchEntryRead who v s
  | .bufferCommit who v => Sys2Proof.Machine.execBufferCommit who v s
  | .bufferClear who v => Sys2Proof.Machine.execBufferClear who v s
  | .referenceReceive n => Sys2Proof.Machine.execReferenceReceive n s
  | .listenTimerExpiry n => Sys2Proof.Machine.execListenTimerExpiry n s
  | .refWindowMiss n => Sys2Proof.Machine.execRefWindowMiss n s
  | .softwareFire who v => Sys2Proof.Machine.execSoftwareFire who v s
  | .channelDelivery ch => Sys2Proof.Machine.execChannelDelivery ch s
  | .unmute who w v => Sys2Proof.Machine.execUnmute who w v s
  | .floodCountReset => Sys2Proof.Machine.execFloodCountReset s
  | .timerIncrement u => Sys2Proof.Machine.execTimerIncrement u s
  | .timerStart who u v => Sys2Proof.Machine.execTimerStart who u v s
  | .timerStop who u v => Sys2Proof.Machine.execTimerStop who u v s
  | .timerCont who u v => Sys2Proof.Machine.execTimerCont who u v s
  | .timerCaptureNow who u v => Sys2Proof.Machine.execTimerCaptureNow who u v s
  | .timerCountWrite who u v => Sys2Proof.Machine.execTimerCountWrite who u v s
  | .timerCountRead who u => Sys2Proof.Machine.execTimerCountRead who u s
  | .timerCaptureRead who u => Sys2Proof.Machine.execTimerCaptureRead who u s
  | .globalStart who v => Sys2Proof.Machine.execGlobalStart who v s
  | .reedStart who k v => Sys2Proof.Machine.execReedStart who k v s
  | .reedArm who k v => Sys2Proof.Machine.execReedArm who k v s
  | .reedHalt who k v => Sys2Proof.Machine.execReedHalt who k v s
  | .reedSwap who k v => Sys2Proof.Machine.execReedSwap who k v s
  | .reedForce who k v => Sys2Proof.Machine.execReedForce who k v s
  | .reedSyncGo who p v => Sys2Proof.Machine.execReedSyncGo who p v s
  | .reedMbxWrite who k v => Sys2Proof.Machine.execReedMbxWrite who k v s
  | .reedFifoRead who k => Sys2Proof.Machine.execReedFifoRead who k s
  | .programWrite who k v => Sys2Proof.Machine.execProgramWrite who k v s
  | .tsetCommit who k v => Sys2Proof.Machine.execTsetCommit who k v s
  | .inputTick k pins phase => Sys2Proof.Machine.execInputTick k pins phase s
  | .outputTick k phase => Sys2Proof.Machine.execOutputTick k phase s
  | .reedWaitEnd k pins phase => Sys2Proof.Machine.execReedWaitEnd k pins phase s
  | .reedActionExecute k => Sys2Proof.Machine.execReedActionExecute k s
  | .trackerCorrection k pins phase => Sys2Proof.Machine.execTrackerCorrection k pins phase s
  | .reedNop k => Sys2Proof.Machine.execReedNop k s
  | .reedSin k => Sys2Proof.Machine.execReedSin k s
  | .reedSout k => Sys2Proof.Machine.execReedSout k s
  | .reedMov k => Sys2Proof.Machine.execReedMov k s
  | .reedLdi k => Sys2Proof.Machine.execReedLdi k s
  | .reedLdh k => Sys2Proof.Machine.execReedLdh k s
  | .reedAnd k => Sys2Proof.Machine.execReedAnd k s
  | .reedOr k => Sys2Proof.Machine.execReedOr k s
  | .reedXor k => Sys2Proof.Machine.execReedXor k s
  | .reedAdd k => Sys2Proof.Machine.execReedAdd k s
  | .reedSub k => Sys2Proof.Machine.execReedSub k s
  | .reedShl k => Sys2Proof.Machine.execReedShl k s
  | .reedShr k => Sys2Proof.Machine.execReedShr k s
  | .reedNot k => Sys2Proof.Machine.execReedNot k s
  | .reedShi k => Sys2Proof.Machine.execReedShi k s
  | .reedJmp k => Sys2Proof.Machine.execReedJmp k s
  | .reedDjnz k => Sys2Proof.Machine.execReedDjnz k s
  | .reedWaitp k => Sys2Proof.Machine.execReedWaitp k s
  | .reedWaite k => Sys2Proof.Machine.execReedWaite k s
  | .reedSetpLevel k => Sys2Proof.Machine.execReedSetpLevel k s
  | .reedSetpMasked k => Sys2Proof.Machine.execReedSetpMasked k s
  | .reedSetpEnable k => Sys2Proof.Machine.execReedSetpEnable k s
  | .reedSetpEnables k => Sys2Proof.Machine.execReedSetpEnables k s
  | .reedPushf k => Sys2Proof.Machine.execReedPushf k s
  | .reedPullm k => Sys2Proof.Machine.execReedPullm k s
  | .reedPushs k => Sys2Proof.Machine.execReedPushs k s
  | .reedPulls k => Sys2Proof.Machine.execReedPulls k s
  | .reedCrcInit k => Sys2Proof.Machine.execReedCrcInit k s
  | .reedCrcFeed k => Sys2Proof.Machine.execReedCrcFeed k s
  | .reedDrst k => Sys2Proof.Machine.execReedDrst k s
  | .reedTld k => Sys2Proof.Machine.execReedTld k s
  | .reedTadd k => Sys2Proof.Machine.execReedTadd k s
  | .reedPostPin k => Sys2Proof.Machine.execReedPostPin k s
  | .reedPostOstart k => Sys2Proof.Machine.execReedPostOstart k s
  | .reedPostFire k => Sys2Proof.Machine.execReedPostFire k s
  | .reedMark k => Sys2Proof.Machine.execReedMark k s
  | .reedFire k => Sys2Proof.Machine.execReedFire k s
  | .reedStopInsn k => Sys2Proof.Machine.execReedStopInsn k s
  | .pass k => Sys2Proof.Machine.execPass k s
  | .nrziTx k => Sys2Proof.Machine.execNrziTx k s
  | .nrziRx k => Sys2Proof.Machine.execNrziRx k s
  | .manTx k => Sys2Proof.Machine.execManTx k s
  | .manRx k => Sys2Proof.Machine.execManRx k s
  | .b4b5Tx k => Sys2Proof.Machine.execB4b5Tx k s
  | .b4b5Rx k => Sys2Proof.Machine.execB4b5Rx k s
  | .t1lTx k => Sys2Proof.Machine.execT1lTx k s
  | .t1lRx k => Sys2Proof.Machine.execT1lRx k s
  | .b8b10Tx k => Sys2Proof.Machine.execB8b10Tx k s
  | .b8b10Rx k => Sys2Proof.Machine.execB8b10Rx k s
  | .hdlcTx k => Sys2Proof.Machine.execHdlcTx k s
  | .hdlcRx k => Sys2Proof.Machine.execHdlcRx k s
  | .canTx k => Sys2Proof.Machine.execCanTx k s
  | .canRx k => Sys2Proof.Machine.execCanRx k s
  | .asyncTx k => Sys2Proof.Machine.execAsyncTx k s
  | .asyncRx k => Sys2Proof.Machine.execAsyncRx k s
  | .slotReset who v => Sys2Proof.Machine.execSlotReset who v s
  | .slotResetAll who v => Sys2Proof.Machine.execSlotResetAll who v s
  | .codModeWrite who v => Sys2Proof.Machine.execCodModeWrite who v s
  | .lockForce who v => Sys2Proof.Machine.execLockForce who v s
  | .conduitAbort who v => Sys2Proof.Machine.execConduitAbort who v s
  | .conduitFlush who v => Sys2Proof.Machine.execConduitFlush who v s
  | .doorbellPass => Sys2Proof.Machine.execDoorbellPass s
  | .knock level => Sys2Proof.Machine.execKnock level s
  | .knockWrite who v => Sys2Proof.Machine.execKnockWrite who v s
  | .doorbellPoll => Sys2Proof.Machine.execDoorbellPoll s
  | .ringEnable who v => Sys2Proof.Machine.execRingEnable who v s
  | .ringDisable who v => Sys2Proof.Machine.execRingDisable who v s
  | .ringRestart who v => Sys2Proof.Machine.execRingRestart who v s
  | .initiatorResponse id code data => Sys2Proof.Machine.execInitiatorResponse id code data s
  | .txDescriptor k => Sys2Proof.Machine.execTxDescriptor k s
  | .txCellRetry k => Sys2Proof.Machine.execTxCellRetry k s
  | .txWriteback k => Sys2Proof.Machine.execTxWriteback k s
  | .rxBufferPost k => Sys2Proof.Machine.execRxBufferPost k s
  | .rxFrameWrite k => Sys2Proof.Machine.execRxFrameWrite k s
  | .commandHandover => Sys2Proof.Machine.execCommandHandover s
  | .keeperIrq who v => Sys2Proof.Machine.execKeeperIrq who v s
  | .commandTake who v => Sys2Proof.Machine.execCommandTake who v s
  | .commandDone who v => Sys2Proof.Machine.execCommandDone who v s
  | .cmdNop => Sys2Proof.Machine.execCmdNop s
  | .getState => Sys2Proof.Machine.execGetState s
  | .abort => Sys2Proof.Machine.execAbort s
  | .setLatency => Sys2Proof.Machine.execSetLatency s
  | .provision => Sys2Proof.Machine.execProvision s
  | .selftest => Sys2Proof.Machine.execSelftest s
  | .loadImage => Sys2Proof.Machine.execLoadImage s
  | .keyChange => Sys2Proof.Machine.execKeyChange s
  | .linkEnable => Sys2Proof.Machine.execLinkEnable s
  | .scheduleChange => Sys2Proof.Machine.execScheduleChange s
  | .sundialSetStep => Sys2Proof.Machine.execSundialSetStep s
  | .sundialSetLoad => Sys2Proof.Machine.execSundialSetLoad s
  | .resetEngine => Sys2Proof.Machine.execResetEngine s
  | .resetEngineNoboot => Sys2Proof.Machine.execResetEngineNoboot s
  | .debugUnlock => Sys2Proof.Machine.execDebugUnlock s
  | .ledgerWrite => Sys2Proof.Machine.execLedgerWrite s
  | .counterSeal => Sys2Proof.Machine.execCounterSeal s
  | .maintenanceEnter => Sys2Proof.Machine.execMaintenanceEnter s
  | .maintenanceLeave => Sys2Proof.Machine.execMaintenanceLeave s
  | .firmwareCommand => Sys2Proof.Machine.execFirmwareCommand s
  | .firmwareCommandCritical => Sys2Proof.Machine.execFirmwareCommandCritical s
  | .ldgWrite who v => Sys2Proof.Machine.execLdgWrite who v s
  | .ledgerWordWriteDone => Sys2Proof.Machine.execLedgerWordWriteDone s
  | .ledgerReadStart who v => Sys2Proof.Machine.execLedgerReadStart who v s
  | .ledgerReadDone who => Sys2Proof.Machine.execLedgerReadDone who s
  | .hours => Sys2Proof.Machine.execHours s
  | .powerStateEntry => Sys2Proof.Machine.execPowerStateEntry s
  | .powerEntryEnd => Sys2Proof.Machine.execPowerEntryEnd s
  | .powerExitStart => Sys2Proof.Machine.execPowerExitStart s
  | .powerExitEnd => Sys2Proof.Machine.execPowerExitEnd s
  | .barrelGate p => Sys2Proof.Machine.execBarrelGate p s
  | .barrelUngate p => Sys2Proof.Machine.execBarrelUngate p s
  | .hostWake who v => Sys2Proof.Machine.execHostWake who v s
  | .linkWake n pins => Sys2Proof.Machine.execLinkWake n pins s
  | .powerOnReset level => Sys2Proof.Machine.execPowerOnReset level s
  | .blockResetAssert => Sys2Proof.Machine.execBlockResetAssert s
  | .blockResetRelease => Sys2Proof.Machine.execBlockResetRelease s
  | .pllLock => Sys2Proof.Machine.execPllLock s
  | .memoryInitEnd => Sys2Proof.Machine.execMemoryInitEnd s
  | .bootDecision => Sys2Proof.Machine.execBootDecision s
  | .bootGo who v => Sys2Proof.Machine.execBootGo who v s
  | .watchdogExpiry => Sys2Proof.Machine.execWatchdogExpiry s
  | .watchdogKick who v => Sys2Proof.Machine.execWatchdogKick who v s
  | .watchdogEnable who v => Sys2Proof.Machine.execWatchdogEnable who v s
  | .bistGo who v => Sys2Proof.Machine.execBistGo who v s
  | .bistEnd failed mem idx where_ => Sys2Proof.Machine.execBistEnd failed mem idx where_ s
  | .scrubVisit mem idx => Sys2Proof.Machine.execScrubVisit mem idx s
  | .challengeRequest who v => Sys2Proof.Machine.execChallengeRequest who v s
  | .responseCheck who v => Sys2Proof.Machine.execResponseCheck who v s
  | .authDrop who v => Sys2Proof.Machine.execAuthDrop who v s
  | .coolExpiry => Sys2Proof.Machine.execCoolExpiry s
  | .hideAccessRead who v => Sys2Proof.Machine.execHideAccessRead who v s
  | .hideAccessWrite who v => Sys2Proof.Machine.execHideAccessWrite who v s
  | .hideCodeRead who v => Sys2Proof.Machine.execHideCodeRead who v s
  | .hideCodeWrite who v => Sys2Proof.Machine.execHideCodeWrite who v s
  | .hideAccessDone => Sys2Proof.Machine.execHideAccessDone s
  | .hideHalt who v => Sys2Proof.Machine.execHideHalt who v s
  | .hideResume who v => Sys2Proof.Machine.execHideResume who v s
  | .hideStep who v => Sys2Proof.Machine.execHideStep who v s
  | .haltpav who v => Sys2Proof.Machine.execHaltpav who v s
  | .resumepav who v => Sys2Proof.Machine.execResumepav who v s
  | .haltall who v => Sys2Proof.Machine.execHaltall who v s
  | .resumeall who v => Sys2Proof.Machine.execResumeall who v s
  | .threadHalted t => Sys2Proof.Machine.execThreadHalted t s
  | .haltedRegisterWrite who v => Sys2Proof.Machine.execHaltedRegisterWrite who v s
  | .feedGo who v => Sys2Proof.Machine.execFeedGo who v s
  | .feedDone => Sys2Proof.Machine.execFeedDone s
  | .vtTxWrite who p v => Sys2Proof.Machine.execVtTxWrite who p v s
  | .vtTxRead who p => Sys2Proof.Machine.execVtTxRead who p s
  | .vtRxWrite who p v => Sys2Proof.Machine.execVtRxWrite who p v s
  | .vtRxRead who p => Sys2Proof.Machine.execVtRxRead who p s
  | .stimValue who n v => Sys2Proof.Machine.execStimValue who n v s
  | .stimTally who n v => Sys2Proof.Machine.execStimTally who n v s
  | .stimMark who n v => Sys2Proof.Machine.execStimMark who n v s
  | .tallyClear who v => Sys2Proof.Machine.execTallyClear who v s
  | .tapCapture => Sys2Proof.Machine.execTapCapture s
  | .tapUpdate dr => Sys2Proof.Machine.execTapUpdate dr s
  | .tapReset => Sys2Proof.Machine.execTapReset s
  | .tickRunningClear => Sys2Proof.Machine.execTickRunningClear s
  | .gridFrameBoundary n => Sys2Proof.Machine.execGridFrameBoundary n s

end Sys2Proof.Machine
end

