-- ==== Sys2Proof/WellFormed.lean ====
section
/-! DEFINITION. Which commands can occur: a thread command names a thread, and so does an accessor that is one
(00_scope.md R1). -/

namespace Sys2Proof

/-- A thread number names a thread. -/
def Tid.ok (t : Tid) : Bool := decide (t ≠ 0)

/-- An accessor that is a thread names one. -/
def Acc.ok : Acc → Bool
  | .thread t => Tid.ok t
  | _ => true

/-- A read names its reader. -/
def ReadReq.ok : ReadReq → Bool
  | .reg who _ => Acc.ok who
  | .target _ => true

/-- A write names its writer. -/
def WriteReq.ok : WriteReq → Bool
  | .reg who _ _ => Acc.ok who
  | .target _ => true

/-- Can the command occur? -/
def Instr.ok : Instr → Bool
  | .nop t _ => Tid.ok t
  | .wtk t _ => Tid.ok t
  | .ret t _ => Tid.ok t
  | .reti t _ => Tid.ok t
  | .ei t _ => Tid.ok t
  | .di t _ => Tid.ok t
  | .mov t _ _ => Tid.ok t
  | .add t _ _ => Tid.ok t
  | .adc t _ _ => Tid.ok t
  | .sub t _ _ => Tid.ok t
  | .sbc t _ _ => Tid.ok t
  | .and t _ _ => Tid.ok t
  | .or t _ _ => Tid.ok t
  | .xor t _ _ => Tid.ok t
  | .cmp t _ _ => Tid.ok t
  | .tst t _ _ => Tid.ok t
  | .shl t _ _ => Tid.ok t
  | .shr t _ _ => Tid.ok t
  | .sar t _ _ => Tid.ok t
  | .rol t _ _ => Tid.ok t
  | .mul t _ _ => Tid.ok t
  | .mulh t _ _ => Tid.ok t
  | .ld t _ _ _ => Tid.ok t
  | .st t _ _ _ => Tid.ok t
  | .lea t _ _ _ => Tid.ok t
  | .xch t _ _ _ => Tid.ok t
  | .addm t _ _ _ => Tid.ok t
  | .lockTryAcquire t _ _ _ => Tid.ok t
  | .lkw t _ _ _ => Tid.ok t
  | .lkr t _ _ _ => Tid.ok t
  | .bcc t _ _ _ => Tid.ok t
  | .bra t _ _ => Tid.ok t
  | .bsr t _ _ => Tid.ok t
  | .jmp t _ _ => Tid.ok t
  | .jsr t _ _ => Tid.ok t
  | .not t _ _ => Tid.ok t
  | .neg t _ _ => Tid.ok t
  | .clz t _ _ => Tid.ok t
  | .wev t _ _ => Tid.ok t
  | .wevr t _ _ => Tid.ok t
  | .csnd t _ _ _ => Tid.ok t
  | .csnc t _ _ _ => Tid.ok t
  | .crcv t _ _ _ => Tid.ok t
  | .cabt t _ _ _ => Tid.ok t
  | .bfx t _ _ _ => Tid.ok t
  | .bfi t _ _ _ => Tid.ok t
  | .qperm t _ _ _ => Tid.ok t
  | .bperm t _ _ _ => Tid.ok t
  | .sxt t _ _ => Tid.ok t
  | .mfs t _ _ _ => Tid.ok t
  | .mts t _ _ _ => Tid.ok t
  | .emulationTrap t _ _ _ => Tid.ok t
  | .wevWaitEnd t => Tid.ok t
  | .lkwWaitEnd t => Tid.ok t
  | .crcvWaitEnd t => Tid.ok t
  | .sendOpenWaitEnd t => Tid.ok t
  | .atRelease t => Tid.ok t
  | .interruptEntry t => Tid.ok t
  | .bankHoldRelease _ => true
  | .hostWindowResponse _ _ _ => true
  | .threadHold who _ => Acc.ok who
  | .threadHeld t => Tid.ok t
  | .threadRelease who _ => Acc.ok who
  | .threadReset who _ => Acc.ok who
  | .contextWrite who _ => Acc.ok who
  | .stillWaterWake => true
  | .stillWaterAck who _ => Acc.ok who
  | .slotEntryWrite who _ _ => Acc.ok who
  | .slotTableCopy who _ _ => Acc.ok who
  | .slotTableApply who _ _ => Acc.ok who
  | .slotChecksEnd _ => true
  | .slotTableCancel who _ _ => Acc.ok who
  | .slotTableTakeEffect _ => true
  | .tickApply who _ => Acc.ok who
  | .tickCancel who _ => Acc.ok who
  | .tickRunSet who _ => Acc.ok who
  | .tickRunClear who _ => Acc.ok who
  | .tickLaunch => true
  | .sundialStep who _ => Acc.ok who
  | .sundialLoad who _ => Acc.ok who
  | .sundialRate who _ => Acc.ok who
  | .t80Read who _ => Acc.ok who
  | .countLatchRead who _ => Acc.ok who
  | .counterWindowRead who _ => Acc.ok who
  | .readClear q => q.ok
  | .ecapRead who _ => Acc.ok who
  | .registerWrite q => q.ok
  | .linkEnSet who _ _ => Acc.ok who
  | .linkEnClear who _ _ => Acc.ok who
  | .upRequest who _ _ => Acc.ok who
  | .linkLossWrite who _ _ => Acc.ok who
  | .linkLossClock _ => true
  | .trainingTimeout _ => true
  | .flapHoldExpiry _ => true
  | .flushRelease _ => true
  | .tsPopIngress who _ _ => Acc.ok who
  | .tsPopEgress who _ _ => Acc.ok who
  | .frameStart _ _ _ => true
  | .discardRun _ _ => true
  | .lookup _ _ => true
  | .verdictCommit _ => true
  | .frameEnd _ _ => true
  | .beatWrite _ => true
  | .beatRead _ => true
  | .frameTxStart _ => true
  | .frameTxEnd _ => true
  | .badTail _ => true
  | .launchDeadline _ => true
  | .cellChainRelease _ => true
  | .tokenRefill => true
  | .bsnAlloc who _ => Acc.ok who
  | .allocDone t => Tid.ok t
  | .chainRelink who _ => Acc.ok who
  | .bsnRelease who _ => Acc.ok who
  | .frameInject who _ => Acc.ok who
  | .trapPop who => Acc.ok who
  | .fwdInsert who _ => Acc.ok who
  | .fwdDelete who _ => Acc.ok who
  | .fwdFind who _ => Acc.ok who
  | .fwdRead who _ => Acc.ok who
  | .fwdOpResult => true
  | .noticePop who => Acc.ok who
  | .overrideKeep who _ => Acc.ok who
  | .overrideDrop who _ => Acc.ok who
  | .overridePorts who _ => Acc.ok who
  | .overrideTrap who _ => Acc.ok who
  | .wardenNow who _ => Acc.ok who
  | .auditTimeout => true
  | .auditPassEnd => true
  | .windowCheck _ => true
  | .rowSetApply who _ => Acc.ok who
  | .rowSetChecksEnd _ => true
  | .rowSetTakeEffect _ => true
  | .rowSetCancel who _ => Acc.ok who
  | .scheduleEnSet who _ => Acc.ok who
  | .scheduleEnClear who _ => Acc.ok who
  | .schEntryWrite who _ => Acc.ok who
  | .schEntryRead who _ => Acc.ok who
  | .bufferCommit who _ => Acc.ok who
  | .bufferClear who _ => Acc.ok who
  | .referenceReceive _ => true
  | .listenTimerExpiry _ => true
  | .refWindowMiss _ => true
  | .softwareFire who _ => Acc.ok who
  | .channelDelivery _ => true
  | .unmute who _ _ => Acc.ok who
  | .floodCountReset => true
  | .timerIncrement _ => true
  | .timerStart who _ _ => Acc.ok who
  | .timerStop who _ _ => Acc.ok who
  | .timerCont who _ _ => Acc.ok who
  | .timerCaptureNow who _ _ => Acc.ok who
  | .timerCountWrite who _ _ => Acc.ok who
  | .timerCountRead who _ => Acc.ok who
  | .timerCaptureRead who _ => Acc.ok who
  | .globalStart who _ => Acc.ok who
  | .reedStart who _ _ => Acc.ok who
  | .reedArm who _ _ => Acc.ok who
  | .reedHalt who _ _ => Acc.ok who
  | .reedSwap who _ _ => Acc.ok who
  | .reedForce who _ _ => Acc.ok who
  | .reedSyncGo who _ _ => Acc.ok who
  | .reedMbxWrite who _ _ => Acc.ok who
  | .reedFifoRead who _ => Acc.ok who
  | .programWrite who _ _ => Acc.ok who
  | .tsetCommit who _ _ => Acc.ok who
  | .inputTick _ _ _ => true
  | .outputTick _ _ => true
  | .reedWaitEnd _ _ _ => true
  | .reedActionExecute _ => true
  | .trackerCorrection _ _ _ => true
  | .reedNop _ => true
  | .reedSin _ => true
  | .reedSout _ => true
  | .reedMov _ => true
  | .reedLdi _ => true
  | .reedLdh _ => true
  | .reedAnd _ => true
  | .reedOr _ => true
  | .reedXor _ => true
  | .reedAdd _ => true
  | .reedSub _ => true
  | .reedShl _ => true
  | .reedShr _ => true
  | .reedNot _ => true
  | .reedShi _ => true
  | .reedJmp _ => true
  | .reedDjnz _ => true
  | .reedWaitp _ => true
  | .reedWaite _ => true
  | .reedSetpLevel _ => true
  | .reedSetpMasked _ => true
  | .reedSetpEnable _ => true
  | .reedSetpEnables _ => true
  | .reedPushf _ => true
  | .reedPullm _ => true
  | .reedPushs _ => true
  | .reedPulls _ => true
  | .reedCrcInit _ => true
  | .reedCrcFeed _ => true
  | .reedDrst _ => true
  | .reedTld _ => true
  | .reedTadd _ => true
  | .reedPostPin _ => true
  | .reedPostOstart _ => true
  | .reedPostFire _ => true
  | .reedMark _ => true
  | .reedFire _ => true
  | .reedStopInsn _ => true
  | .pass _ => true
  | .nrziTx _ => true
  | .nrziRx _ => true
  | .manTx _ => true
  | .manRx _ => true
  | .b4b5Tx _ => true
  | .b4b5Rx _ => true
  | .t1lTx _ => true
  | .t1lRx _ => true
  | .b8b10Tx _ => true
  | .b8b10Rx _ => true
  | .hdlcTx _ => true
  | .hdlcRx _ => true
  | .canTx _ => true
  | .canRx _ => true
  | .asyncTx _ => true
  | .asyncRx _ => true
  | .slotReset who _ => Acc.ok who
  | .slotResetAll who _ => Acc.ok who
  | .codModeWrite who _ => Acc.ok who
  | .lockForce who _ => Acc.ok who
  | .conduitAbort who _ => Acc.ok who
  | .conduitFlush who _ => Acc.ok who
  | .doorbellPass => true
  | .knock _ => true
  | .knockWrite who _ => Acc.ok who
  | .doorbellPoll => true
  | .ringEnable who _ => Acc.ok who
  | .ringDisable who _ => Acc.ok who
  | .ringRestart who _ => Acc.ok who
  | .initiatorResponse _ _ _ => true
  | .txDescriptor _ => true
  | .txCellRetry _ => true
  | .txWriteback _ => true
  | .rxBufferPost _ => true
  | .rxFrameWrite _ => true
  | .commandHandover => true
  | .keeperIrq who _ => Acc.ok who
  | .commandTake who _ => Acc.ok who
  | .commandDone who _ => Acc.ok who
  | .cmdNop => true
  | .getState => true
  | .abort => true
  | .setLatency => true
  | .provision => true
  | .selftest => true
  | .loadImage => true
  | .keyChange => true
  | .linkEnable => true
  | .scheduleChange => true
  | .sundialSetStep => true
  | .sundialSetLoad => true
  | .resetEngine => true
  | .resetEngineNoboot => true
  | .debugUnlock => true
  | .ledgerWrite => true
  | .counterSeal => true
  | .maintenanceEnter => true
  | .maintenanceLeave => true
  | .firmwareCommand => true
  | .firmwareCommandCritical => true
  | .ldgWrite who _ => Acc.ok who
  | .ledgerWordWriteDone => true
  | .ledgerReadStart who _ => Acc.ok who
  | .ledgerReadDone who => Acc.ok who
  | .hours => true
  | .powerStateEntry => true
  | .powerEntryEnd => true
  | .powerExitStart => true
  | .powerExitEnd => true
  | .barrelGate _ => true
  | .barrelUngate _ => true
  | .hostWake who _ => Acc.ok who
  | .linkWake _ _ => true
  | .powerOnReset _ => true
  | .blockResetAssert => true
  | .blockResetRelease => true
  | .pllLock => true
  | .memoryInitEnd => true
  | .bootDecision => true
  | .bootGo who _ => Acc.ok who
  | .watchdogExpiry => true
  | .watchdogKick who _ => Acc.ok who
  | .watchdogEnable who _ => Acc.ok who
  | .bistGo who _ => Acc.ok who
  | .bistEnd _ _ _ _ => true
  | .scrubVisit _ _ => true
  | .challengeRequest who _ => Acc.ok who
  | .responseCheck who _ => Acc.ok who
  | .authDrop who _ => Acc.ok who
  | .coolExpiry => true
  | .hideAccessRead who _ => Acc.ok who
  | .hideAccessWrite who _ => Acc.ok who
  | .hideCodeRead who _ => Acc.ok who
  | .hideCodeWrite who _ => Acc.ok who
  | .hideAccessDone => true
  | .hideHalt who _ => Acc.ok who
  | .hideResume who _ => Acc.ok who
  | .hideStep who _ => Acc.ok who
  | .haltpav who _ => Acc.ok who
  | .resumepav who _ => Acc.ok who
  | .haltall who _ => Acc.ok who
  | .resumeall who _ => Acc.ok who
  | .threadHalted t => Tid.ok t
  | .haltedRegisterWrite who _ => Acc.ok who
  | .feedGo who _ => Acc.ok who
  | .feedDone => true
  | .vtTxWrite who _ _ => Acc.ok who
  | .vtTxRead who _ => Acc.ok who
  | .vtRxWrite who _ _ => Acc.ok who
  | .vtRxRead who _ => Acc.ok who
  | .stimValue who _ _ => Acc.ok who
  | .stimTally who _ _ => Acc.ok who
  | .stimMark who _ _ => Acc.ok who
  | .tallyClear who _ => Acc.ok who
  | .tapCapture => true
  | .tapUpdate _ => true
  | .tapReset => true
  | .tickRunningClear => true
  | .gridFrameBoundary _ => true

end Sys2Proof
end

