-- ==== Sys2Proof/Safety.lean ====
section
/-! DEFINITION. The terms that statements use: the invariant of the machine, a step that goes on, when an instruction of a thread runs
undisturbed, when a register access is legal. -/

namespace Sys2Proof.Safety

open Sys2Proof.Machine

/-- The invariant of the machine: every addressed memory is in canonical form. -/
def Inv (s : State) : Bool := s.block.mem.wf

/-- A step goes on. -/
def goesOn (s : State) : Bool :=
  match step s with
  | .next _ => true
  | _ => false

/-- `s` with engine state `e`: the memories and the queue are those of `s`. -/
def withEng (s : State) (e : Eng) : State := { s with block := s.block.withEng e }

/-! ### Instructions of threads -/

/-- No break comparator of the thread's pavilion matches at `pc` (20_hide_debug.md R512). -/
def noBreakAt (e : Eng) (t pc : Nat) : Bool :=
  [0, 1, 2, 3, 4, 5, 6, 7].all (fun n =>
    let i := compIdx (pavOf t) 0 n
    !(e.flag F.HIDE_CCFG_EN i && decide (e.val .HIDE_CLO i ≤ pc) && decide (pc ≤ e.val .HIDE_CHI i) && e.compTid i t))

/-- No code word of the `len` bytes at `pc` has an ECC error (12_memory_fabric.md R327). -/
def codeClean (e : Eng) (p pc len : Nat) : Bool :=
  (List.range len).all (fun i => match codeKey p (pc + i) with
    | some k => !Tab.has e.ecc (eccCode k)
    | none => true)

/-- Thread t can issue in this cycle (R234 to R243), no delivery of the Causeway is still due in it (R369), and no hold, halt, interrupt, step
or breakpoint comes between (R247, R253, R507, R509, R512). -/
def undisturbed (e : Eng) (t : Nat) (lock : Bool) : Bool :=
  let x := e.getThr t
  e.chansDue.isEmpty && e.canIssue t lock && !x.holdReq && x.haltReq.isNone && !x.step && !x.intDue &&
    (x.noBreak || x.atDone || noBreakAt e t x.pc.toNat)

/-- An AT target is not set, was awaited, or is reached already (03_sundial.md R72, 10_isa_encoding.md R284). -/
def timeCome (e : Eng) (t : Nat) (p : Pfx) : Bool :=
  let x := e.getThr t
  match p.atp with
  | none => true
  | some a => x.atDone || reached e.ns (x.greg (2 * (a / 32)) + x.greg (2 * (a / 32) + 1) * 2 ^ 20)

/-- The PRED condition holds, or there is none (R283). -/
def notAnnulled (e : Eng) (t : Nat) (p : Pfx) : Bool :=
  match p.pred with
  | none => true
  | some c => condHolds c (e.getThr t).flags.toNat

/-- Thread t issues an instruction with rules `r` and prefixes `ps` that passes checks 1 to 3 of R287; its time has come. -/
def canRun (e : Eng) (t : Nat) (ps : List Prefix) (r : Rules) (ok : Bool) : Bool :=
  let p := parsePfx ps
  let pc := (e.getThr t).pc.toNat
  undisturbed e t p.lock && codeOk pc (p.len + r.len) && codeClean e (pavOf t) pc (p.len + r.len) && r.pfxOk p && ok && timeCome e t p

/-- The width code of an instruction: WORD where no prefix says otherwise (R271). -/
def widthOf (ps : List Prefix) : Nat := (parsePfx ps).width.getD wWord

/-- The address of the next instruction (R273). -/
def nextPc (e : Eng) (t : Nat) (ps : List Prefix) (len : Nat) : Nat := ((e.getThr t).pc.toNat + ((parsePfx ps).len + len)) % 2 ^ 20

/-- What every issue does before the instruction's own effect: a spare issue is counted (R243), an AT that found its time passed is
counted (R73), a locked sequence closes at an instruction without LOCK (R285), marks of breakpoint, interrupt and release are spent, and the next
issue comes 8 cycles later at the earliest (R234). -/
def issued (e : Eng) (t : Nat) (ps : List Prefix) : Eng :=
  let p := parsePfx ps
  let e1 := e.countSpare t
  let e2 := if p.atp.isSome && !(e.getThr t).atDone then (e1.post F.SUN_STAT_AT_LATE 0).bump F.SUN_LATECNT_AT 0 1 else e1
  e2.modThr t (fun x => { x with noBreak := false, entered := false, issued := e.clk.cycle + 1, ready := e.clk.cycle + 8, atLock := false,
                                 atDone := false, seq := if p.lock then x.seq else none })

/-! ### Register accesses -/

/-- The accessor reaches register r, copy i, and a write of `v` passes the checks of R403. -/
def mayWrite (e : Eng) (who : Acc) (r : Reg) (i v : Nat) : Bool :=
  decide (who.find (r.addr i) = some (r, i)) && decide (who ≠ .thread 0) && e.writeCode who r i v == 0

/-- The accessor reaches register r, copy i, and a read of it passes the checks. -/
def mayRead (e : Eng) (who : Acc) (r : Reg) (i : Nat) : Bool :=
  decide (who.find (r.addr i) = some (r, i)) && decide (who ≠ .thread 0) && e.readCode who r i == 0

end Sys2Proof.Safety
end

