-- ==== Sys2Proof/Certificates/Slice0/Obligations.lean ====
section
/-! DEFINITION. The statements for the provers, family by family, with the terms they use: what each command leaves, written from the
rules of spec/. -/

/-! ### Instructions of threads -/

namespace Sys2Proof.Claims

open Sys2Proof.Machine Sys2Proof.Safety

/-- The first cycle in which the instruction that follows may issue: `n`, and for shared code or the boot ROM 4 cycles more (R234, R290, R318). -/
def readyFrom (n : Nat) (y : Thr) : Thr :=
  { y with ready := n + if (0x80000 ≤ y.pc.toNat ∧ y.pc.toNat < 0xC0000) ∨ 0xFC000 ≤ y.pc.toNat then 4 else 0 }

/-- The state that an instruction of `len` bytes after its prefixes leaves which completes `d` cycles after its issue: `f` is given
the address of the next instruction and the thread with its PC there. -/
def leavesAfter (d : Nat) (s : State) (t : Tid) (ps : List Prefix) (len : Nat) (f : Nat → Thr → Thr) : State :=
  withEng s ((issued s.block.eng t.val ps).modThr t.val (fun x =>
    readyFrom (s.block.eng.clk.cycle + d) (f (nextPc s.block.eng t.val ps len) { x with pc := word (nextPc s.block.eng t.val ps len) })))

/-- The same of an instruction that writes registers of its thread alone: it completes in 8 cycles (R234). -/
def leaves (s : State) (t : Tid) (ps : List Prefix) (len : Nat) (f : Nat → Thr → Thr) : State := leavesAfter 8 s t ps len f

/-- The instruction with these rules runs: it passes the checks, its time has come, its condition holds. -/
def runs (s : State) (t : Tid) (ps : List Prefix) (r : Rules) (ok : Bool) : Bool :=
  decide (t ≠ 0) && canRun s.block.eng t.val ps r ok && notAnnulled s.block.eng t.val (parsePfx ps)

/-- The ALU operations, in the order of R294. -/
inductive AluOp where
  | mov | add | adc | sub | sbc | and | or | xor | cmp | tst | shl | shr | sar | rol | mul | mulh

def AluOp.cmd (t : Tid) (ps : List Prefix) (o : AluOperand) : AluOp → Instr
  | .mov => .mov t ps o
  | .add => .add t ps o
  | .adc => .adc t ps o
  | .sub => .sub t ps o
  | .sbc => .sbc t ps o
  | .and => .and t ps o
  | .or => .or t ps o
  | .xor => .xor t ps o
  | .cmp => .cmp t ps o
  | .tst => .tst t ps o
  | .shl => .shl t ps o
  | .shr => .shr t ps o
  | .sar => .sar t ps o
  | .rol => .rol t ps o
  | .mul => .mul t ps o
  | .mulh => .mulh t ps o

/-- Width prefixes and length (R273, R274): MUL and MULH reject PAIR. -/
def AluOp.rules (o : AluOperand) : AluOp → Rules
  | .mul | .mulh => { w := .elem0NoPair, len := o.len }
  | _ => { w := .elem0, len := o.len }

/-- Is the operation a shift (R295)? -/
def AluOp.shifts : AluOp → Bool
  | .shl | .shr | .sar | .rol => true
  | _ => false

/-- Z and N of a result (R268). -/
def zn {n : Nat} (r : BitVec n) : FlagSet := { z := some (r == 0), n := some r.msb }

/-- C and V of a shift by `cnt`: C unchanged when the count is 0 (R295). -/
def shiftFlags {n : Nat} (r : BitVec n) (cnt : Nat) (c : Bool) : FlagSet :=
  { z := some (r == 0), n := some r.msb, c := if cnt = 0 then none else some c, v := some false }

/-- Does a signed value lie outside w bits (R268)? -/
def outside (n : Nat) (z : Int) : Bool := decide (z < -(2 ^ (n - 1) : Int)) || decide ((2 ^ (n - 1) : Int) ≤ z)

/-- R294, R295 over bit vectors of the operand width: the result that is put into D, if any, and the flags. -/
def aluMeans (k : AluOp) {n : Nat} (d x : BitVec n) (cnt : Nat) (c : Bool) : Option (BitVec n) × FlagSet :=
  let ci : Int := if c then 1 else 0
  match k with
  | .mov => (some x, {})
  | .add => (some (d + x), { zn (d + x) with c := some (decide (2 ^ n ≤ d.toNat + x.toNat)), v := some (outside n (d.toInt + x.toInt)) })
  | .adc =>
    let r := d + x + BitVec.ofNat n (b2n c)
    (some r, { zn r with c := some (decide (2 ^ n ≤ d.toNat + x.toNat + b2n c)), v := some (outside n (d.toInt + x.toInt + ci)) })
  | .sub => (some (d - x), { zn (d - x) with c := some (decide (x.toNat ≤ d.toNat)), v := some (outside n (d.toInt - x.toInt)) })
  | .sbc =>
    let r := d - x - BitVec.ofNat n (1 - b2n c)
    (some r, { zn r with c := some (decide (x.toNat + (1 - b2n c) ≤ d.toNat)), v := some (outside n (d.toInt - x.toInt - (1 - ci))) })
  | .and => (some (d &&& x), zn (d &&& x))
  | .or => (some (d ||| x), zn (d ||| x))
  | .xor => (some (d ^^^ x), zn (d ^^^ x))
  | .cmp => (none, { zn (d - x) with c := some (decide (x.toNat ≤ d.toNat)), v := some (outside n (d.toInt - x.toInt)) })
  | .tst => (none, zn (d &&& x))
  | .shl => (some (d <<< cnt), shiftFlags (d <<< cnt) cnt (decide (cnt ≤ n) && d.getLsbD (n - cnt)))
  | .shr => (some (d >>> cnt), shiftFlags (d >>> cnt) cnt (decide (cnt ≤ n) && d.getLsbD (cnt - 1)))
  | .sar => (some (d.sshiftRight cnt), shiftFlags (d.sshiftRight cnt) cnt (if cnt ≤ n then d.getLsbD (cnt - 1) else d.msb))
  | .rol => (some (d.rotateLeft cnt), shiftFlags (d.rotateLeft cnt) cnt ((d.rotateLeft cnt).getLsbD 0))
  | .mul => (some (d * x), { zn (d * x) with c := some (decide (2 ^ n ≤ d.toNat * x.toNat)), v := some false })
  | .mulh =>
    let r := BitVec.ofNat n (d.toNat * x.toNat / 2 ^ n)
    (some r, { zn r with c := some false, v := some false })

/-- What ALU operation k writes to its thread at width code w: D and the flags (R280, R294). -/
def aluWrites (k : AluOp) (o : AluOperand) (w : Nat) (y : Thr) : Thr :=
  let m := aluMeans k (BitVec.ofNat (wBits w) (y.oper w o.d)) (BitVec.ofNat (wBits w) (o.val y w)) (o.count y) (bit y.flags.toNat 2)
  (match m.1 with
    | some r => y.putOper w o.d r.toNat
    | none => y).setFlags m.2

/-- The register instructions of R296 to R299, LEA of R300 apart. -/
inductive FieldOp where
  | not (rb : Byte) | neg (rb : Byte) | clz (rb : Byte) | sxt (rb : Byte)
  | mfs (rb num : Byte) | mts (rb num : Byte)
  | bfx (rb : Byte) (f : BitVec 16) | bfi (rb : Byte) (f : BitVec 16)
  | qperm (rb sel : Byte) | bperm (rb sel : Byte)

def FieldOp.cmd (t : Tid) (ps : List Prefix) : FieldOp → Instr
  | .not rb => .not t ps rb
  | .neg rb => .neg t ps rb
  | .clz rb => .clz t ps rb
  | .sxt rb => .sxt t ps rb
  | .mfs rb k => .mfs t ps rb k
  | .mts rb k => .mts t ps rb k
  | .bfx rb f => .bfx t ps rb f
  | .bfi rb f => .bfi t ps rb f
  | .qperm rb x => .qperm t ps rb x
  | .bperm rb x => .bperm t ps rb x

/-- The rules of R274, R275 with the lengths of R273. -/
def FieldOp.rules : FieldOp → Rules
  | .not _ | .neg _ | .clz _ => { w := .elem0, len := 2 }
  | .sxt _ => { w := .sxt, ext := true, len := 2 }
  | .mfs _ _ | .mts _ _ => { ext := true, len := 3 }
  | .bfx _ _ | .bfi _ _ => { ext := true, len := 4 }
  | .qperm _ _ | .bperm _ _ => { ext := true, len := 3 }

/-- The field checks of R273, R275, R279, R269. -/
def FieldOp.ok (w : Nat) : FieldOp → Bool
  | .not rb | .neg rb | .clz rb => w != wPair || (rbHi rb % 2 == 0 && rbLo rb % 2 == 0)
  | .sxt _ => true
  | .mfs rb k => rbLo rb == 0 && decide (k.toNat ≤ 10)
  | .mts rb k => rbLo rb == 0 && decide (k.toNat ≤ 2)
  | .bfx _ f | .bfi _ f => decide (f.toNat < 1024) && decide (f.toNat % 32 + (f.toNat / 32 % 32 + 1) ≤ 20)
  | .qperm _ _ => true
  | .bperm rb _ => rbHi rb % 2 == 0 && rbLo rb % 2 == 0

/-- Special register number k (R269). -/
def special (y : Thr) (t k : Nat) : Word :=
  if k = 0 then y.flags else if k = 1 then y.ipc else if k = 2 then y.iflags else if k = 3 then y.emPc
  else if k = 4 then y.emLen else if k = 10 then word t else Tab.get 0 y.emb (k - 5)

/-- Quint i of a word: 0 is [19:15] (R271). -/
def quint (g : Word) (i : Nat) : BitVec 5 := g.extractLsb' (15 - 5 * i) 5

/-- Byte i of a pair: b0 = Gn[15:8], b1 = Gn[7:0], b2 = Gn+1[15:8], b3 = Gn+1[7:0] (R275). -/
def pairByte (lo hi : Word) (i : Nat) : Byte :=
  if i = 0 then lo.extractLsb' 8 8 else if i = 1 then lo.extractLsb' 0 8 else if i = 2 then hi.extractLsb' 8 8 else hi.extractLsb' 0 8

/-- A G register as a word. -/
def greg (y : Thr) (r : Nat) : Word := Tab.get 0 y.g r

/-- What the instructions of R296 to R299 write at width code w; `t` is the thread. -/
def FieldOp.writes (t w : Nat) (y : Thr) : FieldOp → Thr
  | .not rb =>
    let r := ~~~BitVec.ofNat (wBits w) (y.oper w (rbLo rb))
    (y.putOper w (rbHi rb) r.toNat).setFlags (zn r)
  | .neg rb =>
    let s := BitVec.ofNat (wBits w) (y.oper w (rbLo rb))
    (y.putOper w (rbHi rb) (-s).toNat).setFlags
      { zn (-s) with c := some (s == 0), v := some (outside (wBits w) (-s.toInt)) }
  | .clz rb =>
    let s := BitVec.ofNat (wBits w) (y.oper w (rbLo rb))
    (y.putOper w (rbHi rb) s.clz.toNat).setFlags { z := some (s.clz == 0), n := some false, c := some (s == 0) }
  | .sxt rb =>
    let r := (BitVec.ofNat (wBits w) (greg y (rbLo rb)).toNat).signExtend 20
    (y.setGreg (rbHi rb) r.toNat).setFlags (zn r)
  | .mfs rb k => y.setGreg (rbHi rb) (special y t k.toNat).toNat
  | .mts rb k =>
    let v := greg y (rbHi rb)
    if k = 0 then { y with flags := v &&& 0x1F } else if k = 1 then { y with ipc := v } else { y with iflags := v &&& 0x1F }
  | .bfx rb f =>
    let r := (greg y (rbLo rb) >>> (f.toNat % 32)).toNat % 2 ^ (f.toNat / 32 % 32 + 1)
    (y.setGreg (rbHi rb) r).setFlags { z := some (r == 0), n := some false }
  | .bfi rb f =>
    let m : Word := word (2 ^ (f.toNat / 32 % 32 + 1) - 1) <<< (f.toNat % 32)
    y.setGreg (rbHi rb) ((greg y (rbHi rb) &&& ~~~m) ||| ((greg y (rbLo rb) <<< (f.toNat % 32)) &&& m)).toNat
  | .qperm rb x =>
    let q (i : Nat) := quint (greg y (rbLo rb)) ((x.toNat >>> (2 * i)) % 4)
    y.setGreg (rbHi rb) (q 0 ++ q 1 ++ q 2 ++ q 3).toNat
  | .bperm rb x =>
    let lo := greg y (rbLo rb)
    let hi := greg y (rbLo rb + 1)
    let p (i : Nat) := pairByte lo hi ((x.toNat >>> (2 * i)) % 4)
    (y.setGreg (rbHi rb) (lo.extractLsb' 16 4 ++ p 0 ++ p 1).toNat).setGreg (rbHi rb + 1) (hi.extractLsb' 16 4 ++ p 2 ++ p 3).toNat

/-- The control instructions of R301, with LEA of R300. -/
inductive ControlOp where
  | nop | ret | reti | ei | di
  | bcc (c : Fin 14) (rel : RelTarget) | bra (rel : RelTarget) | bsr (rel : RelTarget)
  | jmp (j : JumpTarget) | jsr (j : JumpTarget)
  | lea (rb : Byte) (m : MemMode)

def ControlOp.cmd (t : Tid) (ps : List Prefix) : ControlOp → Instr
  | .nop => .nop t ps
  | .ret => .ret t ps
  | .reti => .reti t ps
  | .ei => .ei t ps
  | .di => .di t ps
  | .bcc c r => .bcc t ps c r
  | .bra r => .bra t ps r
  | .bsr r => .bsr t ps r
  | .jmp j => .jmp t ps j
  | .jsr j => .jsr t ps j
  | .lea rb m => .lea t ps rb m

/-- Rules and lengths (R273, R274); Bcc takes no PRED. -/
def ControlOp.rules : ControlOp → Rules
  | .bcc _ r => { pred := false, len := r.len }
  | .bra r | .bsr r => { len := r.len }
  | .jmp j | .jsr j => { len := j.len }
  | .lea _ m => { len := 1 + m.len }
  | _ => {}

def ControlOp.ok (w : Nat) : ControlOp → Bool
  | .jmp j | .jsr j => j.ok
  | .lea rb m => m.ok rb true w
  | _ => true

/-- The PC and what else R301 writes; `n` is the address of the next instruction. -/
def ControlOp.writes (w n : Nat) (y : Thr) : ControlOp → Thr
  | .nop => y
  | .ret => { y with pc := greg y 14 }
  | .reti => { y with pc := y.ipc, flags := y.iflags }
  | .ei => { y with flags := y.flags ||| 0x10 }
  | .di => { y with flags := y.flags &&& 0xFFFEF }
  | .bcc c r => if condHolds c.val y.flags.toNat then { y with pc := word (r.target n) } else y
  | .bra r => { y with pc := word (r.target n) }
  | .bsr r => { y.setGreg 14 n with pc := word (r.target n) }
  | .jmp j => { y with pc := word (j.target y) }
  | .jsr j => { y.setGreg 14 n with pc := word (j.target y) }
  | .lea rb m => y.setGreg (rbHi rb) (m.ea rb w y).1

end Sys2Proof.Claims

open Sys2Proof Sys2Proof.Machine Sys2Proof.Safety Sys2Proof.Claims

/-- R294, R295, R268, R280: an ALU instruction that runs answers the state in which its thread stands at the next instruction with
the result in D and the flags its row of the table names; nothing else changes but what every issue changes (Safety.issued). -/
def Obligations.AluInstructionsWriteResultAndFlags : Prop :=
  ∀ (k : AluOp) (t : Tid) (ps : List Prefix) (o : AluOperand) (s : State),
    runs s t ps (k.rules o) (o.ok k.shifts (widthOf ps)) = true →
      exec (k.cmd t ps o) s = .next (leaves s t ps o.len (fun _ y => aluWrites k o (widthOf ps) y))

/-- R296 to R299, R269: the unary, bit-field, permuting and special-register instructions likewise. -/
def Obligations.RegisterInstructionsWriteResult : Prop :=
  ∀ (i : FieldOp) (t : Tid) (ps : List Prefix) (s : State),
    runs s t ps i.rules (i.ok (widthOf ps)) = true →
      exec (i.cmd t ps) s = .next (leaves s t ps i.rules.len (fun _ y => i.writes t.val (widthOf ps) y))

/-- R301, R300 (LEA): the control instructions. -/
def Obligations.ControlInstructionsSetPc : Prop :=
  ∀ (i : ControlOp) (t : Tid) (ps : List Prefix) (s : State),
    runs s t ps i.rules (i.ok (widthOf ps)) = true →
      exec (i.cmd t ps) s = .next (leaves s t ps i.rules.len (fun n y => i.writes (widthOf ps) n y))

/-! ### Waits, conduits, the emulation trap, faults before execution -/

namespace Sys2Proof.Claims

open Sys2Proof.Machine Sys2Proof.Safety

/-- The lowest event input that a mask names and that has a count (R304). -/
def lowestEvent (x : Thr) (m : Byte) : Option Nat :=
  (List.range 8).find? (fun i => m.getLsbD i && decide (0 < Tab.get 0 x.ev i))

/-- The count of event input k, decreased by 1. -/
def oneLess (x : Thr) (k : Nat) : Thr := { x with ev := Tab.put x.ev k (Tab.get 0 x.ev k - 1) }

/-- The state in which the thread waits at its instruction, which has `len` bytes after its prefixes. -/
def waits (s : State) (t : Tid) (ps : List Prefix) (len : Nat) (w : Wait) (f : Thr → Thr) : State :=
  withEng s ((issued s.block.eng t.val ps).modThr t.val (fun x =>
    f { x with st := .wait, wait := w, waitNext := nextPc s.block.eng t.val ps len }))

/-- Rules of the waiting instructions: no width, no AT (R274). -/
def waitRules (len : Nat) : Rules := { atp := false, len := len }

/-- The bytes of a trapped instruction: prefixes, opcode, operand bytes (R288, R289). -/
def trapBytes (ps : List Prefix) (n : Fin 16) (ops : List Byte) : List Byte :=
  ps.flatMap pfxBytes ++ BitVec.ofNat 8 (0xE0 + n.val) :: (List.range (1 + n.val / 4)).map (fun i => ops.getD i 0)

/-- Two bytes of a list as a capture register holds them, the earlier in [15:8]; bytes beyond its end are 0 (R289). -/
def twoBytes (l : List Byte) (i : Nat) : Word := (0 : BitVec 4) ++ l.getD (2 * i) 0 ++ l.getD (2 * i + 1) 0

/-- The record of a fault of thread t (R255, R256): FAULTED, PC and THR_FPC at the instruction, THR_FCAUSE, THR_FADDR, its bit of THR_FPENDw. -/
def faultRecorded (e : Eng) (t cause : Nat) (pc : Word) (addr : Nat) : Prop :=
  (e.getThr t).st = .faulted ∧ (e.getThr t).pc = pc ∧ e.reg .THR_FCAUSE t = word cause ∧ e.reg .THR_FPC t = pc ∧
    e.reg .THR_FADDR t = word addr ∧ (e.reg .THR_FPEND (t / 20)).getLsbD (t % 20) = true

/-- CSND and CSNC. -/
def sendCmd (close : Bool) (t : Tid) (ps : List Prefix) (rb cd : Byte) : Instr :=
  if close then .csnc t ps rb cd else .csnd t ps rb cd

/-- Conduit cd is enabled, with thread t its writer or its reader (R353). -/
def cndWriter (e : Eng) (t cd : Nat) : Bool := e.flag F.CND_CFG_EN cd && e.fld F.CND_CFG_WTID cd == t
def cndReader (e : Eng) (t cd : Nat) : Bool := e.flag F.CND_CFG_EN cd && e.fld F.CND_CFG_RTID cd == t

/-- Cycles until an event at a conduit is visible to its other thread (R311, R354). -/
def lag (e : Eng) (cd : Nat) : Nat := if pavOf (e.fld F.CND_CFG_WTID cd) = pavOf (e.fld F.CND_CFG_RTID cd) then 1 else 2

/-- Buffers that hold a message, or whose release is not yet visible (R354). -/
def buffersUsed (e : Eng) (cd : Nat) : Nat :=
  let x := e.getCnd cd
  x.closed.length + (if x.opened = none then 0 else 1) + (x.freeing.filter (fun k => decide (e.clk.cycle < k))).length

/-- Releases of buffers still to become visible. -/
def stillFreeing (e : Eng) (cd : Nat) : List Nat := (e.getCnd cd).freeing.filter (fun k => decide (e.clk.cycle < k))

/-- The conduit after its writer appends the word w, and for CSNC closes the message (R310). -/
def appended (e : Eng) (cd : Nat) (w : Word) (close : Bool) : Conduit :=
  let x := e.getCnd cd
  let msg := x.opened.getD [] ++ [w]
  if close then { x with opened := none, closed := x.closed ++ [(msg, e.clk.cycle)], closeCyc := e.clk.cycle + 1 }
  else { x with opened := some msg }

/-- A closed message's next word, whether it is the last, and the conduit after its reader takes it (R311). -/
def taken (e : Eng) (cd : Nat) (m : List Word) (rest : List (List Word × Nat)) : Word × Bool × Conduit :=
  let x := e.getCnd cd
  let last := decide (m.length ≤ x.taken + 1)
  (m.getD x.taken 0, last,
    if last then { x with closed := rest, taken := 0, freeing := stillFreeing e cd ++ [e.clk.cycle + lag e cd] }
    else { x with taken := x.taken + 1 })

end Sys2Proof.Claims

/-- R303: WTK waits at its instruction, its issue cycle kept.

R304: WEV and WEVR take the lowest masked event input with a count, and WEVR its one-hot number; without one the thread waits and
nothing else of it changes. -/
def Obligations.WaitInstructionsTakeInputOrWait : Prop :=
  (∀ (t : Tid) (ps : List Prefix) (s : State), runs s t ps (waitRules 1) true = true →
     exec (.wtk t ps) s = .next (waits s t ps 1 .wtk (fun x => { x with wtkCyc := s.block.eng.clk.cycle + 1 }))) ∧
  ((∀ (t : Tid) (ps : List Prefix) (mask : Byte) (s : State), runs s t ps (waitRules 2) (decide (mask ≠ 0)) = true →
     exec (.wev t ps mask) s = .next (match lowestEvent (s.block.eng.getThr t.val) mask with
       | some k => leaves s t ps 2 (fun _ y => oneLess y k)
       | none => waits s t ps 2 (.wev mask.toNat none) (fun x => x))) ∧
   (∀ (t : Tid) (ps : List Prefix) (rb : Byte) (s : State), runs s t ps (waitRules 2) (rbHi rb == 0) = true →
     let r := rbLo rb
     let mask : Byte := (greg (s.block.eng.getThr t.val) r).setWidth 8
     mask ≠ 0 →
     exec (.wevr t ps rb) s = .next (match lowestEvent (s.block.eng.getThr t.val) mask with
       | some k => leaves s t ps 2 (fun _ y => (oneLess y k).setGreg r ((1#12 <<< k) ++ mask).toNat)
       | none => waits s t ps 2 (.wev mask.toNat (some r)) (fun x => x))))

/-- R288, R289, R255: a reserved opcode with THR_EMVEC not 0 traps: EMPC, EMLEN, EMB0 to EMB4, IPC and IFLAGS are saved, IE is cleared, the
PC is THR_EMVEC, and no G register or memory word changes. With THR_EMVEC 0 it faults with EMU. -/
def Obligations.EmulationTrapCapturesInstruction : Prop :=
  ∀ (t : Tid) (ps : List Prefix) (n : Fin 16) (ops : List Byte) (s : State),
    runs s t ps { w := .all, len := 2 + n.val / 4 } true = true →
      (s.block.eng.reg .THR_EMVEC t.val ≠ 0 →
        let l := trapBytes ps n ops
        exec (.emulationTrap t ps n ops) s = .next (leaves s t ps (2 + n.val / 4) (fun next y =>
          { y with emPc := (s.block.eng.getThr t.val).pc, emLen := word l.length,
                   emb := [(0, twoBytes l 0), (1, twoBytes l 1), (2, twoBytes l 2), (3, twoBytes l 3), (4, twoBytes l 4)],
                   ipc := word next, iflags := y.flags, flags := y.flags &&& 0xFFFEF, pc := s.block.eng.reg .THR_EMVEC t.val }))) ∧
      (s.block.eng.reg .THR_EMVEC t.val = 0 →
        ∃ e, exec (.emulationTrap t ps n ops) s = .next (withEng s e) ∧
          faultRecorded e t.val 6 (s.block.eng.getThr t.val).pc 0)

/-- R310 to R312, R353, R354: an enabled conduit's writer appends G[R] to its open message, opening one where a buffer is free, and CSNC
closes it; its reader takes the next word of the oldest closed message once that is visible, with C for the last; CABT discards the open
message, with Z for none. Only the thread, the conduit and the counter of aborts change.

R310, R311: an opening send that finds no buffer free, and a receive that finds no closed message visible, wait at their instruction. -/
def Obligations.ConduitInstructionsMoveWordsOrWait : Prop :=
  ((∀ (close : Bool) (t : Tid) (ps : List Prefix) (rb cd : Byte) (s : State),
     runs s t ps (waitRules 3) (rbLo rb == 0 && decide (cd.toNat < 64)) = true →
     cndWriter s.block.eng t.val cd.toNat = true →
     ((s.block.eng.getCnd cd.toNat).opened = none → buffersUsed s.block.eng cd.toNat < 2) →
     ((s.block.eng.getCnd cd.toNat).opened.getD []).length < 8 →
       exec (sendCmd close t ps rb cd) s = .next (withEng s
         ((leavesAfter 16 s t ps 3 (fun _ y => y)).block.eng.setCnd cd.toNat
           (appended s.block.eng cd.toNat (greg (s.block.eng.getThr t.val) (rbHi rb)) close)))) ∧
   (∀ (t : Tid) (ps : List Prefix) (rb cd : Byte) (s : State) (m : List Word) (c : Nat) (rest : List (List Word × Nat)),
     runs s t ps (waitRules 3) (rbLo rb == 0 && decide (cd.toNat < 64)) = true →
     cndReader s.block.eng t.val cd.toNat = true →
     (s.block.eng.getCnd cd.toNat).closed = (m, c) :: rest → c + lag s.block.eng cd.toNat ≤ s.block.eng.clk.cycle →
       let k := taken s.block.eng cd.toNat m rest
       exec (.crcv t ps rb cd) s = .next (withEng s
         ((leavesAfter 16 s t ps 3 (fun _ y => (y.setGreg (rbHi rb) k.1.toNat).setFlags { c := some k.2.1 })).block.eng.setCnd cd.toNat k.2.2))) ∧
   (∀ (t : Tid) (ps : List Prefix) (cd : Byte) (s : State),
     runs s t ps { len := 3 } (decide (cd.toNat < 64)) = true → cndWriter s.block.eng t.val cd.toNat = true →
       let x := s.block.eng.getCnd cd.toNat
       exec (.cabt t ps 0 cd) s = .next (if x.opened = none
         then leavesAfter 16 s t ps 3 (fun _ y => y.setFlags { z := some true })
         else withEng s (((leavesAfter 16 s t ps 3 (fun _ y => y.setFlags { z := some false })).block.eng.setCnd cd.toNat
           { x with opened := none, freeing := stillFreeing s.block.eng cd.toNat ++ [s.block.eng.clk.cycle + 1] }).bump F.CND_CNT_ABORTS 0 1)))) ∧
  ((∀ (close : Bool) (t : Tid) (ps : List Prefix) (rb cd : Byte) (s : State),
     runs s t ps (waitRules 3) (rbLo rb == 0 && decide (cd.toNat < 64)) = true →
     cndWriter s.block.eng t.val cd.toNat = true → (s.block.eng.getCnd cd.toNat).opened = none → 2 ≤ buffersUsed s.block.eng cd.toNat →
       exec (sendCmd close t ps rb cd) s = .next (waits s t ps 3 (.csend (rbHi rb) cd.toNat close) (fun x => x))) ∧
   (∀ (t : Tid) (ps : List Prefix) (rb cd : Byte) (s : State),
     runs s t ps (waitRules 3) (rbLo rb == 0 && decide (cd.toNat < 64)) = true →
     cndReader s.block.eng t.val cd.toNat = true →
     (∀ m c rest, (s.block.eng.getCnd cd.toNat).closed = (m, c) :: rest → s.block.eng.clk.cycle < c + lag s.block.eng cd.toNat) →
       exec (.crcv t ps rb cd) s = .next (waits s t ps 3 (.crecv (rbHi rb) cd.toNat) (fun x => x))))

/-- R283: an instruction of these families that PRED annuls passes the checks before it and changes nothing of its thread but the PC.

R287, R255, R256: an ALU, field or control instruction that does not lie in one code region faults with FETCH, and one whose prefixes or
fields are not accepted with ILLEGAL: its thread is FAULTED at it, and no memory word changes. -/
def Obligations.AnnulledAndRejectedInstructions : Prop :=
  ((∀ (k : AluOp) (t : Tid) (ps : List Prefix) (o : AluOperand) (s : State),
     t ≠ 0 → canRun s.block.eng t.val ps (k.rules o) (o.ok k.shifts (widthOf ps)) = true →
       notAnnulled s.block.eng t.val (parsePfx ps) = false →
       exec (k.cmd t ps o) s = .next (leaves s t ps o.len (fun _ y => y))) ∧
   (∀ (i : FieldOp) (t : Tid) (ps : List Prefix) (s : State),
     t ≠ 0 → canRun s.block.eng t.val ps i.rules (i.ok (widthOf ps)) = true →
       notAnnulled s.block.eng t.val (parsePfx ps) = false →
       exec (i.cmd t ps) s = .next (leaves s t ps i.rules.len (fun _ y => y))) ∧
   (∀ (i : ControlOp) (t : Tid) (ps : List Prefix) (s : State),
     t ≠ 0 → canRun s.block.eng t.val ps i.rules (i.ok (widthOf ps)) = true →
       notAnnulled s.block.eng t.val (parsePfx ps) = false →
       exec (i.cmd t ps) s = .next (leaves s t ps i.rules.len (fun _ y => y)))) ∧
  (∀ (t : Tid) (ps : List Prefix) (s : State) (c : Instr) (r : Rules) (ok : Bool),
     ((∃ k o, c = AluOp.cmd t ps o k ∧ r = k.rules o ∧ ok = o.ok k.shifts (widthOf ps)) ∨
       (∃ i : FieldOp, c = i.cmd t ps ∧ r = i.rules ∧ ok = i.ok (widthOf ps)) ∨
       (∃ i : ControlOp, c = i.cmd t ps ∧ r = i.rules ∧ ok = i.ok (widthOf ps))) →
     t ≠ 0 → (parsePfx ps).bad = none → (parsePfx ps).lock = false →
     undisturbed s.block.eng t.val false = true →
     let x := s.block.eng.getThr t.val
     let len := (parsePfx ps).len + r.len
     (codeOk x.pc.toNat len = false →
       ∃ e, exec c s = .next (withEng s e) ∧ faultRecorded e t.val 4 x.pc 0) ∧
     (codeOk x.pc.toNat len = true → codeClean s.block.eng (pavOf t.val) x.pc.toNat len = true → (r.pfxOk (parsePfx ps) && ok) = false →
       ∃ e, exec c s = .next (withEng s e) ∧ faultRecorded e t.val 1 x.pc 0))

/-! ### Memory instructions and locks -/

namespace Sys2Proof.Claims

open Sys2Proof.Machine Sys2Proof.Safety

/-- The lowest bit of the element that a width code names (R271). -/
def elemLow (w : Nat) : Nat := if w = 0 then 8 else if w = 2 then 15 else if w = 3 ∨ w = 6 then 10 else if w = 4 then 5 else 0

/-- The element of a word, and the word with its element replaced (R281). -/
def elemGet (w : Nat) (v : Word) : Nat := (v >>> elemLow w).toNat % 2 ^ wBits w
def elemPut (w : Nat) (v : Word) (x : Nat) : Word :=
  let m : Word := word (2 ^ wBits w - 1) <<< elemLow w
  (v &&& ~~~m) ||| ((word x <<< elemLow w) &&& m)

/-- The four data instructions of R300. -/
inductive DataOp where
  | ld | st | xch | addm
  deriving DecidableEq

def DataOp.cmd (t : Tid) (ps : List Prefix) (rb : Byte) (m : MemMode) : DataOp → Instr
  | .ld => .ld t ps rb m
  | .st => .st t ps rb m
  | .xch => .xch t ps rb m
  | .addm => .addm t ps rb m

/-- Rules and length (R274, R276). -/
def dataRules (m : MemMode) : Rules := { w := .all, lock := true, len := 1 + m.len }

/-- The effective address of a thread's memory instruction (R276). -/
def addressOf (s : State) (t : Tid) (ps : List Prefix) (rb : Byte) (m : MemMode) : Nat :=
  (m.ea rb (widthOf ps) (s.block.eng.getThr t.val)).1

/-- The thread after the base register is stepped (POST, PRE; R276). -/
def stepped (rb : Byte) (m : MemMode) (ps : List Prefix) (y : Thr) : Thr :=
  match (m.ea rb (widthOf ps) y).2 with
  | some (r, v) => y.setGreg r v
  | none => y

/-- The data words of an access: the word at `canon`, and under PAIR the next (R278). -/
def wordsOf (w canon : Nat) : List Nat := if w = wPair then [canon, canon + 1] else [canon]

/-- A data word in memory. -/
def memWord (s : State) (a : Nat) : Word := Tab.get 0 s.block.mem.data a

/-- The value at width w of the words from `canon` on: the element, or the pair (R281, R278). -/
def memVal (s : State) (w canon : Nat) : Nat :=
  if w = wPair then (memWord s canon).toNat + (memWord s (canon + 1)).toNat * 2 ^ 20 else elemGet w (memWord s canon)

/-- The words as a store of `v` at width w leaves them: the words from `canon` on, every other word as it was. -/
def stored (s : State) (w canon v a : Nat) : Word :=
  if w = wPair then (if a = canon then word v else if a = canon + 1 then word (v / 2 ^ 20) else memWord s a)
  else if a = canon then elemPut w (memWord s canon) v else memWord s a

/-- No other thread's locked sequence is open at the bank of a word or closed in this cycle (R330), and no other access of this cycle has reached
the word (R329). -/
def unheld (e : Eng) (t a : Nat) : Bool :=
  e.thr.all (fun u => u.1 == t || (match u.2.seq with
    | some (b, n) => b != bankOf a || n == 0
    | none => true)) &&
  e.recent.banks.all (fun x => x.1 != bankOf a || x.2 == t) && Tab.get (0, 0) e.recent.acc a == (0, 0)

/-- Nothing holds the access at its words; the lock unit records none of them (R345), none has an ECC
error (R325), and no watch comparator of the pavilion is enabled (R513). -/
def plainData (e : Eng) (t w canon : Nat) : Bool :=
  (wordsOf w canon).all (fun a => unheld e t a && (e.lockSlot a).isNone && !Tab.has e.ecc (eccData a)) &&
  [0, 1, 2, 3, 4, 5, 6, 7].all (fun n => !e.flag F.HIDE_CCFG_EN (compIdx (pavOf t) 1 n))

/-- A memory instruction of thread t without LOCK addresses data word `canon`, and under PAIR the next in the same region (R278, R320). -/
def addresses (s : State) (t : Tid) (ps : List Prefix) (rb : Byte) (m : MemMode) (canon : Nat) (shared : Bool) : Bool :=
  let ea := addressOf s t ps rb m
  decide (regionOf (pavOf t.val) ea = .data canon shared) && !(parsePfx ps).lock &&
    (widthOf ps != wPair || (decide (ea + 1 < 2 ^ 20) && regionRow (ea + 1) == regionRow ea))

/-- What a data instruction writes to its thread: `old` the value found, `r` that of the data register (R300). -/
def DataOp.writes (w r old v : Nat) (y : Thr) : DataOp → Thr
  | .ld => y.putOper w r old
  | .st => y
  | .xch => y.putOper w r old
  | .addm =>
    let a := aluMeans .add (BitVec.ofNat (wBits w) old) (BitVec.ofNat (wBits w) v) 0 false
    (y.putOper w r old).setFlags a.2

/-- The data word `a` after a data instruction (R300). -/
def DataOp.stores (s : State) (w canon old v a : Nat) : DataOp → Word
  | .ld => memWord s a
  | .st => stored s w canon v a
  | .xch => stored s w canon v a
  | .addm => stored s w canon ((old + v) % 2 ^ wBits w) a

/-- Cycles from issue to completion (R234, R278, R290, R291): Ld is 0 for the thread's own local data, 9 for that of another pavilion, 8 for shared
data; a PAIR takes one cycle more, XCH and ADDM write one cycle after they read. -/
def DataOp.cycles (t w canon : Nat) (shared : Bool) (k : DataOp) : Nat :=
  let two := decide (k = .xch ∨ k = .addm)
  8 + (if shared then 8 else if canon / 0x10000 = pavOf t + 1 then 0 else 9) +
    (if w = wPair then (if two then 3 else 1) else if two then 1 else 0)

/-- Two memories that differ at most in data words: the Basin, code and Ledger are the same, and word `a` reads `f a`. -/
def onlyData (m m' : Mem) (f : Nat → Word) : Prop :=
  m'.basin = m.basin ∧ m'.code = m.code ∧ m'.ledger = m.ledger ∧ ∀ a, Tab.get 0 m'.data a = f a

/-- Rules of LKW, LKR and of a word LD (R274). -/
def lkwRules (m : MemMode) : Rules := { atp := false, len := 1 + m.len }
def lkrRules (m : MemMode) : Rules := { len := 1 + m.len }

/-- The lock word at canonical address `a`, as any access reads it (R345). -/
def lockWord (s : State) (a : Nat) : Word := word (s.block.dataWord a)

/-- A lock word HELD by thread t with user bits kept, ABANDONED and WAITMAX clear (R306, R307). -/
def heldBy (t : Nat) (v : Word) : Word := 1#2 <<< 1 ++ BitVec.ofNat 6 t ++ 0#4 ++ v.setWidth 8

/-- A lock instruction addresses lock word `canon`: LKW and LKR local data or the aperture, a try-acquire the aperture (R306); nothing holds the
access, the word has no ECC error, no watch comparator is enabled. -/
def locksAt (s : State) (t : Tid) (ps : List Prefix) (rb : Byte) (m : MemMode) (canon : Nat) (localToo : Bool) : Bool :=
  let ea := addressOf s t ps rb m
  let e := s.block.eng
  (decide (regionOf (pavOf t.val) ea = .aperture canon) || (localToo && decide (regionOf (pavOf t.val) ea = .data canon false))) &&
    !(parsePfx ps).lock && unheld e t.val canon && !Tab.has e.ecc (eccData canon) && [0, 1, 2, 3, 4, 5, 6, 7].all (fun n => !e.flag F.HIDE_CCFG_EN (compIdx (pavOf t.val) 1 n))

end Sys2Proof.Claims

/-- R300, R276, R278, R280, R281: LD, ST, XCH and ADDM on local or shared data write their data register, flags and base register and the words they
store, at the address that the mode gives; every other register, flag and memory word is as before. -/
def Obligations.DataInstructionsAccessTheirWords : Prop :=
  ∀ (k : DataOp) (t : Tid) (ps : List Prefix) (rb : Byte) (m : MemMode) (s : State) (canon : Nat) (shared : Bool),
    runs s t ps (dataRules m) (m.ok rb false (widthOf ps)) = true →
    addresses s t ps rb m canon shared = true → plainData s.block.eng t.val (widthOf ps) canon = true →
      let w := widthOf ps
      let old := memVal s w canon
      let v := (s.block.eng.getThr t.val).oper w (rbHi rb)
      let after := leavesAfter (k.cycles t.val w canon shared) s t ps (1 + m.len) (fun _ y => { k.writes w (rbHi rb) old v (stepped rb m ps y) with hostWin := false })
      ∃ m' acc, exec (k.cmd t ps rb m) s =
          .next { after with block := ⟨m', { after.block.eng with recent := { after.block.eng.recent with acc := acc } }⟩ } ∧
        onlyData s.block.mem m' (fun a => k.stores s w canon old v a)

/-- R306: a word LD of the aperture answers the lock word as found; a word found with HELD clear is taken by the thread, one found HELD stays.
(LD and LOCK_TRY_ACQUIRE are one instruction.)

R307: LKW takes a free lock, with C its ABANDONED bit; it joins the waiters of a lock that another thread owns, and the thread waits.

R308: LKR by the owner writes the user bits; without waiters the word is free and C is 0, with waiters the lock goes to the first of them in
grant order, HELD stays set, and C is 1. -/
def Obligations.LockInstructionsTakeReleaseOrWait : Prop :=
  (∀ (asLd : Bool) (t : Tid) (ps : List Prefix) (rb : Byte) (m : MemMode) (s : State) (canon : Nat),
     runs s t ps (dataRules m) (m.ok rb false (widthOf ps)) = true → widthOf ps = wWord →
     locksAt s t ps rb m canon false = true →
       let v := lockWord s canon
       let c := if asLd then Instr.ld t ps rb m else Instr.lockTryAcquire t ps rb m
       (v.getLsbD 19 = false → (s.block.eng.emptySlot t.val).isSome = true →
         ∃ b, exec c s = .next { s with block := b } ∧ onlyData s.block.mem b.mem (fun a => if a = canon then heldBy t.val v else memWord s a) ∧
           greg (b.eng.getThr t.val) (rbHi rb) = v ∧ (b.eng.getThr t.val).flags = (s.block.eng.getThr t.val).flags ∧
           (∀ u, u ≠ t.val → b.eng.getThr u = s.block.eng.getThr u)) ∧
       (v.getLsbD 19 = true →
         ∃ b, exec c s = .next { s with block := b } ∧ (∀ a, a ≠ canon → Tab.get 0 b.mem.data a = memWord s a) ∧
           word (b.dataWord canon) = v ∧ greg (b.eng.getThr t.val) (rbHi rb) = v ∧ b.eng.locks = s.block.eng.locks)) ∧
  (∀ (t : Tid) (ps : List Prefix) (rb : Byte) (m : MemMode) (s : State) (canon : Nat),
     runs s t ps (lkwRules m) (m.ok rb false wWord) = true → locksAt s t ps rb m canon true = true →
     (s.block.eng.emptySlot t.val).isSome = true →
       let v := lockWord s canon
       (v.getLsbD 19 = false →
         ∃ b, exec (.lkw t ps rb m) s = .next { s with block := b } ∧
           onlyData s.block.mem b.mem (fun a => if a = canon then heldBy t.val v else memWord s a) ∧
           greg (b.eng.getThr t.val) (rbHi rb) = heldBy t.val v ∧
           (b.eng.getThr t.val).flags = ({ c := some (v.getLsbD 18) } : FlagSet).on (s.block.eng.getThr t.val).flags ∧
           (b.eng.getThr t.val).st = .run) ∧
       (v.getLsbD 19 = true → v.extractLsb' 12 6 ≠ BitVec.ofNat 6 t.val →
         ∃ b, exec (.lkw t ps rb m) s = .next { s with block := b } ∧
           b.eng.waiters = s.block.eng.waiters ++ [(t.val, canon)] ∧ (b.eng.getThr t.val).st = .wait ∧
           (b.eng.getThr t.val).g = (s.block.eng.getThr t.val).g ∧ (b.eng.getThr t.val).pc = (s.block.eng.getThr t.val).pc)) ∧
  (∀ (t : Tid) (ps : List Prefix) (rb : Byte) (m : MemMode) (s : State) (canon k : Nat) (ab : Bool),
     runs s t ps (lkrRules m) (m.ok rb false wWord) = true → locksAt s t ps rb m canon true = true →
     s.block.eng.lockSlot canon = some (k, ⟨false, canon, ab⟩) → k / 4 = t.val →
       let user : Byte := (greg (s.block.eng.getThr t.val) (rbHi rb)).setWidth 8
       (s.block.eng.waitersOf canon = [] →
         ∃ b, exec (.lkr t ps rb m) s = .next { s with block := b } ∧
           onlyData s.block.mem b.mem (fun a => if a = canon then user.setWidth 20 else memWord s a) ∧
           b.eng.locks = Tab.del s.block.eng.locks k ∧
           (b.eng.getThr t.val).flags = ({ c := some false } : FlagSet).on (s.block.eng.getThr t.val).flags) ∧
       (∀ u, s.block.eng.firstWaiter canon = some u → u ≠ t.val → (s.block.eng.emptySlot u).isSome = true →
         ∃ b, exec (.lkr t ps rb m) s = .next { s with block := b } ∧
           onlyData s.block.mem b.mem (fun a => if a = canon
             then word (2 ^ 19 + u * 2 ^ 12 + b.eng.waitMax canon * 2 ^ 8 + user.toNat) else memWord s a) ∧
           (∀ p ∈ b.eng.waiters, p.1 ≠ u) ∧
           (b.eng.getThr t.val).flags = ({ c := some true } : FlagSet).on (s.block.eng.getThr t.val).flags))

/-! ### The ends of waits, interrupts, holds and halts, held accesses, host responses -/

namespace Sys2Proof.Claims

open Sys2Proof.Machine Sys2Proof.Safety

/-- The thread is in WAIT, or HALTED with PREV WAIT (R245, R508). -/
def inWait (x : Thr) : Prop := x.st = .wait ∨ (x.st = .halted ∧ x.prev = .wait)

/-- The thread's state, or PREV of a HALTED thread, becomes `z` (R508). -/
def putState (x : Thr) (z : TState) : Thr := if x.st = .halted then { x with prev := z } else { x with st := z }

/-- The thread after its wait: RUN at the address after the waiting instruction, which may issue (R247, R303). -/
def ended (x : Thr) : Thr := { putState x .run with wait := .none, pc := word x.waitNext, ready := 0 }

/-- The barrels run, and no reset, fault, halt, HOLD or RELEASE reached the thread in this cycle (R246, R475). -/
def mayEnd (e : Eng) (t : Nat) : Prop :=
  e.pwr.lvl ≤ 1 ∧ ((e.getThr t).mark.1 = e.clk.cycle + 1 → (e.getThr t).mark.2 = 0)

/-- The base register that a granted LKW steps (R276, R309). -/
def baseStepped (x y : Thr) : Thr :=
  match x.waitBase with
  | some (r, v) => y.setGreg r v
  | none => y

/-- The Sundial time is at or past the target: ((NS − T) mod 2^40) < 2^39 (R72). -/
def atOrPast (ns target : Nat) : Prop := (ns % 2 ^ 40 + 2 ^ 40 - target) % 2 ^ 40 < 2 ^ 39

/-- s with thread t replaced. -/
def withThr (s : State) (t : Nat) (x : Thr) : State := withEng s (s.block.eng.setThr t x)

end Sys2Proof.Claims

/-- R253, R254: a due interrupt of a thread that runs outside a locked sequence, or waits in WTK or WEV, is taken: the input's count falls by 1, IPC and
IFLAGS take PC and FLAGS, IE is cleared, the PC is THR_IVEC, and the issue goes on with the first instruction there; no G register and no memory word changes. -/
def Obligations.InterruptEntrySavesPcAndFlags : Prop :=
  ∀ (t : Tid) (s : State), t ≠ 0 → s.block.eng.chansDue = [] → s.block.eng.canInterrupt t.val = true →
    (s.block.eng.getThr t.val).step = false →
    let x := s.block.eng.getThr t.val
    exec (.interruptEntry t) s = .next (withEng s ((s.block.eng.countSpare t.val).setThr t.val
      { x with irq := x.irq - 1, ipc := x.pc, iflags := x.flags, flags := x.flags &&& 0xFFFEF,
               pc := s.block.eng.reg .THR_IVEC t.val, st := .run, wait := .none, seq := none, entered := true,
               issued := s.block.eng.clk.cycle + 1, atLock := false }))

/-- R304, R309, R310, R311, R72: where its condition holds, the end of a wait of thread t takes the event, the lock, the message word or the buffer
waited for, and the thread runs at the next instruction; after an AT wait, two cycles after its target was first found reached, it runs at its own
instruction, marked as released.

R247, R507, R510: a HOLD or a halt that waited for an instruction in flight or a locked sequence takes the thread once these have ended: HELD with a
pending wait given up, or HALTED with PREV and the cause recorded. -/
def Obligations.WaitsEndAndHoldsTakeThread : Prop :=
  (∀ (t : Tid) (s : State), t ≠ 0 → inWait (s.block.eng.getThr t.val) → mayEnd s.block.eng t.val →
     let e := s.block.eng
     let x := e.getThr t.val
     (∀ (m k : Nat) (r : Option Nat), x.wait = .wev m r → k < 8 → m.testBit k = true → 0 < Tab.get 0 x.ev k →
       (∀ i, i < k → m.testBit i = true → Tab.get 0 x.ev i = 0) →
       exec (.wevWaitEnd t) s = .next (withThr s t.val (match r with
         | none => oneLess (ended x) k
         | some r => (oneLess (ended x) k).setGreg r ((1#12 <<< k) ++ (greg x r).setWidth 8).toNat))) ∧
     (∀ (r a c wm : Nat) (ab : Bool), x.wait = .lock r a (some (c, ab, wm)) → c ≤ e.clk.cycle →
       ∃ e', exec (.lkwWaitEnd t) s = .next (withEng s e') ∧
         e'.getThr t.val = ((baseStepped x (ended x)).setGreg r (2 ^ 19 + t.val * 2 ^ 12 + wm * 2 ^ 8 + (memWord s a).toNat % 2 ^ 8)).setFlags { c := some ab } ∧
         (∀ k y, (k, y) ∈ e'.locks → y.addr = a → y.abandoned = false)) ∧
     (∀ (r d c : Nat) (m : List Word) (rest : List (List Word × Nat)), x.wait = .crecv r d → (e.getCnd d).closed = (m, c) :: rest →
       c + lag e d ≤ e.clk.cycle →
       exec (.crcvWaitEnd t) s = .next (withEng s ((e.setCnd d (taken e d m rest).2.2).setThr t.val
         (((ended x).setGreg r (taken e d m rest).1.toNat).setFlags { c := some (taken e d m rest).2.1 })))) ∧
     (∀ (r d : Nat) (close : Bool), x.wait = .csend r d close → buffersUsed e d < 2 →
       exec (.sendOpenWaitEnd t) s = .next (withEng s ((e.setCnd d (appended e d (greg x r) close)).setThr t.val (ended x)))) ∧
     (∀ c, x.wait = .atTime → x.atHit = some c → c + 2 ≤ e.clk.cycle → x.atSlept = false →
       exec (.atRelease t) s = .next (withThr s t.val { putState x .run with wait := .none, atDone := true, atHit := none }))) ∧
  (∀ (t : Tid) (s : State), t ≠ 0 →
     let e := s.block.eng
     let x := e.getThr t.val
     (x.holdReq = true → x.mem = none → (∀ r a g, x.wait ≠ .lock r a (some g)) → x.seq = none →
       exec (.threadHeld t) s = .next (withEng s ({ e with waiters := e.waiters.filter (fun p => p.1 != t.val) }.setThr t.val
         { putState x .held with wait := .none, atDone := false, atHit := none, atSlept := false, holdReq := false }))) ∧
     (∀ cause comp deferred, x.haltReq = some (cause, comp, deferred) → x.mem = none → x.seq = none → x.st ≠ .halted →
       ∃ e', exec (.threadHalted t) s = .next (withEng s e') ∧
         e'.getThr t.val = { x with st := .halted, prev := x.st, haltReq := none, step := false, entered := false } ∧
         e'.reg .HIDE_HCAUSE t.val = word ((if deferred then 128 else 0) + cause * 16 + comp)))

/-- R330, R333, R234: the word store that alone was held at a bank takes effect in a cycle in which no locked sequence blocks the bank or closed: the word is
written, the thread stands at its next instruction, which may issue 3 cycles later, and no other data word changes.

R293, R323, R324, R255: the response to a word LD or ST of the host window completes the instruction, with the low 20 bits of the data in the register of an
LD; a FAULT or NOWHERE response faults the thread with BUS or NOWHERE at the access's address. -/
def Obligations.HeldAccessesComplete : Prop :=
  (∀ (bank : Fin 20) (t : Tid) (s : State) (o : MemOp) (canon : Nat) (shared : Bool),
     let e := s.block.eng
     let x := e.getThr t.val
     e.heldBanks = [t.val] → x.mem = some o → o.tid = t.val → o.kind = .st → o.width = wWord → o.locked = false → o.fed = false → o.base = none → o.late = true →
     regionOf (pavOf t.val) o.ea = .data canon shared → bankOf canon = bank.val →
     e.thr.all (fun u => match u.2.seq with
       | some (b, n) => b != bank.val || n == 0
       | none => true) = true →
     plainData e t.val wWord canon = true →
       ∃ m' acc, exec (.bankHoldRelease bank) s =
           .next { s with block := ⟨m', { e with heldBanks := [], recent := { e.recent with acc := acc } }.setThr t.val
             (readyFrom (e.clk.cycle + 3) { x with mem := none, hostWin := false, pc := word o.next })⟩ } ∧
         onlyData s.block.mem m' (fun a => if a = canon then word o.val else memWord s a)) ∧
  (∀ (p : Pav) (t : Tid) (data : BitVec 64) (s : State) (x : Txn) (rest : List Txn) (o : MemOp),
     let e := s.block.eng
     e.initq = x :: rest → x.id = 0x20 + p.val → 0 < e.outOf (2 + p.val) → x.why = .window t.val → t ≠ 0 → pavOf t.val = p.val →
     (∃ w, regionOf p.val o.ea = .host w) →
     (e.getThr t.val).mem = some o → o.tid = t.val → o.width = wWord → o.fed = false → o.base = none →
     [0, 1, 2, 3, 4, 5, 6, 7].all (fun n => !e.flag F.HIDE_CCFG_EN (compIdx p.val 1 n)) = true →
       (∃ e', exec (.hostWindowResponse p 0 data) s = .next (withEng s e') ∧ e'.initq = rest ∧
         e'.getThr t.val = readyFrom (e.clk.cycle + 3) (if o.kind = .ld
           then ({ e.getThr t.val with mem := none, hostWin := false, pc := word o.next } : Thr).setGreg o.r (data.toNat % 2 ^ 20)
           else { e.getThr t.val with mem := none, hostWin := false, pc := word o.next })) ∧
       (∃ e', exec (.hostWindowResponse p 1 data) s = .next (withEng s e') ∧ faultRecorded e' t.val 2 (word o.pc) o.ea) ∧
       (∃ e', exec (.hostWindowResponse p 2 data) s = .next (withEng s e') ∧ faultRecorded e' t.val 3 (word o.pc) o.ea))

/-! ### Register writes and reads as commands -/

namespace Sys2Proof.Claims

open Sys2Proof.Machine Sys2Proof.Safety

/-- s with engine state `e`, in which an access of `who` was answered DONE (R399). -/
def done (s : State) (who : Acc) (e : Eng) : State := withEng s (e.answer who 0 0)

/-- A legal write of v to copy i of register r by `who` (R403). -/
def legal (s : State) (who : Acc) (r : Reg) (i : Nat) (v : Word) : Prop := mayWrite s.block.eng who r i v.toNat = true

/-- The register write that an action command is: accessor, register, index, word, and whether the word starts the action. -/
def actionOf : Instr → Option (Acc × Reg × Nat × Word × Bool)
  | .threadHold who v => some (who, .THR_CTL, 0, v, bit v.toNat 1)
  | .threadRelease who v => some (who, .THR_CTL, 0, v, bit v.toNat 0)
  | .threadReset who v => some (who, .THR_CTL, 0, v, bit v.toNat 2)
  | .contextWrite who v => some (who, .THR_CDATA, 0, v, true)
  | .stillWaterAck who v => some (who, .THR_SWCTL, 0, v, bit v.toNat 9)
  | .slotEntryWrite who p v => some (who, .BRL_SENT, p.val, v, true)
  | .slotTableCopy who p v => some (who, .BRL_CTL, p.val, v, bit v.toNat 0)
  | .slotTableApply who p v => some (who, .BRL_CTL, p.val, v, bit v.toNat 1)
  | .slotTableCancel who p v => some (who, .BRL_CTL, p.val, v, bit v.toNat 3)
  | .tickApply who v => some (who, .TIK_CTL, 0, v, bit v.toNat 1)
  | .tickCancel who v => some (who, .TIK_CTL, 0, v, bit v.toNat 3)
  | .tickRunSet who v => some (who, .TIK_CTL, 0, v, bit v.toNat 0)
  | .tickRunClear who v => some (who, .TIK_CTL, 0, v, !bit v.toNat 0)
  | .sundialStep who v => some (who, .SUN_CTL, 0, v, v.toNat == 1)
  | .sundialLoad who v => some (who, .SUN_CTL, 0, v, v.toNat == 2)
  | .sundialRate who v => some (who, .SUN_CTL, 0, v, v.toNat == 3)
  | .linkEnSet who n v => some (who, .LNK_CTL, n.val, v, bit v.toNat 0)
  | .linkEnClear who n v => some (who, .LNK_CTL, n.val, v, !bit v.toNat 0)
  | .upRequest who n v => some (who, .LNK_CTL, n.val, v, bit v.toNat 1)
  | .linkLossWrite who n v => some (who, .LNK_CTL, n.val, v, bit v.toNat 2)
  | .tsPopIngress who n v => some (who, .LNK_TSCTL, n.val, v, bit v.toNat 0)
  | .tsPopEgress who n v => some (who, .LNK_TSCTL, n.val, v, bit v.toNat 1)
  | .bsnAlloc who v => some (who, .BSN_ALLOC, 0, v, true)
  | .chainRelink who v => some (who, .BSN_CHAIN1, 0, v, true)
  | .bsnRelease who v => some (who, .BSN_RELEASE, 0, v, true)
  | .frameInject who v => some (who, .BSN_INJGO, 0, v, bit v.toNat 0)
  | .fwdInsert who v => some (who, .FWD_OP, 0, v, v.toNat % 8 == 1)
  | .fwdDelete who v => some (who, .FWD_OP, 0, v, v.toNat % 8 == 2)
  | .fwdFind who v => some (who, .FWD_OP, 0, v, v.toNat % 8 == 3)
  | .fwdRead who v => some (who, .FWD_OP, 0, v, v.toNat % 8 == 4)
  | .wardenNow who v => some (who, .WRD_CTL, 0, v, bit v.toNat 1)
  | .rowSetApply who v => some (who, .SCH_LCTL, 0, v, bit v.toNat 2)
  | .rowSetCancel who v => some (who, .SCH_LCTL, 0, v, bit v.toNat 3)
  | .scheduleEnSet who v => some (who, .SCH_LCTL, 0, v, bit v.toNat 0)
  | .scheduleEnClear who v => some (who, .SCH_LCTL, 0, v, !bit v.toNat 0)
  | .schEntryWrite who v => some (who, .SCH_EOP, 0, v, v.toNat == 1)
  | .schEntryRead who v => some (who, .SCH_EOP, 0, v, v.toNat == 2)
  | .bufferCommit who v => some (who, .SCH_BCTL, 0, v, bit v.toNat 0)
  | .bufferClear who v => some (who, .SCH_BCTL, 0, v, bit v.toNat 1)
  | .softwareFire who v => some (who, .CWY_FIRE, 0, v, true)
  | .unmute who w v => some (who, .CWY_MUTE, w.val, v, true)
  | .timerStart who u v => some (who, .TMR_CTL, u.val, v, bit v.toNat 0)
  | .timerStop who u v => some (who, .TMR_CTL, u.val, v, bit v.toNat 1)
  | .timerCont who u v => some (who, .TMR_CTL, u.val, v, bit v.toNat 2)
  | .timerCaptureNow who u v => some (who, .TMR_CTL, u.val, v, bit v.toNat 3)
  | .timerCountWrite who u v => some (who, .TMR_CNT, u.val, v, true)
  | .globalStart who v => some (who, .TMR_GSTART, 0, v, bit v.toNat 8)
  | .reedStart who k v => some (who, .REED_CTL, k.val, v, bit v.toNat 0)
  | .reedArm who k v => some (who, .REED_CTL, k.val, v, bit v.toNat 1)
  | .reedHalt who k v => some (who, .REED_CTL, k.val, v, bit v.toNat 2)
  | .reedSwap who k v => some (who, .REED_CTL, k.val, v, bit v.toNat 3)
  | .reedForce who k v => some (who, .REED_CTL, k.val, v, bit v.toNat 4)
  | .reedSyncGo who p v => some (who, .REED_SYNC, (16 * p.val), v, bit v.toNat 9)
  | .reedMbxWrite who k v => some (who, .REED_MBX, k.val, v, true)
  | .programWrite who k v => some (who, .REED_PDATA, k.val, v, true)
  | .tsetCommit who k v => some (who, .REED_TSET, (4 * k.val), v, true)
  | .slotReset who v => some (who, .COD_CTL, 0, v, bit v.toNat 0)
  | .slotResetAll who v => some (who, .COD_CTL, 0, v, bit v.toNat 1)
  | .codModeWrite who v => some (who, .COD_MODE, 0, v, true)
  | .lockForce who v => some (who, .LCK_FCTL, 0, v, bit v.toNat 0)
  | .conduitAbort who v => some (who, .CND_CTL, 0, v, bit v.toNat 0)
  | .conduitFlush who v => some (who, .CND_CTL, 0, v, bit v.toNat 1)
  | .knockWrite who v => some (who, .HRG_KNOCK, 0, v, bit v.toNat 0)
  | .ringEnable who v => some (who, .HRG_RCTL, 0, v, bit v.toNat 0)
  | .ringDisable who v => some (who, .HRG_RCTL, 0, v, !bit v.toNat 0)
  | .ringRestart who v => some (who, .HRG_RCTL, 0, v, bit v.toNat 1)
  | .keeperIrq who v => some (who, .HRG_KIRQ, 0, v, bit v.toNat 0)
  | .commandTake who v => some (who, .KEY_CTAKE, 0, v, bit v.toNat 0)
  | .commandDone who v => some (who, .KEY_CDONE, 0, v, bit v.toNat 0)
  | .ldgWrite who v => some (who, .LDG_CTL, 0, v, bit v.toNat 0)
  | .ledgerReadStart who v => some (who, .LDG_ADDR, 0, v, true)
  | .hostWake who v => some (who, .PWR_WAKE, 0, v, bit v.toNat 0)
  | .bootGo who v => some (who, .JX_BOOT_CTL, 0, v, bit v.toNat 0)
  | .watchdogKick who v => some (who, .RST_WDKICK, 0, v, bit v.toNat 0)
  | .watchdogEnable who v => some (who, .RST_WDCTL, 0, v, bit v.toNat 0)
  | .bistGo who v => some (who, .RST_BISTCTL, 0, v, bit v.toNat 2)
  | .challengeRequest who v => some (who, .HIDE_CHALCTL, 0, v, v.toNat % 4 != 0)
  | .responseCheck who v => some (who, .HIDE_RESP, 3, v, true)
  | .authDrop who v => some (who, .HIDE_CHALCTL, 0, v, bit v.toNat 2)
  | .hideAccessRead who v => some (who, .HIDE_ACMD, 0, v, !bit v.toNat 2 && v.toNat % 4 == 1)
  | .hideAccessWrite who v => some (who, .HIDE_ACMD, 0, v, !bit v.toNat 2 && v.toNat % 4 == 2)
  | .hideCodeRead who v => some (who, .HIDE_ACMD, 0, v, bit v.toNat 2 && v.toNat % 4 == 1)
  | .hideCodeWrite who v => some (who, .HIDE_ACMD, 0, v, bit v.toNat 2 && v.toNat % 4 == 2)
  | .hideHalt who v => some (who, .HIDE_HCTL, 0, v, bit v.toNat 0)
  | .hideResume who v => some (who, .HIDE_HCTL, 0, v, bit v.toNat 1)
  | .hideStep who v => some (who, .HIDE_HCTL, 0, v, bit v.toNat 2)
  | .haltpav who v => some (who, .HIDE_HCTL, 0, v, bit v.toNat 3)
  | .resumepav who v => some (who, .HIDE_HCTL, 0, v, bit v.toNat 4)
  | .haltall who v => some (who, .HIDE_HCTL, 0, v, bit v.toNat 5)
  | .resumeall who v => some (who, .HIDE_HCTL, 0, v, bit v.toNat 6)
  | .haltedRegisterWrite who v => some (who, .HIDE_HDATA, 0, v, true)
  | .feedGo who v => some (who, .HIDE_FEED, 0, v, bit v.toNat 4)
  | .vtTxWrite who p v => some (who, .HIDE_TXD, p.val, v, true)
  | .vtRxWrite who p v => some (who, .HIDE_RXD, p.val, v, true)
  | .tallyClear who v => some (who, .HIDE_SPCFG, 0, v, bit v.toNat 0)
  | _ => none

/-- The register read that a command is. -/
def readCommand : Instr → Option (Acc × Reg × Nat)
  | .ecapRead who n => some (who, .SUN_ECAP_T, (4 * n.val))
  | .trapPop who => some (who, .BSN_TRAP0, 0)
  | .noticePop who => some (who, .FWD_NOTE0, 0)
  | .timerCountRead who u => some (who, .TMR_CNT, u.val)
  | .timerCaptureRead who u => some (who, .TMR_CAP, u.val)
  | .reedFifoRead who k => some (who, .REED_FIFO, k.val)
  | .vtTxRead who p => some (who, .HIDE_TXD, p.val)
  | .vtRxRead who p => some (who, .HIDE_RXD, p.val)
  | _ => none

/-- The plain registers: a write stores their RW fields and does nothing else. -/
def plainReg (r : Reg) : Bool :=
  r.flds.all (fun f => f.acc == .rw) && [Reg.TIK_PERIOD_LO, .TIK_SLACK, .TIK_FRAME, .TIK_MATRIX, .SUN_OWN, .LNK_OWN, .LNK_MAXLEN,
    .THR_SEL, .THR_CIDX, .THR_IVEC, .THR_EMVEC, .THR_SWVEC, .JX_HWBASE0, .CWY_PSEL, .CWY_CHSEL, .TMR_PRE, .TMR_OWN, .HRG_RSEL,
    .HRG_DBBASE0].contains r

/-- Every field of copy j of register r is that of v. -/
def fieldsAre (e : Eng) (r : Reg) (j : Nat) (v : Word) : Prop := ∀ f ∈ r.flds, bits (e.val r j) f.hi f.lo = bits v.toNat f.hi f.lo

end Sys2Proof.Claims

/-- R6, R7: a register action whose word is legal and starts it performs the write of its word, answers DONE and changes no memory; one whose
word does not start it does nothing. -/
def Obligations.RegisterActionsWriteTheirWord : Prop :=
  ∀ (c : Instr) (who : Acc) (r : Reg) (i : Nat) (v : Word) (st : Bool) (s : State), actionOf c = some (who, r, i, v, st) →
    (st = true → legal s who r i v → (s.block.writeWord who r i v.toNat).1 = 0 →
      exec c s = .next (done s who (s.block.writeWord who r i v.toNat).2)) ∧
    (st = false → who ≠ .thread 0 → exec c s = .next s)

/-- R7, R403, R434, R543: an action of the host whose word is not legal changes nothing but what records it: the answer FAULT with RDATA 0,
JX_SETUP_ERR with the code of the first defect, and JX_SETUP_EADDR.

R7, R255, R256: an action of a running thread whose word is not legal faults the thread with BUS at the instruction that makes it. -/
def Obligations.IllegalActionsAreRecordedOrFault : Prop :=
  (∀ (c : Instr) (r : Reg) (i : Nat) (v : Word) (s : State), actionOf c = some (.host, r, i, v, true) →
     Acc.host.find (r.addr i) = some (r, i) → s.block.eng.writeCode .host r i v.toNat ≠ 0 →
       let code := s.block.eng.writeCode .host r i v.toNat
       exec c s = .next (withEng s ((((s.block.eng.answer .host 1 0).post F.JX_SETUP_ERR_VALID 0).setFld F.JX_SETUP_ERR_CODE 0 code).setReg
         .JX_SETUP_EADDR 0 (word (r.addr i))))) ∧
  (∀ (c : Instr) (t : Tid) (r : Reg) (i : Nat) (v : Word) (s : State), actionOf c = some (.thread t, r, i, v, true) → t ≠ 0 →
     Reg.ofAddr (r.addr i) = some (r, i) → s.block.eng.writeCode (.thread t) r i v.toNat ≠ 0 → (s.block.eng.getThr t.val).st = .run →
       ∃ e, exec c s = .next (withEng s e) ∧ faultRecorded e t.val 2 (s.block.eng.getThr t.val).pc (r.addr i))

/-- R6, R7, R11: a legal read answers DONE with the register's value, and the state its side effect leaves; no memory changes.

R6, R7, R401: a legal write of a plain register by an accessor stores its word; a request of 4 bytes at the target port does the same. -/
def Obligations.RegisterReadsAndWritesReachTheirRegister : Prop :=
  (∀ (c : Instr) (who : Acc) (r : Reg) (i : Nat) (s : State), readCommand c = some (who, r, i) → mayRead s.block.eng who r i = true →
     exec c s = .next (withEng s ((s.block.eng.readWord who r i).2.answer who 0 (s.block.eng.readWord who r i).1))) ∧
  (∀ (who : Acc) (r : Reg) (i : Nat) (v : Word) (s : State), plainReg r = true → r.addr i < 2 ^ 20 → legal s who r i v →
     (∃ e, exec (.registerWrite (.reg who (word (r.addr i)) v)) s = .next (done s who e) ∧ fieldsAre e r (s.block.eng.place who r i) v) ∧
     (∀ (q : HostReq), who = .host → q.len = 0 → q.addr = BitVec.ofNat 22 (r.addr i / 2 * 8) →
       (if r.addr i % 2 = 0 then q.be = 0x0F ∧ q.data = v.setWidth 64 else q.be = 0xF0 ∧ q.data = v.setWidth 64 <<< 32) →
       ∃ e, exec (.registerWrite (.target q)) s = .next (done s .host e) ∧ fieldsAre e r (s.block.eng.place .host r i) v))

/-! ### Control of threads, slot tables -/

namespace Sys2Proof.Claims

open Sys2Proof.Machine Sys2Proof.Safety

/-- The thread that an accessor's THR_SEL names (R249). -/
def selThr (s : State) (who : Acc) : Nat := s.block.eng.fld F.THR_SEL_TID who.key

/-- The fault record of thread t reads 0 (R256, R265). -/
def noRecord (e : Eng) (t : Nat) : Prop := e.reg .THR_FCAUSE t = 0 ∧ e.reg .THR_FPC t = 0 ∧ e.reg .THR_FADDR t = 0

/-- No other event of this cycle reached thread t, and no engine reset came in it (R246, R481). -/
def alone (e : Eng) (t : Nat) : Prop := (e.getThr t).mark.1 ≠ e.clk.cycle + 1 ∧ e.sys.resetAt ≠ e.clk.cycle + 1

/-- The state of a thread, PREV of a HALTED one (R508). -/
def stateOf (x : Thr) : TState := if x.st = .halted then x.prev else x.st

/-- A due boundary of the ticks: none is decided for this cycle (R27). -/
def noBoundary (e : Eng) : Prop := ∀ d, e.tick.dec = some d → d.boundary ≠ e.clk.cycle

/-- Register number k of a context holds v: G0 to G15, PC, FLAGS, IPC, IFLAGS (R249, R250); FLAGS and IFLAGS keep [19:5] = 0. -/
def ctxHolds (x : Thr) (k : Nat) (v : Word) : Prop :=
  if k < 16 then greg x k = v else if k = 16 then x.pc = v else if k = 17 then x.flags = v &&& 0x1F else if k = 18 then x.ipc = v
  else x.iflags = v &&& 0x1F

end Sys2Proof.Claims

/-- R245 to R247, R256, R309, R508: THR_CTL.HOLD takes a running or waiting thread with nothing in flight to HELD, its wait given up with no effect, takes
a FAULTED one to HELD with its fault record cleared, and lets an instruction in flight or an open locked sequence finish first; RELEASE takes a HELD
or FAULTED thread to RUN with its fault record cleared. A HALTED thread changes its PREV in the same way.

R248, R349, R193, R245: THR_CTL.RESET leaves the thread HELD with every register 0, without a fault record, waiter of no lock, its Basin cells left to
the Warden; no other thread's registers change.

R249, R250: a legal write of THR_CDATA puts the word into the register that the accessor's THR_CIDX names, of the thread of its THR_SEL; no other
thread changes. -/
def Obligations.ThreadControlMovesThreads : Prop :=
  (∀ (who : Acc) (v : Word) (s : State), legal s who .THR_CTL 0 v → v.getLsbD 2 = false →
     let t := selThr s who
     let e := s.block.eng
     let x := e.getThr t
     alone e t →
     (v.getLsbD 1 = true → stateOf x = .run ∨ stateOf x = .wait → x.mem = none → (∀ r a g, x.wait ≠ .lock r a (some g)) → x.seq = none →
       exec (.threadHold who v) s = .next (done s who ({ e with waiters := e.waiters.filter (fun p => p.1 != t) }.setThr t
         { putState x .held with wait := .none, atDone := false, atHit := none, atSlept := false, mark := (e.clk.cycle + 1, 2),
                                 held := some (stateOf x, x.wait, e.waiters.findIdx (fun (p : Nat × Nat) => p.1 == t)) }))) ∧
     (v.getLsbD 1 = true → stateOf x = .run ∨ stateOf x = .wait →
       x.mem.isSome = true ∨ (∃ r a g, x.wait = .lock r a (some g)) ∨ x.seq.isSome = true →
       exec (.threadHold who v) s = .next (done s who (e.setThr t { x with holdReq := true, mark := (e.clk.cycle + 1, 2), held := none }))) ∧
     (v.getLsbD 1 = true → stateOf x = .faulted →
       ∃ e', exec (.threadHold who v) s = .next (done s who e') ∧
         e'.getThr t = { putState x .held with mark := (e.clk.cycle + 1, 2), held := none } ∧ noRecord e' t) ∧
     (v.getLsbD 0 = true → v.getLsbD 1 = false → stateOf x = .held →
       exec (.threadRelease who v) s = .next (done s who (e.setThr t
         { putState x .run with relCyc := e.clk.cycle + 1, mark := (e.clk.cycle + 1, 1), ready := e.clk.cycle + 2 }))) ∧
     (v.getLsbD 0 = true → v.getLsbD 1 = false → stateOf x = .faulted →
       ∃ e', exec (.threadRelease who v) s = .next (done s who e') ∧
         e'.getThr t = { putState x .run with relCyc := e.clk.cycle + 1, mark := (e.clk.cycle + 1, 1), ready := e.clk.cycle + 2 } ∧ noRecord e' t)) ∧
  (∀ (who : Acc) (v : Word) (s : State), legal s who .THR_CTL 0 v → v.getLsbD 2 = true → s.block.eng.sys.resetAt ≠ s.block.eng.clk.cycle + 1 →
     let t := selThr s who
     let x := s.block.eng.getThr t
     ∃ e, exec (.threadReset who v) s = .next (done s who e) ∧
       e.getThr t = { wtkCyc := x.wtkCyc, issued := x.issued, mark := (s.block.eng.clk.cycle + 1, 5) } ∧ noRecord e t ∧
       (∀ p ∈ e.waiters, p.1 ≠ t) ∧ (∀ c, (Tab.get {} e.cells c).owner = .thread t → (Tab.get {} e.cells c).orphan = true) ∧
       (∀ u, u ≠ t → (e.getThr u).g = (s.block.eng.getThr u).g ∧ (e.getThr u).pc = (s.block.eng.getThr u).pc ∧
         (e.getThr u).flags = (s.block.eng.getThr u).flags ∧ (e.getThr u).st = (s.block.eng.getThr u).st)) ∧
  (∀ (who : Acc) (v : Word) (s : State), legal s who .THR_CDATA 0 v →
     let t := selThr s who
     ∃ e, exec (.contextWrite who v) s = .next (done s who e) ∧ ctxHolds (e.getThr t) (s.block.eng.fld F.THR_CIDX_IDX who.key) v ∧
       (e.getThr t).st = (s.block.eng.getThr t).st ∧ ∀ u, u ≠ t → e.getThr u = s.block.eng.getThr u)

/-- R261, R262: when the dwell of still water is over, the Keeper wakes at THR_SWVEC with its PC in THR_SWPC, and PEND is set; THR_SWCTL.ACK clears
PEND. With THR_SWVEC 0 the Keeper stays as it is. -/
def Obligations.StillWaterWakesKeeper : Prop :=
  (∀ (s : State), s.block.eng.awake = true → s.block.eng.stillDue = true →
    ∃ e, exec .stillWaterWake s = .next (withEng s e) ∧ e.flag F.THR_SWSTAT_PEND 0 = true ∧
      (s.block.eng.reg .THR_SWVEC 0 ≠ 0 → e.reg .THR_SWPC 0 = (s.block.eng.getThr 1).pc ∧ (e.getThr 1).st = .run ∧
        (e.getThr 1).pc = s.block.eng.reg .THR_SWVEC 0 ∧ (e.getThr 1).wait = .none) ∧
      (s.block.eng.reg .THR_SWVEC 0 = 0 → e.getThr 1 = s.block.eng.getThr 1)) ∧
  (∀ (who : Acc) (v : Word) (s : State), legal s who .THR_SWCTL 0 v → v.getLsbD 9 = true →
    ∃ e, exec (.stillWaterAck who v) s = .next (done s who e) ∧ e.flag F.THR_SWSTAT_PEND 0 = false)

/-- R239 to R241: BRLp_SENT writes the staged entry at ADDR and advances ADDR modulo 128; COPY stages the table in force; APPLY puts the staged table
under checks for 140 cycles with BUSY, against the settings in force at the apply: one that fails them is answered FAULT, and no table in force, pending or
staged changes; at the end of the checks a table that passed is pending, of one that failed the failure is recorded; CANCEL discards a pending table, but
in a cycle in which it is due, where it comes into force; one that is due comes into force. -/
def Obligations.SlotTableLifeCycle : Prop :=
  ∀ (p : Pav) (s : State),
    let e := s.block.eng
    let x := e.getBrl p.val
    (∀ who v, legal s who .BRL_SENT p.val v →
      ∃ e', exec (.slotEntryWrite who p v) s = .next (done s who e') ∧ (e'.getBrl p.val).force = x.force ∧
        e'.fld F.BRL_SSEL_ADDR p.val = (e.fld F.BRL_SSEL_ADDR p.val + 1) % 128 ∧
        (∀ a, Tab.get 0 (e'.getBrl p.val).staged a = if a = e.fld F.BRL_SSEL_ADDR p.val then v.toNat else Tab.get 0 x.staged a)) ∧
    (∀ who v, legal s who .BRL_CTL p.val v → v.getLsbD 0 = true → v.getLsbD 1 = false → v.getLsbD 3 = false →
      ∃ e', exec (.slotTableCopy who p v) s = .next (done s who e') ∧ e'.getBrl p.val = { x with staged := x.force }) ∧
    (∀ who v, legal s who .BRL_CTL p.val v → v.getLsbD 0 = false → v.getLsbD 1 = true → v.getLsbD 3 = false →
      (e.applyFail p.val x.staged = none →
        ∃ e', exec (.slotTableApply who p v) s = .next (done s who e') ∧ e'.flag F.BRL_STAT_BUSY p.val = true ∧
          e'.getBrl p.val = { x with check := some ⟨x.staged, v.getLsbD 2, e.clk.cycle + 140, none⟩ }) ∧
      (∀ f, e.applyFail p.val x.staged = some f → who = .host →
        ∃ e', exec (.slotTableApply who p v) s = .next (withEng s e') ∧ e'.flag F.BRL_STAT_BUSY p.val = true ∧ e'.sys.ans = (Acc.host.key, 1, 0) ∧
          e'.getBrl p.val = { x with check := some ⟨x.staged, v.getLsbD 2, e.clk.cycle + 140, some f⟩ })) ∧
    (∀ tab w c, e.awake = true → x.check = some ⟨tab, w, c, none⟩ → c ≤ e.clk.cycle →
      ∃ e', exec (.slotChecksEnd p) s = .next (withEng s e') ∧ e'.flag F.BRL_STAT_BUSY p.val = false ∧
        e'.flag F.BRL_STAT_PENDING p.val = true ∧ e'.getBrl p.val = { x with check := none, pend := some (tab, w), pendAt := e.clk.cycle }) ∧
    (∀ tab w c k t ne a, e.awake = true → x.check = some ⟨tab, w, c, some (k, t, ne, a)⟩ → c ≤ e.clk.cycle →
      ∃ e', exec (.slotChecksEnd p) s = .next (withEng s e') ∧ e'.flag F.BRL_STAT_BUSY p.val = false ∧ e'.flag F.BRL_STAT_APPLY_ERR p.val = true ∧
        e'.fld F.BRL_STAT_ERR p.val = k % 4 ∧ e'.fld F.BRL_ERR_TID p.val = t % 64 ∧ e'.getBrl p.val = { x with check := none }) ∧
    (∀ who v, legal s who .BRL_CTL p.val v → v.getLsbD 0 = false → v.getLsbD 1 = false → v.getLsbD 3 = true → noBoundary e →
      (x.pend = none ∨ e.running = true ∨ e.atRound = false ∨ e.clk.cycle ≤ x.pendAt ∨ e.clk.cycle ≤ e.tick.stopAt →
        ∃ e', exec (.slotTableCancel who p v) s = .next (done s who e') ∧ e'.flag F.BRL_STAT_PENDING p.val = false ∧
          e'.getBrl p.val = { x with pend := none }) ∧
      (∀ tab w, x.pend = some (tab, w) → e.running = false → e.atRound = true → x.pendAt < e.clk.cycle → e.tick.stopAt < e.clk.cycle →
        ∃ e', exec (.slotTableCancel who p v) s = .next (done s who e') ∧ e'.getBrl p.val = { x with force := tab, pend := none })) ∧
    (∀ tab w, e.awake = true → e.running = false → e.atRound = true → x.pend = some (tab, w) → x.pendAt < e.clk.cycle →
      e.tick.stopAt < e.clk.cycle →
      ∃ e', exec (.slotTableTakeEffect p) s = .next (withEng s e') ∧ e'.flag F.BRL_STAT_PENDING p.val = false ∧
        e'.getBrl p.val = { x with force := tab, pend := none })

/-! ### Ticks, Sundial, latched reads, the Causeway, timers -/

namespace Sys2Proof.Claims

open Sys2Proof.Machine Sys2Proof.Safety

/-- The answer of the last access of `who` is DONE with value v (R399). -/
def answered (e : Eng) (who : Acc) (v : Nat) : Prop := e.sys.ans = (who.key, 0, v)

/-- Bits [20w+19:20w] of a value (R51). -/
def wordAt (v w : Nat) : Word := word (v / 2 ^ (20 * w))

/-- The staged step or load value in Sundial's units of 2^-40 ns (R53, R61). -/
def sunStaged (e : Eng) : BitVec 100 := BitVec.ofNat 100 (e.sunAdj * 2 ^ 20)

/-- The 80-bit T80 that a read of Sundial sees: bits [99:20] of the accumulator after the operation applied in this cycle, the owner thread's where it
is the only one (R51, R53, R59, R63). -/
def t80Seen (e : Eng) : Nat :=
  (if e.clk.applied = 0 ∧ e.clk.owner = 1 then e.clk.sun + sunStaged e
    else if e.clk.applied = 0 ∧ e.clk.owner = 2 then sunStaged e
    else e.clk.seen).toNat / 2 ^ 20

/-- The operation of a write of SUN_CTL by `who` is applied in its cycle: only the owner thread's waits for what the Keeper writes (R63). -/
def appliesAtOnce (who : Acc) : Bool := !who.anyThr || who.keeper

/-- A decision for the boundary of this cycle stands (R27, R46). -/
def decided (e : Eng) (d : Decision) : Prop := e.tick.dec = some d ∧ d.boundary = e.clk.cycle

/-- The launch time of index k in ns: E + k · P · 64 (R26). -/
def launchNs (set : TickSet) (k : Nat) : Nat := set.e + k * set.p * 64

/-- The smallest index whose launch time is at or after the T80 t (R46), which 47 bits hold (R26). -/
def firstFrom (set : TickSet) (t j : Nat) : Prop :=
  j < 2 ^ 47 ∧ t ≤ launchNs set j * 2 ^ 20 ∧ ∀ i, i < j → launchNs set i * 2 ^ 20 < t

/-- No action reached timer unit u in this cycle (R386). -/
def tmrQuiet (e : Eng) (u : Nat) : Prop := (e.getTmr u).act.1 ≠ e.clk.cycle + 1

/-- Event input i of thread t subscribes channel ch (R368). -/
def subscribes (e : Eng) (t i ch : Nat) : Prop := e.flag F.THR_EVCFG_EN (8 * t + i) = true ∧ e.fld F.THR_EVCFG_CH (8 * t + i) = ch

end Sys2Proof.Claims

/-- R42 to R44, R46: APPLY of legal settings whose budgets are met makes them pending, and while RUN is 0 they come into force in the next cycle; CANCEL
discards pending settings that are not due; setting RUN arms the sequencer with Sundial's time, clearing it disarms an armed one and stops launches from
the next decision on. -/
def Obligations.TickControlArmsAndApplies : Prop :=
  ∀ (who : Acc) (v : Word) (s : State), legal s who .TIK_CTL 0 v →
    let e := s.block.eng
    let set := e.stagedTicks
    (v.getLsbD 1 = true → v.getLsbD 3 = false → v.getLsbD 0 = e.flag F.TIK_CTL_RUN 0 → 128 ≤ set.p → set.p ≤ 1562500 → set.s ≤ set.p / 16 →
      e.budgetsMet set = true →
      ∃ e', exec (.tickApply who v) s = .next (done s who e') ∧ e'.flag F.TIK_STAT_PENDING 0 = true ∧
        e'.tick = { e.tick with pend := some (set, v.getLsbD 2), takeNext := !v.getLsbD 0 }) ∧
    (v.getLsbD 3 = true → v.getLsbD 1 = false → v.getLsbD 0 = e.flag F.TIK_CTL_RUN 0 → noBoundary e → e.tick.pend ≠ none →
      ∃ e', exec (.tickCancel who v) s = .next (done s who e') ∧ e'.flag F.TIK_STAT_PENDING 0 = false ∧
        e'.tick = { e.tick with pend := none, takeNext := false }) ∧
    (v.getLsbD 0 = true → v.getLsbD 1 = false → v.getLsbD 3 = false → e.flag F.TIK_CTL_RUN 0 = false →
      ∃ e', exec (.tickRunSet who v) s = .next (done s who e') ∧ e'.flag F.TIK_CTL_RUN 0 = true ∧
        e'.tick = { e.tick with armed := some (e.clk.sun.toNat / 2 ^ 20) }) ∧
    (v.getLsbD 0 = false → v.getLsbD 1 = false → v.getLsbD 3 = false → e.flag F.TIK_CTL_RUN 0 = true →
      (e.running = true →
        ∃ e', exec (.tickRunClear who v) s = .next (done s who e') ∧ e'.flag F.TIK_CTL_RUN 0 = false ∧
          e'.tick = { e.tick with armed := none, stopping := true }) ∧
      (e.running = false → e.tick.pend = none →
        ∃ e', exec (.tickRunClear who v) s = .next (done s who e') ∧ e'.flag F.TIK_CTL_RUN 0 = false ∧ e'.tick = { e.tick with armed := none }))

/-- R26, R27, R29, R33, R46, R410: at a round boundary, an armed sequencer with S = 0 launches the smallest index from the setting of RUN on once its launch
time is reached; ticks that run with S = 0 launch the next index P rounds after the last launch, and with S of 1 or more the last index whose launch time
lies no later than 16 ns after the decision, from round P − S on. Tick index, launch cycle and Sundial time are recorded, TIK_COUNT counts modulo 2^40, a
doorbell pass is requested.

R42, R46, R372, R410: at the first boundary whose decision found RUN 0, launches stop: RUNNING clears, pending settings come into force and the flood
and poll periods restart. -/
def Obligations.TicksLaunchAndStop : Prop :=
  (∀ (s : State) (d : Decision) (j : Nat),
     let e := s.block.eng
     let set := e.tick.set
     e.awake = true → decided e d → 128 ≤ set.p → e.tick.pend = none →
     ((e.running = false ∧ set.s = 0 ∧ (∃ t, e.tick.armed = some t ∧ firstFrom set t j) ∧ launchNs set j ≤ e.clk.sun.toNat / 2 ^ 40) ∨
       (e.running = true ∧ d.run = true ∧ d.set = set ∧ set.s = 0 ∧ set.p * 32 ≤ e.clk.cycle - e.tick.base ∧ j = (e.tick.k + 1) % 2 ^ 47) ∨
       (e.running = true ∧ d.run = true ∧ d.set = set ∧ 1 ≤ set.s ∧ (set.p - set.s) * 32 ≤ e.clk.cycle - e.tick.base ∧ e.tick.k < j ∧ j < 2 ^ 47 ∧
         launchNs set j ≤ d.now + 16 ∧ d.now + 16 < launchNs set (j + 1))) →
       ∃ e', exec .tickLaunch s = .next (withEng s e') ∧ e'.tick.k = j ∧ e'.tick.armed = none ∧ e'.tick.base = e.clk.cycle ∧
         e'.tick.count = (e.tick.count + 1) % 2 ^ 40 ∧ e'.tick.launch = BitVec.ofNat 80 (e.clk.sun.toNat / 2 ^ 20) ∧ e'.sys.passReq = true ∧ e'.tick.dec = none) ∧
  (∀ (s : State) (d : Decision),
     let e := s.block.eng
     e.awake = true → decided e d → d.run = false → e.running = true →
       ∃ e', exec .tickRunningClear s = .next (withEng s e') ∧ e'.running = false ∧ e'.tick.floodBase = e.clk.cycle ∧ e'.tick.pollBase = e.clk.cycle ∧
         e'.tick.dec = none ∧ e'.tick.pend = none ∧ (∀ set w, e.tick.pend = some (set, w) → e'.tick.set = set))

/-- R53, R55, R61, R63, R64: STEP adds the staged signed amount to Sundial and LOAD sets it, as a read of the same cycle sees it; RATE puts the staged legal
trim in force from the next cycle, and sets its bit of SUN_STAT. The owner thread's operation is taken as its cycle ends, after the Keeper's; one that finds
an operation applied in its cycle waits for the next. -/
def Obligations.SundialOperationsApply : Prop :=
  ∀ (who : Acc) (v : Word) (s : State), legal s who .SUN_CTL 0 v →
    let e := s.block.eng
    (appliesAtOnce who = true → e.clk.applied = 0 →
      (v = 1 → ∃ e', exec (.sundialStep who v) s = .next (done s who e') ∧
        e'.clk.seen = e.clk.sun + sunStaged e ∧ e'.clk.loaded = e.clk.loaded ∧ e'.flag F.SUN_STAT_STEPPED 0 = true) ∧
      (v = 2 → ∃ e', exec (.sundialLoad who v) s = .next (done s who e') ∧ e'.clk.seen = sunStaged e ∧ e'.clk.loaded = true ∧
        e'.flag F.SUN_STAT_STEPPED 0 = true) ∧
      (v = 3 → ∃ e', exec (.sundialRate who v) s = .next (done s who e') ∧
        e'.clk.rateNext = e.stagedRate ∧ e'.clk.rate = e.clk.rate ∧ e'.clk.sun = e.clk.sun ∧ e'.flag F.SUN_STAT_RATE_SET 0 = true)) ∧
    (appliesAtOnce who = true → e.clk.applied ≠ 0 → ∀ c, (c = Instr.sundialStep who v ∧ v = 1) ∨ (c = .sundialLoad who v ∧ v = 2) ∨
      (c = .sundialRate who v ∧ v = 3) → exec c s = .next (done s who { e with clk := { e.clk with owed := e.clk.owed ++ [v.toNat] } })) ∧
    (appliesAtOnce who = false → e.clk.owner = 0 → ∀ c, (c = Instr.sundialStep who v ∧ v = 1) ∨ (c = .sundialLoad who v ∧ v = 2) ∨
      (c = .sundialRate who v ∧ v = 3) → exec c s = .next (done s who { e with clk := { e.clk with owner := v.toNat } }))

/-- R11, R57: a read of word 0 of Sundial's T80 answers its low 20 bits and latches the others for its reader; a later read of word w by the same reader, with its latch
as left, answers word w of the T80 of the first read. The latches of other readers stay.

R9, R11, R68, R98: reads that latch and clear: TIK_COUNT0 answers the low word of the 40-bit count and latches the high one; the counter window of a link answers its
counter, a 40-bit one latched, a 20-bit one cleared; one that counted in the cycle of the read is read as it stood before and keeps the count of the cycle; the
read of SUN_ECAPn_T0 clears FRESH, but in the cycle of a capture.

R6, R9, R10: a read of an RC register answers its value and clears it, unless the Hide reads it; a count of the cycle of the read is not in the value and
stays. -/
def Obligations.LatchedAndClearingReads : Prop :=
  (∀ (who : Acc) (s : State), mayRead s.block.eng who .SUN_TIME 0 = true →
     ∃ e, exec (.t80Read who (word (Reg.addr .SUN_TIME 0))) s = .next (withEng s e) ∧ answered e who (wordAt (t80Seen s.block.eng) 0).toNat ∧
       (∀ k, k ≠ who.key → e.getLatch k = s.block.eng.getLatch k) ∧
       (∀ (s' : State) (w : Nat), w = 1 ∨ w = 2 ∨ w = 3 → (s'.block.eng.getLatch who.key).t80 = (e.getLatch who.key).t80 →
         mayRead s'.block.eng who .SUN_TIME w = true →
         ∃ e', exec (.readClear (.reg who (word (Reg.addr .SUN_TIME w)))) s' = .next (withEng s' e') ∧
           answered e' who (wordAt (t80Seen s.block.eng) w).toNat)) ∧
  (∀ (who : Acc) (s : State),
     let e := s.block.eng
     (mayRead e who .TIK_COUNT0 0 = true →
       ∃ e', exec (.countLatchRead who (word (Reg.addr .TIK_COUNT0 0))) s = .next (withEng s e') ∧ answered e' who (e.tick.count % 2 ^ 20) ∧
         (e'.getLatch who.key).count = word (e.tick.count / 2 ^ 20)) ∧
     (∀ n : LinkId, mayRead e who .LNK_CNT0 n.val = true →
       let k := e.fld F.LNK_CSEL_SEL n.val
       let x := e.ctr 0 n.val k
       (Tab.find e.recent.ctrs (ctrKey 0 n.val k) = none →
         ∃ e', exec (.counterWindowRead who (word (Reg.addr .LNK_CNT0 n.val))) s = .next (withEng s e') ∧ answered e' who (x % 2 ^ 20) ∧
           (k < 4 → (e'.getLatch who.key).count = word (x / 2 ^ 20) ∧ e'.ctr 0 n.val k = x) ∧
           (4 ≤ k → who ≠ .hide → e'.ctr 0 n.val k = 0)) ∧
       (∀ o m, 4 ≤ k → Tab.find e.recent.ctrs (ctrKey 0 n.val k) = some (o, m) → who ≠ .hide →
         ∃ e', exec (.counterWindowRead who (word (Reg.addr .LNK_CNT0 n.val))) s = .next (withEng s e') ∧ answered e' who (o % 2 ^ 20) ∧
           e'.ctr 0 n.val k = min m 0xFFFFF)) ∧
     (∀ n : Fin 4, mayRead e who .SUN_ECAP_T (4 * n.val) = true → who ≠ .hide → Tab.has e.recent.ecap n.val = false →
       ∃ e', exec (.ecapRead who n) s = .next (withEng s e') ∧ answered e' who (e.val .SUN_ECAP_T (4 * n.val)) ∧ e'.flag F.SUN_ECAP_CFG_FRESH n.val = false)) ∧
  (∀ (who : Acc) (r : Reg) (i : Nat) (s : State), r.addr i < 2 ^ 20 → mayRead s.block.eng who r i = true →
     ([Reg.TIK_EVCNT, .TIK_OVR_CNT, .SUN_LATECNT, .BRL_SPCNT, .THR_FCNT, .JX_HWCNT, .JX_ECCCNT, .LCK_CNT, .CND_CNT, .CWY_SATCNT,
         .CWY_DROPCNT].contains r = true → (∀ f ∈ r.flds, Tab.find s.block.eng.recent.rc (r.key i * 32 + f.lo) = none) →
       ∃ e, exec (.readClear (.reg who (word (r.addr i)))) s = .next (withEng s e) ∧ answered e who (s.block.eng.val r i) ∧
         e.val r i = (if who = .hide then s.block.eng.val r i else 0)) ∧
     (∀ o n, [Reg.TIK_OVR_CNT, .BRL_SPCNT, .THR_FCNT, .JX_HWCNT, .CWY_SATCNT, .CWY_DROPCNT].contains r = true → who ≠ .hide → o < 2 ^ 20 →
       Tab.find s.block.eng.recent.rc (r.key i * 32) = some (o, n) →
       ∃ e, exec (.readClear (.reg who (word (r.addr i)))) s = .next (withEng s e) ∧ answered e who o ∧ e.val r i = min n 0xFFFFF))

/-- R9, R362, R363, R372, R373: a firing of an unmuted channel below its flood limit goes on its way once per domain and cycle, with Sundial's time, and is
counted; a write of ones to CWY_MUTEw unmutes these channels and no other, but for those muted in its cycle; every 131,072 cycles without ticks the flood
counts restart, with the firings of the cycle.

R364, R369, R371: three cycles after a firing every thread event input that subscribed its channel as the cycle began counts it, saturating at 15, and the
firing is delivered; inputs that do not subscribe the channel keep their counts. -/
def Obligations.CausewayFiresMutesAndDelivers : Prop :=
  ((∀ (who : Acc) (v : Word) (s : State), legal s who .CWY_FIRE 0 v →
     let e := s.block.eng
     let dom := if who.anyThr then pavOf who.tid else 3
     e.muted v.toNat = false → Tab.get 0 e.cwy.last (4 * v.toNat + dom) ≠ e.clk.cycle + 1 → Tab.get 0 e.cwy.unmuted v.toNat ≠ e.clk.cycle + 1 →
     Tab.get 0 e.cwy.count v.toNat + 1 ≤ e.fld F.CWY_FLOOD_LIMIT 0 →
       ∃ e', exec (.softwareFire who v) s = .next (done s who e') ∧
         e'.cwy.inflight = e.cwy.inflight ++ [⟨v.toNat, dom, e.clk.cycle, BitVec.ofNat 80 (e.clk.sun.toNat / 2 ^ 20), false⟩] ∧
         Tab.get 0 e'.cwy.count v.toNat = Tab.get 0 e.cwy.count v.toNat + 1) ∧
   (∀ (who : Acc) (w : Fin 7) (v : Word) (s : State), legal s who .CWY_MUTE w.val v →
     let old := s.block.eng.reg .CWY_MUTE w.val
     let new := word (Tab.get 0 s.block.eng.recent.bits (Reg.key .CWY_MUTE w.val))
     ∃ e', exec (.unmute who w v) s = .next (done s who e') ∧ e'.reg .CWY_MUTE w.val = old &&& ~~~(v &&& ~~~new) ∧
       ∀ i, i < 20 → v.getLsbD i = true → old.getLsbD i = true → new.getLsbD i = false → Tab.get 0 e'.cwy.count (20 * w.val + i) = 0) ∧
   (∀ (s : State), s.block.eng.awake = true → s.block.eng.running = false → s.block.eng.tick.floodBase + 131072 ≤ s.block.eng.clk.cycle →
     ∃ e', exec .floodCountReset s = .next (withEng s e') ∧ e'.cwy.count = s.block.eng.recent.fired ∧
       e'.tick.floodBase = s.block.eng.tick.floodBase + 131072)) ∧
  (∀ (ch : Chan) (s : State) (f : Firing),
     let e := s.block.eng
     e.awake = true → e.cwy.inflight = [f] → f.ch = ch.val → f.near = false → f.cyc + 3 ≤ e.clk.cycle → e.recent.was = [] →
       ∃ e', exec (.channelDelivery ch) s = .next (withEng s e') ∧ e'.cwy.inflight = [] ∧
         ∀ t i, 1 ≤ t → t ≤ 63 → i < 8 →
           (subscribes e t i ch.val → Tab.get 0 (e'.getThr t).ev i = min (Tab.get 0 (e.getThr t).ev i + 1) 15) ∧
           (¬subscribes e t i ch.val → Tab.get 0 (e'.getThr t).ev i = Tab.get 0 (e.getThr t).ev i))

/-- R378 to R393: the register actions of a timer unit: START loads TMR_OFS and runs, in a lead timer also the units with LINKSTART, STOP stops, CONT runs on, a
write of TMR_CNT sets the count; a START of the cycle goes before them. CAP takes a capture as the cycle ends, TMR_GSTART.GO asks for a global start of
the next cycle; reads answer the count and the oldest capture, which the read takes.

R378, R386, R387, R389, R392: an increment and a capture of a unit are noted for the end of their cycle. There an increment that is due adds 1 to a running
unit, or takes it from TMR_TOP or 0xF_FFFF to 0 with OF set, and a count equal to TMR_CMP sets MF; a capture appends the count to the captures, of which
two are kept, the newest in the place of the last. -/
def Obligations.TimerUnitsCountCaptureAndOverflow : Prop :=
  (∀ (who : Acc) (u : TmrId) (v : Word) (s : State),
     let e := s.block.eng
     let x := e.getTmr u.val
     (legal s who .TMR_CTL u.val v → v = 1 →
       ∃ e', exec (.timerStart who u v) s = .next (done s who e') ∧ ∀ w,
         (w = u.val ∨ (u.val % 8 = 0 ∧ w / 8 = u.val / 8 ∧ e.flag F.TMR_CFG_LINKSTART w = true) →
           (e'.getTmr w).cnt = e.reg .TMR_OFS w ∧ (e'.getTmr w).run = true ∧ (e'.getTmr w).caps = (e.getTmr w).caps) ∧
         (w ≠ u.val → ¬(u.val % 8 = 0 ∧ w / 8 = u.val / 8 ∧ e.flag F.TMR_CFG_LINKSTART w = true) → e'.getTmr w = e.getTmr w)) ∧
     (legal s who .TMR_CTL u.val v → v = 2 → tmrQuiet e u.val →
       exec (.timerStop who u v) s = .next (done s who (e.setTmr u.val { x with run := false, act := (e.clk.cycle + 1, 3) }))) ∧
     (legal s who .TMR_CTL u.val v → v = 4 → x.run = false → tmrQuiet e u.val →
       exec (.timerCont who u v) s = .next (done s who (e.setTmr u.val { x with run := true, phase := e.clk.runCyc, act := (e.clk.cycle + 1, 4) }))) ∧
     (legal s who .TMR_CTL u.val v → v = 4 → x.run = true → exec (.timerCont who u v) s = .next (done s who e)) ∧
     (x.act = (e.clk.cycle + 1, 2) →
       (legal s who .TMR_CTL u.val v → v = 2 → exec (.timerStop who u v) s = .next (done s who e)) ∧
       (legal s who .TMR_CNT u.val v → exec (.timerCountWrite who u v) s = .next (done s who e))) ∧
     (legal s who .TMR_CTL u.val v → v = 8 → e.awake = true → e.underWide u.val = false →
       exec (.timerCaptureNow who u v) s = .next (done s who (e.setTmr u.val { x with capAt := e.clk.cycle + 1 }))) ∧
     (legal s who .TMR_CNT u.val v → tmrQuiet e u.val →
       exec (.timerCountWrite who u v) s = .next (done s who (e.setTmr u.val { x with cnt := v, setAt := e.clk.cycle + 1 }))) ∧
     (legal s who .TMR_GSTART 0 v → v.getLsbD 8 = true →
       ∃ e', exec (.globalStart who v) s = .next (done s who e') ∧ e'.sys.gstart = e.clk.cycle + 1) ∧
     (mayRead e who .TMR_CNT u.val = true →
       ∃ e', exec (.timerCountRead who u) s = .next (withEng s e') ∧ answered e' who x.cnt.toNat ∧ e'.getTmr u.val = x) ∧
     (mayRead e who .TMR_CAP u.val = true → who ≠ .hide → e.flag F.TMR_CFG_WIDE u.val = false → e.underWide u.val = false → ∀ a l, x.caps = a :: l →
       ∃ e', exec (.timerCaptureRead who u) s = .next (withEng s e') ∧ answered e' who a.toNat ∧ e'.getTmr u.val = { x with caps := l })) ∧
  (∀ (u : TmrId) (s : State),
     let e := s.block.eng
     let x := e.getTmr u.val
     (e.awake = true → exec (.timerIncrement u) s = .next (withEng s (e.setTmr u.val { x with incAt := e.clk.cycle + 1 }))) ∧
     (x.run = true → x.incAt = e.clk.cycle + 1 → tmrQuiet e u.val → x.setAt ≠ e.clk.cycle + 1 → e.tmrDue u.val = true →
       e.flag F.TMR_CFG_WIDE u.val = false →
       let e' := e.tmrStep u.val
       (if x.cnt = e.reg .TMR_TOP u.val ∨ x.cnt = 0xFFFFF then (e'.getTmr u.val).cnt = 0 ∧ e'.flag F.TMR_STAT_OF u.val = true
         else (e'.getTmr u.val).cnt = x.cnt + 1) ∧
       ((e'.getTmr u.val).cnt = e.reg .TMR_CMP u.val → e'.flag F.TMR_STAT_MF u.val = true)) ∧
     (x.capAt = e.clk.cycle + 1 → e.flag F.TMR_CFG_WIDE u.val = false →
       let e' := e.tmrCapEnd u.val
       e'.getTmr u.val = { x with caps := (match x.caps with
         | [] => [x.cnt]
         | a :: _ => [a, x.cnt]) } ∧ (2 ≤ x.caps.length → e'.flag F.TMR_STAT_OVER u.val = true)))

/-! ### Links, frames, cells -/

namespace Sys2Proof.Claims

open Sys2Proof.Machine Sys2Proof.Safety

/-- A counter of 20 bits counts n: it saturates (R98). -/
def counted (e e' : Eng) (bank unit idx : Nat) (n : Nat := 1) : Prop := e'.ctr bank unit idx = min (e.ctr bank unit idx + n) 0xFFFFF

/-- A counter of 40 bits counts n: it wraps (R98). -/
def counted40 (e e' : Eng) (bank unit idx : Nat) (n : Nat := 1) : Prop := e'.ctr bank unit idx = (e.ctr bank unit idx + n) % 2 ^ 40

/-- The open ingress frame of link n. -/
def ing (e : Eng) (n : LinkId) : Ingress := (e.getLink n.val).ing

/-- Link n in MII or RMII mode (R79). -/
def macMode (e : Eng) (n : LinkId) : Prop := e.linkMode n.val = 1 ∨ e.linkMode n.val = 2

/-- The cycles of a byte, and of a period of the transmit clock, of a link in MII or RMII mode (R80 to R83). -/
def byteCycles (e : Eng) (p : Nat) : Nat := if e.flag F.LNK_CFG_SPEED p then 400 else 40
def txClock (e : Eng) (p : Nat) : Nat := if e.linkMode p = 1 then byteCycles e p / 2 else 10

/-- What a loss leaves of a link that was UP: FLAP_HOLD with a hold time, else TRAINING; the source; no frame open in the ingress mover (R85, R88). -/
def lost (e e' : Eng) (n : LinkId) (src : Nat) : Prop :=
  e'.linkState n.val = (if e.val .LNK_HOLD n.val = 0 then 1 else 3) ∧ e'.fld F.LNK_STAT_LOSS_SRC n.val = src ∧ (ing e' n).seq = none

/-- The two bytes of a word, the high one first (R3, R4). -/
def twoOf (w : Word) : List Byte := [w.extractLsb' 8 8, w.extractLsb' 0 8]

/-- Bit n of a port mask, cleared for the ingress port without HAIRPIN (R171). -/
def missVerdict (e : Eng) (n : Nat) : Verdict :=
  let m := e.val .FWD_MISS_LO n + e.fld F.FWD_MISS_HI_MASK n * 2 ^ 20
  { mask := if e.flag F.FWD_PCFG_HAIRPIN n ∨ m.testBit n = false then m else m - 2 ^ n, cls := e.fld F.FWD_PCFG_DCLS n,
    trap := e.flag F.FWD_PCFG_MTRAP n }

/-- No valid entry of the key's bucket holds the key (R169). -/
def noEntry (e : Eng) (k : Nat) : Prop :=
  ∀ i, i < 4 → let x : FwdEntry := Tab.get {} e.sw.fwd (4 * e.fwdBucket k + i)
    x.w0.getLsbD 19 = false ∨ x.key ≠ k

/-- A word of an open good frame that is not its last lookup's end: no reject, length within LNK_MAXLEN, the frame live, no new cell needed. -/
def inFrame (e : Eng) (n : LinkId) (q : Nat) (f : Frame) : Prop :=
  e.awake = true ∧ macMode e n ∧ e.linkState n.val = 2 ∧ (ing e n).seq = some q ∧ (ing e n).reject = false ∧
    e.frame q = some f ∧ f.done = false ∧ f.noVerdict = false ∧ (ing e n).n + 2 ≤ e.val .LNK_MAXLEN n.val ∧
    ((ing e n).n % 128 ≠ 0 ∨ (ing e n).n / 128 < f.cells)

/-- The bytes of the open frame's header with those of the word w. -/
def hdrWith (e : Eng) (n : LinkId) (w : Word) : List Byte := ((ing e n).hdr ++ twoOf w).take 256

/-- The highest class of port p that holds a frame is c, its head frame q, which may be sent. -/
def heads (e : Eng) (p c q : Nat) (f : Frame) : Prop :=
  c < 8 ∧ (∀ k, c < k → k < 8 → e.queue p k = []) ∧ (∃ l, e.queue p c = q :: l) ∧ e.frame q = some f ∧ f.cls = c ∧ ((f.ended = true ∨ f.ct = true) ∧ f.bad = false)

/-- The head of the free list (R161). -/
def headOfFree (l : FreeList) (c : Nat) : Prop :=
  l.front.head? = some c ∨ (l.front = [] ∧ l.fresh < 16384 ∧ c = l.fresh) ∨ (l.front = [] ∧ 16384 ≤ l.fresh ∧ l.returned.head? = some c)

/-- No frame of a flush of port p is still to be released, and none was in the last 8 cycles (R92). -/
def noFlush (e : Eng) (p : Nat) : Prop := (e.getLink p).flush = [] ∧ (e.getLink p).flushAt < e.clk.cycle + 8

/-- A frame that link p sends did not end bad while it is cut through (R184). -/
def notBad (x : Sending) (f : Frame) : Prop := x.ct = false ∨ f.bad = false

/-- Byte a of the Basin. -/
def basinByte (m : Mem) (a : Nat) : Byte := Tab.get 0 m.basin a

end Sys2Proof.Claims

/-- R85, R86, R88, R90: EN takes an OFF link to TRAINING and its clearing takes it to OFF, a write of the value it has changes nothing; the training timeout sets
TRAIN_TO and restarts. Losses, UP_REQ and the end of a hold of a cycle are taken together as it ends, against the state at its start: not at all where EN was written;
a loss takes UP to FLAP_HOLD or TRAINING; else UP_REQ takes TRAINING to UP, and FLAP_HOLD to UP with a count; else the end of the hold takes FLAP_HOLD to TRAINING.

R92, R97: a flush releases the next frame of its snapshot from its queue and counts it; POP_I and POP_E each remove the oldest record of their FIFO and change nothing else. -/
def Obligations.LinkStatesAndFlushes : Prop :=
  ((∀ (who : Acc) (n : LinkId) (v : Word) (s : State), legal s who .LNK_CTL n.val v →
     let e := s.block.eng
     let l := e.getLink n.val
     let on := e.flag F.LNK_CTL_EN n.val
     (v = 1 → on = false →
       ∃ e', exec (.linkEnSet who n v) s = .next (done s who e') ∧ e'.flag F.LNK_CTL_EN n.val = true ∧ e'.linkState n.val = 1 ∧
         (e'.getLink n.val).enAt = e.clk.cycle + 1) ∧
     (v = 1 → on = true → exec (.linkEnSet who n v) s = .next (done s who e)) ∧
     (v = 0 → on = true →
       ∃ e', exec (.linkEnClear who n v) s = .next (done s who e') ∧ e'.flag F.LNK_CTL_EN n.val = false ∧ e'.linkState n.val = 0 ∧
         (e'.getLink n.val).enAt = e.clk.cycle + 1) ∧
     (v = 0 → on = false → exec (.linkEnClear who n v) s = .next (done s who e)) ∧
     (v = 3 → on = true → exec (.upRequest who n v) s = .next (done s who (e.setLink n.val { l with upReq := true }))) ∧
     (v = 5 → on = true →
       exec (.linkLossWrite who n v) s = .next (done s who (e.setLink n.val { l with loss := if l.loss = 0 then 2 else l.loss })))) ∧
   (∀ (n : LinkId) (s : State),
     let e := s.block.eng
     let l := e.getLink n.val
     let st := e.linkState n.val
     e.awake = true →
       (∀ tx : Bool, e.linkMode n.val = 1 ∨ (e.linkMode n.val = 2 ∧ e.flag F.LNK_CFG_REFOUT n.val = false) →
         exec (.linkLossClock ⟨n, tx⟩) s = .next (withEng s (e.setLink n.val { l with loss := if l.loss = 0 then (if tx then 4 else 1) else l.loss }))) ∧
       (st = 1 → e.val .LNK_TRAIN n.val ≠ 0 → e.val .LNK_TRAIN n.val ≤ l.ticks →
         ∃ e', exec (.trainingTimeout n) s = .next (withEng s e') ∧ e'.linkState n.val = 1 ∧ e'.flag F.LNK_STAT_TRAIN_TO n.val = true ∧
           (e'.getLink n.val).ticks = 0) ∧
       (st = 3 → e.running = false ∨ e.val .LNK_HOLD n.val ≤ l.ticks →
         exec (.flapHoldExpiry n) s = .next (withEng s (e.setLink n.val { l with expire := true })))) ∧
   (∀ (n : LinkId) (e : Eng),
     let l := e.getLink n.val
     let st := e.linkState n.val
     let e' := e.linkEvents n.val
     (l.enAt = e.clk.cycle + 1 → e'.linkState n.val = st) ∧
     (l.enAt ≠ e.clk.cycle + 1 → l.loss ≠ 0 → (st = 2 → lost e e' n (if l.loss = 4 then 1 else l.loss % 4)) ∧ (st ≠ 2 → e'.linkState n.val = st)) ∧
     (l.enAt ≠ e.clk.cycle + 1 → l.loss = 0 → l.upReq = true → st = 1 ∨ st = 3 →
       e'.linkState n.val = 2 ∧ (ing e' n).discard = (ing e n).discard ∧ (st = 3 → counted e e' 0 n.val 16)) ∧
     (l.enAt ≠ e.clk.cycle + 1 → l.loss = 0 → l.upReq = false → l.expire = true → st = 3 → e'.linkState n.val = 1))) ∧
  ((∀ (n : LinkId) (s : State) (q c : Nat) (rest : List (Nat × Nat)) (f : Frame),
     let e := s.block.eng
     e.awake = true → (e.getLink n.val).flush = (q, c) :: rest → (e.getLink n.val).flushAt ≤ e.clk.cycle → e.frame q = some f →
       ∃ e', exec (.flushRelease n) s = .next (withEng s e') ∧ e'.queue n.val f.cls = (e.queue n.val f.cls).filter (fun x => x != q) ∧
         (e'.getLink n.val).flush = rest.filter (fun x => x.1 != q) ∧ counted e e' 0 n.val 13) ∧
   (∀ (who : Acc) (n : LinkId) (v : Word) (s : State), legal s who .LNK_TSCTL n.val v →
     let l := s.block.eng.getLink n.val
     (v = 1 → exec (.tsPopIngress who n v) s = .next (done s who (s.block.eng.setLink n.val { l with tsi := l.tsi.drop 1 }))) ∧
     (v = 2 → exec (.tsPopEgress who n v) s = .next (done s who (s.block.eng.setLink n.val { l with tse := l.tse.drop 1 })))))

/-- R87, R161, R165, R544: a word with tag 1 at an UP link opens a frame: it takes the next SEQ and the head of the free list, its first bytes are kept; at a link that is not
UP it is counted; words of a discarded run change nothing but the end of the run.

R167, R169 to R172, R175: with the word that holds the last lookup byte of an open frame its lookup begins: its verdict commits 160 cycles later. 24 cycles later the table gives
the verdict of the entry that holds the key, which is marked as hit, or that of a miss. When the verdict commits, the frame is appended to the queue of its class at its port; a verdict
without a port drops the frame and is counted.

R94, R95, R98, R160: the last word of a frame closes it: a frame of legal length with a right CRC ends good and is counted with its bytes, one with a wrong CRC ends bad and is
counted as such. In its slot the ingress mover writes its oldest complete beat into the frame's cell, and no other byte of the Basin. -/
def Obligations.FramesOpenLookUpAndClose : Prop :=
  (∀ (n : LinkId) (w : Word) (s : State),
     let e := s.block.eng
     e.awake = true → macMode e n →
     (∀ (back : BitVec 16) (phase : Fin 16) (c : Nat), w.toNat / 2 ^ 16 = 1 → e.linkState n.val = 2 → (ing e n).seq = none → 2 ≤ e.val .LNK_MAXLEN n.val →
       0 < e.freeCells → e.sw.free.voided = [] → headOfFree e.sw.free c →
         let q := e.val .BSN_NEXTSEQ 0
         ∃ e', exec (.frameStart n w ⟨back, phase⟩) s = .next (withEng s e') ∧ (ing e' n).seq = some q ∧ (ing e' n).hdr = twoOf w ∧ (ing e' n).n = 2 ∧
           e'.reg .BSN_NEXTSEQ 0 = e.reg .BSN_NEXTSEQ 0 + 1 ∧ (e'.cell c).owner = .frame ∧ (e'.cell c).seq = q ∧ e'.freeCells + 1 = e.freeCells ∧
           ∃ f, e'.frame q = some f ∧ f.head = c ∧ f.cells = 1 ∧ f.len = 2 ∧ f.inPort = n.val ∧ f.ended = false) ∧
     (∀ (back : BitVec 16) (phase : Fin 16), w.toNat / 2 ^ 16 = 1 → e.linkState n.val ≠ 2 →
       ∃ e', exec (.frameStart n w ⟨back, phase⟩) s = .next (withEng s e') ∧ counted e e' 0 n.val 9 ∧ (ing e' n).seq = (ing e n).seq ∧ e'.sw = e.sw) ∧
     (w.toNat / 2 ^ 16 ≠ 1 → e.linkState n.val = 2 → (ing e n).seq = none → (ing e n).discard = true →
       exec (.discardRun n w) s = .next (withEng s (e.setLink n.val { e.getLink n.val with
         ing := { ing e n with discard := decide (w.toNat / 2 ^ 16 < 2) } })))) ∧
  ((∀ (n : LinkId) (w : Word) (s : State) (q : Nat) (f : Frame) (k : Nat),
     let e := s.block.eng
     inFrame e n q f → w.toNat / 2 ^ 16 = 0 → (ing e n).looked = false → e.lastLookup n.val (hdrWith e n w) = some k → k ≤ (ing e n).n + 2 →
       ∃ e' f' x, exec (.lookup n w) s = .next (withEng s e') ∧ (ing e' n).looked = true ∧ (ing e' n).n = (ing e n).n + 2 ∧ e'.frame q = some f' ∧
         f'.dueAt = some (e.clk.cycle + 160) ∧ f'.committed = f.committed ∧ f'.look = some x ∧ x.at' = e.clk.cycle ∧ x.ready = false ∧
         x.key = (if e.fwdKind n.val = 0 then none else some (e.frameKey n.val (hdrWith e n w)))) ∧
   (∀ (n : LinkId) (e : Eng) (q : Nat) (f : Frame) (x : Look), f.inPort = n.val →
     (x.key = none ∨ (∃ k, x.key = some k ∧ noEntry e k.1) →
       (e.lookupEnd q f x).frame q = some { f with verdict := missVerdict e n.val, look := some { x with ready := true, hit := none } }) ∧
     (∀ k pcp i, x.key = some (k, pcp) → i < 4 →
       let at' (j : Nat) : FwdEntry := Tab.get {} e.sw.fwd (4 * e.fwdBucket k + j)
       (at' i).w0.getLsbD 19 = true → (at' i).key = k → (∀ j, j < i → (at' j).w0.getLsbD 19 = false ∨ (at' j).key ≠ k) →
         ∃ f', (e.lookupEnd q f x).frame q = some f' ∧ f'.look = some { x with ready := true, hit := some (4 * e.fwdBucket k + i) } ∧
           f'.verdict.trap = (at' i).w0.getLsbD 17 ∧ (e.flag F.FWD_PCFG_HAIRPIN n.val = true → f'.verdict.mask = (at' i).mask) ∧
           f'.verdict.cls = (if (at' i).w0.getLsbD 16 = false then (at' i).w0.toNat / 2 ^ 13 % 8
             else if e.fwdKind n.val = 1 then pcp else e.fld F.FWD_PCFG_DCLS n.val) ∧
           ((Tab.get {} (e.lookupEnd q f x).sw.fwd (4 * e.fwdBucket k + i) : FwdEntry).w0.getLsbD 18 = true))) ∧
   (∀ (seq : Word) (s : State) (f : Frame) (c : Nat),
     let e := s.block.eng
     let q := seq.toNat
     e.awake = true → e.frame q = some f → f.dueAt = some c → c ≤ e.clk.cycle → f.committed = false → f.noVerdict = false → f.override = none →
     f.recog = false → f.verdict.trap = false → f.ended = false → e.flag F.SLU_TBCFG_EN (8 * f.inPort + f.verdict.cls) = false →
       (∀ p, p < 24 → f.verdict.mask = 2 ^ p → e.linkState p = 2 → noFlush e p → e.fld F.SLU_QUOTA_CELLS (8 * p + f.verdict.cls) = 0 →
         e.entriesUsed < 32768 →
         ∃ e' f', exec (.verdictCommit seq) s = .next (withEng s e') ∧ e'.queue p f.verdict.cls = e.queue p f.verdict.cls ++ [q] ∧
           e'.frame q = some f' ∧ f'.committed = true ∧ f'.cls = f.verdict.cls ∧ f'.queued = [p]) ∧
       (f.verdict.mask % 2 ^ 25 = 0 →
         ∃ e', exec (.verdictCommit seq) s = .next (withEng s e') ∧ counted e e' 1 0 9 ∧ e'.sw.queues = e.sw.queues))) ∧
  ((∀ (n : LinkId) (w : Word) (s : State) (q : Nat) (f : Frame),
     let e := s.block.eng
     inFrame e n q f → w.toNat / 2 ^ 16 = 3 → f.committed = false → f.trapped = false → f.recog = false → e.recognises n.val (hdrWith e n w) = false →
     e.val .LNK_MINLEN n.val ≤ (ing e n).n + 2 →
       let good := crc32 (ing e n).crc (twoOf w) = 0xDEBB20E3
       ∃ e' f', exec (.frameEnd n w) s = .next (withEng s e') ∧ (ing e' n).seq = none ∧ e'.frame q = some f' ∧ f'.ended = true ∧
         f'.len = (ing e n).n + 2 ∧ (good → f'.bad = false ∧ counted40 e e' 0 n.val 0 ∧ counted40 e e' 0 n.val 1 ((ing e n).n + 2)) ∧
         (¬good → f'.bad = true ∧ counted e e' 0 n.val 4)) ∧
   (∀ (n : LinkId) (s : State) (x : Beat) (f : Frame) (c : Nat),
     let e := s.block.eng
     e.awake = true → (e.clk.cycle - e.clk.roundBase) % 32 = 4 * (n.val % 8) → (ing e n).beats = [x] → x.at' < e.clk.cycle → x.bytes.length = 16 → x.off % 16 = 0 →
     e.frame x.seq = some f → f.done = false → f.trapTid = 0 → e.frameCell f x.off = some c → f.len ≠ x.off + 16 →
       ∃ m' e' f', exec (.beatWrite n) s = .next { s with block := ⟨m', e'⟩ } ∧ (ing e' n).beats = [] ∧ e'.frame x.seq = some f' ∧ f'.written = x.off + 16 ∧
         m'.data = s.block.mem.data ∧ m'.code = s.block.mem.code ∧ m'.ledger = s.block.mem.ledger ∧
         ∀ a, basinByte m' a = if 128 * c + x.off % 128 ≤ a ∧ a < 128 * c + x.off % 128 + 16 then x.bytes.getD (a - (128 * c + x.off % 128)) 0
           else basinByte s.block.mem a))

/-- R81, R93, R94, R97, R98, R178, R183 to R185: a free UP port without windows takes the head frame of its highest class that holds one; in MII and RMII modes TX_EN rises for
it once its first beat is there and the gap is over; in its slot the egress mover reads the frame's next bytes; a frame wholly sent ends its transmission and is counted with its
bytes; a frame cut through that ended bad is ended as bad; a timed frame whose deadline has passed is dropped and counted. -/
def Obligations.FramesLeaveByTheirPorts : Prop :=
  (∀ (port : Fin 25) (phase : Fin 16) (s : State) (c q : Nat) (f : Frame),
    let e := s.block.eng
    let p := port.val
    e.awake = true → p < 24 → e.linkState p = 2 → e.linkMode p ≠ 0 → (e.getLink p).eg = none → (e.getLink p).handed = [] → (e.getLink p).flush = [] →
    (e.layer p).st = 0 → e.schEn p = false → heads e p c q f → f.launch = none →
      ∃ e' g, exec (.frameTxStart ⟨port, phase⟩) s = .next (withEng s e') ∧ e'.queue p c = (e.queue p c).filter (fun x => x != q) ∧
        e'.frame q = some g ∧ g.sending = f.sending ++ [p] ∧
        (e'.getLink p).eg = some { seq := some q, gen := none, cls := c, startCyc := e.clk.cycle, ct := f.ct, launch := none }) ∧
  (∀ (port : Fin 25) (phase : Fin 16) (s : State) (x : Sending),
    let e := s.block.eng
    let p := port.val
    let l := e.getLink p
    e.awake = true → p < 24 → e.linkState p = 2 → e.linkMode p = 1 ∨ e.linkMode p = 2 → l.flush = [] → l.eg = some x → x.started = false → x.abort = false →
    0 < x.rd → x.launch = none → (e.layer p).st = 0 → l.freeCyc = 0 ∨ l.freeCyc - 1 + 12 * byteCycles e p ≤ e.clk.cycle →
      ∃ e', exec (.frameTxStart ⟨port, phase⟩) s = .next (withEng s e') ∧
        (e'.getLink p).eg = some { x with started := true, startCyc := e.clk.cycle, phase := phase.val, late := false }) ∧
  (∀ (port : Fin 25) (s : State) (x : Sending) (q : Nat) (f : Frame),
    let e := s.block.eng
    let p := port.val
    e.awake = true → p < 24 → e.linkMode p = 1 ∨ e.linkMode p = 2 → (e.getLink p).eg = some x → x.gen = none → x.seq = some q → e.frame q = some f →
    f.ended = true → notBad x f → f.len ≤ x.rd → x.started = true → x.abort = false → x.startCyc + (8 + f.len) * byteCycles e p ≤ e.clk.cycle →
      ∃ e', exec (.frameTxEnd port) s = .next (withEng s e') ∧ (e'.getLink p).eg = none ∧ (e'.getLink p).freeAt = e.t80 ∧
        counted40 e e' 0 p 2 ∧ counted40 e e' 0 p 3 f.len) ∧
  (∀ (port : Fin 25) (s : State) (x : Sending) (q : Nat) (f : Frame),
    let e := s.block.eng
    let p := port.val
    e.awake = true → p < 24 → (e.getLink p).eg = some x → x.ct = true → x.abort = false → x.seq = some q → e.frame q = some f → f.ended = true →
    f.bad = true → f.inPort / 8 = p / 8 ∨ f.endCyc < e.clk.cycle →
      (e.linkMode p = 3 ∨ ((e.linkMode p = 1 ∨ e.linkMode p = 2) ∧ x.started = true) →
        let y : Sending := { x with abort := true, tail := true, abortAt := e.clk.cycle, clkLost := false }
        exec (.badTail port) s = .next (withEng s (e.setLink p { e.getLink p with eg := some (if e.linkMode p = 3 then { y with buf := [0x80000] } else y) }))) ∧
      (e.linkMode p = 1 ∨ e.linkMode p = 2 → x.started = false →
        ∃ e', exec (.badTail port) s = .next (withEng s e') ∧ (e'.getLink p).eg = none ∧ counted e e' 0 p 10)) ∧
  (∀ (port : Fin 25) (s : State) (c q : Nat) (f : Frame) (t : Nat),
    let e := s.block.eng
    let p := port.val
    e.awake = true → p < 24 → e.linkState p = 2 → (e.getLink p).flush = [] → (e.getLink p).eg = none → (e.getLink p).handed = [] → heads e p c q f →
    f.launch = some t → t + 64 * e.val .LNK_LATEMAX p * 2 ^ 20 < e.t80 →
    (e.linkMode p = 1 ∨ e.linkMode p = 2 → t + 2 * txClock e p * 2 ^ 20 ≤ e.t80) →
      ∃ e', exec (.launchDeadline port) s = .next (withEng s e') ∧ counted e e' 0 p 12 ∧ e'.queue p c = (e.queue p c).filter (fun x => x != q)) ∧
  (∀ (n : LinkId) (s : State) (x : Sending) (q : Nat) (f : Frame) (c : Nat),
    let e := s.block.eng
    let k := min 16 (f.len - x.rd)
    let bytes := (List.range k).map (fun i => basinByte s.block.mem (128 * c + (x.rd % 128 + i)))
    e.awake = true → (e.clk.cycle - e.clk.roundBase) % 32 = 4 * (n.val % 8) + 2 → e.linkMode n.val ≠ 0 → (e.getLink n.val).eg = some x →
    x.abort = false → x.buf.length ≤ 8 → x.out.length ≤ 16 → x.gen = none → x.seq = some q → e.frame q = some f → f.ended = true → notBad x f → x.rd < f.len →
    min (x.rd + 16) f.len ≤ f.written → e.frameCell f x.rd = some c → (e.cell c).seq = q → e.ecc = [] →
      ∃ e', exec (.beatRead n) s = .next (withEng s e') ∧ (e'.getLink n.val).eg = some (if e.linkMode n.val = 3
        then { x with rd := x.rd + k, buf := x.buf ++ txWords x.rd (some f.len) bytes } else { x with rd := x.rd + k, out := x.out ++ bytes }))

/-! ### Threads and cells, the forwarding table, the Warden, schedule layers -/

namespace Sys2Proof.Claims

open Sys2Proof.Machine Sys2Proof.Safety

/-- The key staged in FWD_ENT1 to FWD_ENT4 (R167, R173). -/
def keyStaged (e : Eng) : Nat :=
  e.val .FWD_ENT1 0 + e.val .FWD_ENT2 0 * 2 ^ 20 + e.val .FWD_ENT3 0 * 2 ^ 40 + e.fld F.FWD_ENT4_KEY 0 * 2 ^ 60

/-- The mask staged in FWD_ENT5 and FWD_ENT6. -/
def maskStaged (e : Eng) : Nat := e.val .FWD_ENT5 0 + e.fld F.FWD_ENT6_MASK 0 * 2 ^ 20

/-- Entry i of the forwarding table. -/
def fwdEntry (e : Eng) (i : Nat) : FwdEntry := Tab.get {} e.sw.fwd i

/-- A forwarding operation is in its last cycle: operation `op`, CLRHIT `clr` (R173). -/
def fwdDue (e : Eng) (op : Nat) (clr : Bool) : Prop := e.awake = true ∧ ∃ c, e.sw.fwdOp = some (op, clr, c) ∧ c + 16 ≤ e.clk.cycle

/-- Way j of the bucket of the staged key. -/
def way (e : Eng) (j : Nat) : Nat := 4 * e.fwdBucket (keyStaged e) + j

/-- Way j alone of the staged key's bucket holds the key, valid. -/
def keyAt (e : Eng) (j : Nat) : Prop :=
  j < 4 ∧ ∀ i, i < 4 → (((fwdEntry e (way e i)).w0.getLsbD 19 = true ∧ (fwdEntry e (way e i)).key = keyStaged e) ↔ i = j)

/-- The operation has ended with a result: BUSY reads 0. -/
def fwdEnded (e : Eng) (res : Nat) : Prop := e.sw.fwdOp = none ∧ e.fld F.FWD_OSTAT_RESULT 0 = res

/-- The staged words show entry x (R173). -/
def fwdShown (e : Eng) (x : FwdEntry) : Prop :=
  e.reg .FWD_ENT0 0 = x.w0 ∧ e.reg .FWD_ENT1 0 = word x.key ∧ e.reg .FWD_ENT2 0 = word (x.key / 2 ^ 20) ∧
    e.reg .FWD_ENT3 0 = word (x.key / 2 ^ 40) ∧ e.reg .FWD_ENT5 0 = word x.mask

/-- The override that a commit with an ACT leaves at frame f (R175); DROP and TRAP leave the class to the hardware verdict as it stands at the commit. -/
def overriding (e : Eng) (f : Frame) (act : Nat) : Option (Nat × Verdict) :=
  let staged := e.val .FWD_OVR2 0 + e.fld F.FWD_OVR1_MASK 0 * 2 ^ 20
  let drops : Verdict := { mask := 0, cls := 0, trap := decide (act = 3) }
  if act = 0 then none
  else if act = 2 then some (2, { mask := e.hairpin f.inPort staged, cls := e.fld F.FWD_OVR1_CLASS 0, trap := false })
  else some (act, drops)

/-- Cell c is held by thread t, and not in a chain that is being released (R163, R197). -/
def cellOf (e : Eng) (t : Tid) (c : Nat) : Prop := (e.cell c).owner = .thread t.val ∧ ∀ d ∈ e.sw.drops, c ∉ d.2

/-- The cells of a list are held by thread t, each linked to the next, and the chain ends with them (R197, R198). -/
def chainOf (e : Eng) (t : Tid) : List Nat → Prop
  | [] => False
  | [c] => cellOf e t c ∧ (e.cell c).next = none
  | c :: d :: l => cellOf e t c ∧ (e.cell c).next = some d ∧ chainOf e t (d :: l)

/-- The engine with other allocations, or with other chains in release. -/
def withAllocs (e : Eng) (l : List Alloc) : Eng := { e with sw := { e.sw with allocs := l } }
def withDrops (e : Eng) (l : List (Nat × List Nat)) : Eng := { e with sw := { e.sw with drops := l } }

/-- There are free cells for an allocation (R162). -/
def enough (e : Eng) (a : Alloc) : Prop := if a.c7 then 0 < e.freeCells else 4096 - e.h7 < e.freeCells

/-- Warden pass state with a pass that has just begun. -/
def passBegun (e : Eng) : Warden := { e.sw.warden with pass := some e.clk.cycle, lastStart := e.clk.cycle, sum := {} }

/-- Offset of a reference, received at x with link cycle count lcc, from the start expected in the frame at j (R222). -/
def refOff (e : Eng) (n : LinkId) (r : RowSet) (x : Int) (lcc j : Nat) : Int :=
  x - ((e.tick.set.launch j * 8 : Nat) + (entAt e.tick.set (e.schEntry (r.index (lcc % 2 ^ r.rb) 0)) : Nat) + (8 * e.val .SCH_LRXLAT n.val : Nat) +
    (e.layer n.val).d)

/-- The frames that a reference may belong to: the current one and its neighbours. -/
def framesNear (e : Eng) (g : Nat) : List Nat := (if e.tick.set.f ≤ g then [g - e.tick.set.f] else []) ++ [g, g + e.tick.set.f]

/-- The link cycle count in a reference's header (R216, R226). -/
def refLcc (e : Eng) (n : LinkId) (hdr : List Byte) : Nat := (if e.flag F.SCH_LCFG_FRAMING n.val then hdrByte hdr 7 else hdrByte hdr 17) % 64

/-- At this end of cycle the layer of n takes no EN = 0 and its link is UP (R223). -/
def noneBefore (e : Eng) (n : LinkId) : Prop := (e.layer n.val).offAt ≠ e.clk.cycle + 1 ∧ e.linkState n.val = 2

/-- The row set that the registers of link n name (R209). -/
def rowsNamed (e : Eng) (n : LinkId) : RowSet := ⟨e.fld F.SCH_LROW_BASE n.val, e.fld F.SCH_LROW_RB n.val, e.fld F.SCH_LWPR_WPR n.val⟩

/-- The layer of link n. -/
def lay (e : Eng) (n : LinkId) : Layer := e.layer n.val

/-- The register SCH_LCTL of link n is written with one bit beside EN as it stands. -/
def lctl (e : Eng) (n : LinkId) (v : Word) (apply cancel : Bool) : Prop :=
  v.getLsbD 0 = e.flag F.SCH_LCTL_EN n.val ∧ v.getLsbD 2 = apply ∧ v.getLsbD 3 = cancel

/-- The start of the next window of link n, and its entry (R206, R207). -/
def nextStart (e : Eng) (n : LinkId) : Int := e.winStart n.val (lay e n).j0 (lay e n).w
def nextEntry (e : Eng) (n : LinkId) : List Word := e.winEntry n.val (lay e n).j0 (lay e n).w

/-- The layer of n has gone on to the window after its next one. -/
def movedOn (e e' : Eng) (n : LinkId) : Prop :=
  let y := lay e n
  ((lay e' n).j0, (lay e' n).w) = if y.w + 1 < e.winCount n.val y.j0 then (y.j0, y.w + 1) else (y.j0 + e.tick.set.f, 0)

end Sys2Proof.Claims

/-- R161 to R163, R194, R197 to R199: BSN_ALLOC starts an allocation for its thread; in each cycle it takes the cell at the head of the free list and links it to the one before,
or is refused and gives its cells back; ALLOC_DONE answers in BSN_AHEAD when its time is over. BSN_CHAIN1 links two held cells; BSN_RELEASE starts the release of a held chain, one cell in a cycle;
of a FREE cell it is a double free and a fault. An injected chain becomes a frame in the queues of its mask; a read of BSN_TRAP0 takes the head trapped frame. That a refused allocation's cells go
back to the head of the free list is the model's choice (log 70). -/
def Obligations.ThreadsUseCells : Prop :=
  (∀ (t : Tid) (v : Word) (s : State), legal s (.thread t) .BSN_ALLOC 0 v →
    let e := s.block.eng
    exec (.bsnAlloc (.thread t) v) s = .next (done s (.thread t) (withAllocs e (e.sw.allocs ++
      [{ why := .thread t.val, n := v.toNat % 128, c7 := v.getLsbD 7, till := e.clk.cycle + v.toNat % 128 + 2 }])))) ∧
  (∀ (e : Eng) (a : Alloc), a.ok = none →
    (¬enough e a → (e.allocStep a).1 = { a with ok := some false, cells := [] } ∧ (∀ c ∈ a.cells, ((e.allocStep a).2.cell c).owner = .free) ∧
      (e.allocStep a).2.sw.free = { e.sw.free with front := a.cells ++ e.sw.free.front }) ∧
    (∀ c f, enough e a → e.sw.free.pop = some (c, f) → c ∉ e.sw.free.voided →
      (e.allocStep a).1 = { a with cells := a.cells ++ [c], ok := if a.n ≤ a.cells.length + 1 then some true else none } ∧
        (e.allocStep a).2.sw.free = f ∧ ((e.allocStep a).2.cell c).owner = a.why.owner ∧
        (∀ p, a.cells.getLast? = some p → ((e.allocStep a).2.cell p).next = some c))) ∧
  (∀ (t : Tid) (s : State) (a : Alloc) (ok : Bool),
    let e := s.block.eng
    e.awake = true → e.sw.allocs.find? (fun x => decide (x.why = .thread t.val)) = some a → a.ok = some ok → a.till ≤ e.clk.cycle → a.cells.headD 0 < 16384 →
      ∃ e', exec (.allocDone t) s = .next (withEng s e') ∧ (∀ x ∈ e'.sw.allocs, x.why ≠ .thread t.val) ∧
        e'.flag F.BSN_AHEAD_VALID t.val = ok ∧ e'.fld F.BSN_AHEAD_HEAD t.val = a.cells.headD 0) ∧
  (∀ (t : Tid) (v : Word) (s : State), legal s (.thread t) .BSN_CHAIN1 0 v →
    let e := s.block.eng
    let c := e.fld F.BSN_CHAIN0_CELL t.val
    let d := v.toNat % 2 ^ 14
    cellOf e t c → cellOf e t d ∨ v.getLsbD 19 = true →
      exec (.chainRelink (.thread t) v) s = .next (done s (.thread t) (e.setCell c { e.cell c with
        next := if v.getLsbD 19 then none else some d }))) ∧
  (∀ (t : Tid) (v : Word) (s : State), legal s (.thread t) .BSN_RELEASE 0 v →
    let e := s.block.eng
    let c := v.toNat
    (∀ l, chainOf e t (c :: l) → l.length < 16384 →
      exec (.bsnRelease (.thread t) v) s = .next (done s (.thread t) (withDrops e (e.sw.drops ++ [(e.clk.cycle + 1, c :: l)])))) ∧
    ((e.cell c).owner = .free →
      ∃ e', exec (.bsnRelease (.thread t) v) s = .next (withEng s e') ∧ e'.fld F.WRD_CNT1_DFREES 0 = min (e.fld F.WRD_CNT1_DFREES 0 + 1) 1023 ∧
        e'.flag F.WRD_STAT_DFREE 0 = true ∧ e'.sw.free = e.sw.free)) ∧
  (∀ (e : Eng) (k c : Nat) (l : List Nat), e.sw.drops = [(k, c :: l)] → k ≤ e.clk.cycle → (e.cell c).owner ≠ .free →
    (e.dropsStep.cell c).owner = .free ∧ e.dropsStep.sw.free = { e.sw.free with returned := e.sw.free.returned ++ [c] } ∧
      e.dropsStep.sw.drops = if l.isEmpty then [] else [(k, l)]) ∧
  (∀ (t : Tid) (v : Word) (s : State) (p : Nat) (l : List Nat), legal s (.thread t) .BSN_INJGO 0 v →
    let e := s.block.eng
    let cls := e.fld F.BSN_INJ1_CLASS t.val
    let len := e.fld F.BSN_INJ2_LEN t.val
    let q := e.val .BSN_NEXTSEQ 0
    v.getLsbD 0 = true → chainOf e t l → l.headD 0 = e.fld F.BSN_INJ1_HEAD t.val → 1 ≤ len → len ≤ 9216 → l.length = (len + 127) / 128 →
    e.flag F.BSN_INJ4_TIMED t.val = false → p < 20 →
    e.val .BSN_INJ3 t.val = 2 ^ p → e.fld F.BSN_INJ4_MASK t.val = 0 → e.linkState p = 2 → (e.getLink p).flush = [] → (e.getLink p).flushAt < e.clk.cycle + 8 →
    e.fld F.SLU_QUOTA_CELLS (8 * p + cls) = 0 → e.entriesUsed < 32768 →
      ∃ e' f, exec (.frameInject (.thread t) v) s = .next (done s (.thread t) e') ∧ e'.queue p cls = e.queue p cls ++ [q] ∧ e'.frame q = some f ∧
        f.head = l.headD 0 ∧ f.cells = l.length ∧ f.len = len ∧ f.queued = [p] ∧ f.ended = true ∧ (∀ c ∈ l, (e'.cell c).owner = .frame) ∧
        e'.reg .BSN_NEXTSEQ 0 = e.reg .BSN_NEXTSEQ 0 + 1) ∧
  (∀ (t : Tid) (s : State) (rec : List Nat) (rest : List (List Nat)),
    let e := s.block.eng
    mayRead e (.thread t) .BSN_TRAP0 0 = true → e.fld F.BSN_TRAPTID_TID 0 = t.val → e.sw.traps = rec :: rest →
      ∃ e', exec (.trapPop (.thread t)) s = .next (withEng s e') ∧ e'.sw.traps = rest ∧
        e'.cells = e.cells)

/-- R167 to R175: a forwarding operation is busy for its 16 cycles; at their end INSERT updates the entry of the staged key, or fills the first way that is not valid, or is FULL;
DELETE invalidates it, FIND and READ show an entry in the staged words, CLRHIT clears its hit bit. A read of FWD_NOTE0 by the classifier takes the head notice.

R175: an override commit for a frame whose verdict is still to commit replaces its verdict, also before its lookup: KEEP leaves the hardware verdict, DROP has no port, PORTS the staged ports
without the ingress port unless HAIRPIN, TRAP traps; a frame whose verdict is due or committed leaves TOO_LATE, which is counted; a SEQ without a record, or of a frame that no lookup
gives a verdict, leaves NOSEQ. -/
def Obligations.ForwardingTableAndOverrides : Prop :=
  ((∀ (who : Acc) (v : Word) (s : State), legal s who .FWD_OP 0 v →
     let e := s.block.eng
     let busy := done s who { e with sw := { e.sw with fwdOp := some (v.toNat % 8, v.getLsbD 4, e.clk.cycle) } }
     (v.toNat % 8 = 1 → exec (.fwdInsert who v) s = .next busy) ∧ (v.toNat % 8 = 2 → exec (.fwdDelete who v) s = .next busy) ∧
     (v.toNat % 8 = 3 → exec (.fwdFind who v) s = .next busy) ∧ (v.toNat % 8 = 4 → exec (.fwdRead who v) s = .next busy)) ∧
   (∀ (s : State) (clr : Bool) (j : Nat),
     let e := s.block.eng
     let x : FwdEntry := ⟨(e.reg .FWD_ENT0 0 ||| 0x80000) &&& 0xBFFFF, keyStaged e, maskStaged e⟩
     (fwdDue e 1 clr → (keyAt e j ∨ (noEntry e (keyStaged e) ∧ j < 4 ∧ (fwdEntry e (way e j)).w0.getLsbD 19 = false ∧
         ∀ i, i < j → (fwdEntry e (way e i)).w0.getLsbD 19 = true)) →
       ∃ e', exec .fwdOpResult s = .next (withEng s e') ∧ (keyAt e j → fwdEnded e' 1) ∧ (¬keyAt e j → fwdEnded e' 0) ∧
         e'.fld F.FWD_IDX_INDEX 0 = way e j % 2 ^ 13 ∧ ∀ i, fwdEntry e' i = if i = way e j then x else fwdEntry e i) ∧
     (fwdDue e 1 clr → noEntry e (keyStaged e) → (∀ i, i < 4 → (fwdEntry e (way e i)).w0.getLsbD 19 = true) →
       ∃ e', exec .fwdOpResult s = .next (withEng s e') ∧ fwdEnded e' 2 ∧ e'.sw.fwd = e.sw.fwd) ∧
     (fwdDue e 2 clr → keyAt e j →
       ∃ e', exec .fwdOpResult s = .next (withEng s e') ∧ fwdEnded e' 0 ∧ (fwdEntry e' (way e j)).w0.getLsbD 19 = false ∧
         ∀ i, i ≠ way e j → fwdEntry e' i = fwdEntry e i) ∧
     (fwdDue e 2 clr ∨ fwdDue e 3 clr → noEntry e (keyStaged e) →
       ∃ e', exec .fwdOpResult s = .next (withEng s e') ∧ fwdEnded e' 3 ∧ e'.sw.fwd = e.sw.fwd) ∧
     (fwdDue e 3 clr → keyAt e j →
       ∃ e', exec .fwdOpResult s = .next (withEng s e') ∧ fwdEnded e' 0 ∧ fwdShown e' (fwdEntry e (way e j)) ∧
         e'.fld F.FWD_IDX_INDEX 0 = way e j % 2 ^ 13 ∧ (clr = true → (fwdEntry e' (way e j)).w0.getLsbD 18 = false)) ∧
     (fwdDue e 4 clr →
       ∃ e', exec .fwdOpResult s = .next (withEng s e') ∧ fwdEnded e' 0 ∧ fwdShown e' (fwdEntry e (e.fld F.FWD_IDX_INDEX 0)) ∧
         (clr = false → e'.sw.fwd = e.sw.fwd))) ∧
   (∀ (t : Tid) (s : State) (note : List Word) (rest : List (List Word)),
     let e := s.block.eng
     mayRead e (.thread t) .FWD_NOTE0 0 = true → e.fld F.FWD_CLSTID_TID 0 = t.val → e.sw.notices = note :: rest →
       ∃ e', exec (.noticePop (.thread t)) s = .next (withEng s e') ∧ e'.sw.notices = rest ∧ (e'.getLatch t.val).notice = note.drop 1)) ∧
  (∀ (who : Acc) (v : Word) (s : State), legal s who .FWD_OVR0 0 v →
     let e := s.block.eng
     let act := e.fld F.FWD_OVR1_ACT 0
     ∀ (c : Instr), (c = .overrideKeep who v ∧ act = 0) ∨ (c = .overrideDrop who v ∧ act = 1) ∨ (c = .overridePorts who v ∧ act = 2) ∨ (c = .overrideTrap who v ∧ act = 3) →
       (∀ f, e.frame v.toNat = some f → f.noVerdict = false → f.committed = false → (∀ k, f.dueAt = some k → e.clk.cycle < k) →
         ∃ e', exec c s = .next (done s who e') ∧ e'.fld F.FWD_OVRSTAT_RESULT 0 = 0 ∧ e'.frame v.toNat = some { f with override := overriding e f act }) ∧
       (∀ f k, e.frame v.toNat = some f → f.dueAt = some k → f.noVerdict = false → f.committed = true ∨ k ≤ e.clk.cycle →
         ∃ e', exec c s = .next (done s who e') ∧ e'.fld F.FWD_OVRSTAT_RESULT 0 = 1 ∧ counted e e' 1 0 3 ∧ e'.frame v.toNat = some f) ∧
       (e.frame v.toNat = none ∨ (∃ f, e.frame v.toNat = some f ∧ (f.noVerdict = true ∨ (f.committed = true ∧ f.dueAt = none))) →
         ∃ e', exec c s = .next (done s who e') ∧ e'.fld F.FWD_OVRSTAT_RESULT 0 = 2 ∧ e'.sw = e.sw))

/-- R161, R163, R187: a frame whose last use has ended returns one cell, its head, to the tail of the free list; its record goes with the last one. A refill adds RATE to every
enabled bucket, up to BURST, once in a round, and leaves the others.

R191 to R195: WRD_CTL.NOW and the audit timeout start a pass when EN is 1, or count a skip while one runs. In cycle i of a pass cell i is examined: a FREE cell not in the free list returns to
it, an entry of the free list for a cell in use is voided, a cell that nothing holds is suspected, and freed where it was suspected with the same stamp. The pass ends 16,384 cycles
after its start, and AUDITS counts it. -/
def Obligations.CellsReturnAndFreeListIsRepaired : Prop :=
  ((∀ (seq : Word) (s : State) (f : Frame),
     let e := s.block.eng
     e.awake = true → e.frame seq.toNat = some f → f.done = true → f.relAt ≤ e.clk.cycle → f.trapTid = 0 → f.cells ≠ 0 → (e.cell f.head).owner ≠ .free →
       ∃ e', exec (.cellChainRelease seq) s = .next (withEng s e') ∧ e'.sw.free.returned = e.sw.free.returned ++ [f.head] ∧
         (e'.cell f.head).owner = .free ∧
         (f.cells = 1 → e'.frame seq.toNat = none) ∧
         (∀ d, f.cells ≠ 1 → (e.cell f.head).next = some d → e'.frame seq.toNat = some { f with head := d, cells := f.cells - 1, relAt := e.clk.cycle + 1 })) ∧
   (∀ (s : State),
     let e := s.block.eng
     let round := (e.clk.cycle - e.clk.roundBase) / 32 + 1
     e.awake = true → e.sw.refillAt ≠ round →
       ∃ e', exec .tokenRefill s = .next (withEng s e') ∧ e'.sw.refillAt = round ∧ ∀ k, k < 200 →
         Tab.get 0 e'.sw.buckets k = if e.flag F.SLU_TBCFG_EN k then min (256 * (e.val .SLU_TBBURST k : Int)) (Tab.get 0 e.sw.buckets k + e.val .SLU_TBRATE k)
           else Tab.get 0 e.sw.buckets k)) ∧
  ((∀ (who : Acc) (v : Word) (s : State), legal s who .WRD_CTL 0 v → v = 3 →
     ∃ e', exec (.wardenNow who v) s = .next (done s who e') ∧
       (s.block.eng.sw.warden.pass = none → e'.sw.warden = passBegun s.block.eng) ∧
       (s.block.eng.sw.warden.pass ≠ none → e'.sw.warden = s.block.eng.sw.warden ∧
         e'.fld F.WRD_SKIPS_COUNT 0 = min (s.block.eng.fld F.WRD_SKIPS_COUNT 0 + 1) 1023)) ∧
   (∀ (s : State),
     let e := s.block.eng
     e.awake = true → e.sw.warden.lastStart + 65536 ≤ e.clk.cycle → e.flag F.WRD_CTL_EN 0 = true → e.sw.warden.pass = none →
       exec .auditTimeout s = .next (withEng s { e with sw := { e.sw with warden := passBegun e } })) ∧
   (∀ (e : Eng) (k c : Nat), e.sw.warden.pass = some k → e.clk.cycle = k + c → c < 16384 →
     let x := e.cell c
     let e' := e.auditStep
     (x.owner = .free → e.sw.free.has c = false →
       e'.sw.free = { e.sw.free with returned := e.sw.free.returned ++ [c] } ∧ e'.fld F.WRD_CNT2_LOST 0 = min (e.fld F.WRD_CNT2_LOST 0 + 1) 1023) ∧
     (x.owner ≠ .free → e.sw.free.has c = true →
       e'.sw.free = { e.sw.free with voided := c :: e.sw.free.voided } ∧ e'.fld F.WRD_CNT2_CROSS 0 = min (e.fld F.WRD_CNT2_CROSS 0 + 1) 1023) ∧
     (x.owner ≠ .free → e.sw.free.has c = false → c ∉ e.liveCells → (∀ t, x.owner = .thread t → x.orphan = true) →
       (x.suspect ≠ some x.seq → e'.cell c = { x with suspect := some x.seq } ∧ e'.sw.free = e.sw.free) ∧
       (x.suspect = some x.seq → (e'.cell c).owner = .free ∧ e'.sw.free = { e.sw.free with returned := e.sw.free.returned ++ [c] } ∧
         e'.fld F.WRD_CNT1_LEAKS 0 = min (e.fld F.WRD_CNT1_LEAKS 0 + 1) 1023))) ∧
   (∀ (s : State) (k : Nat),
     let e := s.block.eng
     e.awake = true → e.sw.warden.pass = some k → k + 16384 ≤ e.clk.cycle →
       ∃ e', exec .auditPassEnd s = .next (withEng s e') ∧ e'.sw.warden = { e.sw.warden with pass := none, dfrees := 0 } ∧
         e'.reg .WRD_AUDITS 0 = e.reg .WRD_AUDITS 0 + 1 ∧ e'.sw.free = e.sw.free ∧ e'.cells = e.cells))

/-- R208, R209, R222, R229: SCH_EOP moves an entry between the store and the staged words; APPLY puts the named row set under checks, which at their end leave it pending or record
the failure; a pending set takes effect when it is due, CANCEL discards one that is not; EN takes an OFF layer to LISTEN with SYNC and to LOCAL without, its clearing asks for OFF.

R207, R211 to R213, R216 to R218, R221 to R224: COMMIT puts a thread's held chain into its buffer, CLEAR empties it; at its check time an exclusive window hands over the frame that its
buffer has ready, or a null frame is sent in place of one, a reference window of a MASTER a reference; a window whose start has passed is not run and counts in SKIPWIN. What a reference, a missed
one and the listen timer do is taken at the end of their cycle, and only the first of them stands: a reference received in LISTEN makes a FOLLOWER of the layer, or a SILENT one, or leaves it in LISTEN
where D_n would pass half the frame; the listen timer makes a MASTER of it, unless MPRI is 15; a missed reference window is counted, and MISSMAX of them lead to LISTEN; EN set to 0 and a link that is not
UP come before them. A grid frame boundary takes an asked OFF, an entry, and a count of the listen timer. -/
def Obligations.RowSetsWindowsAndSynchronisation : Prop :=
  ((∀ (who : Acc) (v : Word) (s : State), legal s who .SCH_EOP 0 v →
     let e := s.block.eng
     let i := e.fld F.SCH_ESEL_INDEX 0
     (v = 1 → exec (.schEntryWrite who v) s = .next (done s who { e with sch := { e.sch with
       store := Tab.put e.sch.store i [e.reg .SCH_ENT0 0, e.reg .SCH_ENT1 0, e.reg .SCH_ENT2 0] } })) ∧
     (∀ a b c, v = 2 → e.schEntry i = [a, b, c] →
       ∃ e', exec (.schEntryRead who v) s = .next (done s who e') ∧ e'.reg .SCH_ENT0 0 = a ∧ e'.reg .SCH_ENT1 0 = b ∧ e'.reg .SCH_ENT2 0 = c ∧
         e'.sch = e.sch)) ∧
   (∀ (who : Acc) (v : Word) (s : State) (n : LinkId), s.block.eng.place who .SCH_LCTL 0 = n.val → legal s who .SCH_LCTL 0 v →
     let e := s.block.eng
     let y := lay e n
     (lctl e n v true false → e.rowSetOk n.val (rowsNamed e n) e.tick.set = true →
       exec (.rowSetApply who v) s = .next (done s who (e.setLayer n.val { y with
         check := some (rowsNamed e n, e.clk.cycle + 3 * (2 ^ (rowsNamed e n).rb * (rowsNamed e n).wpr) + 16, true) }))) ∧
     (lctl e n v false true → e.takeoverDue n.val = false →
       exec (.rowSetCancel who v) s = .next (done s who (e.setLayer n.val { y with pend := none }))) ∧
     (∀ r u j, lctl e n v false true → y.pend = some (r, u, j) → e.takeoverDue n.val = true →
       ∃ e', exec (.rowSetCancel who v) s = .next (done s who e') ∧ (lay e' n).force = some r ∧ (lay e' n).pend = none) ∧
     (v = 1 → e.flag F.SCH_LCTL_EN n.val = false → y.st = 0 →
       ∃ e', exec (.scheduleEnSet who v) s = .next (done s who e') ∧ e'.flag F.SCH_LCTL_EN n.val = true ∧ (lay e' n).enter = true ∧
         (lay e' n).st = if e.flag F.SCH_LCFG_SYNC n.val then 1 else 2) ∧
     (v = 0 → e.flag F.SCH_LCTL_EN n.val = true → y.st ≠ 0 →
       ∃ e', exec (.scheduleEnClear who v) s = .next (done s who e') ∧ e'.flag F.SCH_LCTL_EN n.val = false ∧ lay e' n = { y with offDue := true, offAt := e.clk.cycle + 1 })) ∧
   (∀ (n : LinkId) (s : State) (r : RowSet) (k : Nat) (ok : Bool),
     let e := s.block.eng
     let y := lay e n
     e.awake = true → y.check = some (r, k, ok) → k ≤ e.clk.cycle →
       ∃ e', exec (.rowSetChecksEnd n) s = .next (withEng s e') ∧
         lay e' n = (if ok then { y with check := none, pend := some (r, e.t125, e.takeBoundary n.val r) } else { y with check := none }) ∧
         (ok = false → e'.flag F.SCH_LSTAT_APPLY_ERR n.val = true)) ∧
   (∀ (n : LinkId) (s : State) (r : RowSet) (u : Int) (j : Nat),
     let e := s.block.eng
     let en := e.flag F.SCH_LCTL_EN n.val
     e.awake = true → (lay e n).pend = some (r, u, j) → (en = false ∧ u < e.t125) ∨ (en = true ∧ e.firstCheck n.val r j ≤ e.t125) →
       exec (.rowSetTakeEffect n) s = .next (withEng s (e.setLayer n.val { lay e n with
         force := some r, pend := none, prev := if en then (lay e n).force.map (fun p => (p, j)) else none })))) ∧
  ((∀ (t : Tid) (v : Word) (s : State) (b : Nat) (l : List Nat), s.block.eng.place (.thread t) .SCH_BCTL 0 = b → legal s (.thread t) .SCH_BCTL 0 v →
     let e := s.block.eng
     let len := e.fld F.SCH_BLEN_LEN t.val
     let q := e.val .BSN_NEXTSEQ 0
     (v = 2 → ∃ e', exec (.bufferClear (.thread t) v) s = .next (done s (.thread t) e') ∧ e'.schBuf b = {} ∧
       ∀ p f, (e.schBuf b).seq = some p → e.frame p = some f → ∃ g, e'.frame p = some g ∧ g.buffer = f.buffer.filter (· != b)) ∧
     (v = 1 → e.flag F.SCH_BCFG_SRC b = false → chainOf e t l → l.headD 0 = e.fld F.SCH_BHEAD_HEAD t.val → 1 ≤ len → len ≤ 9216 → l.length = (len + 127) / 128 →
       (e.schBuf b).seq ≠ some q →
       ∃ e' f, exec (.bufferCommit (.thread t) v) s = .next (done s (.thread t) e') ∧
         (e'.schBuf b).seq = some q ∧ (e'.schBuf b).ready = true ∧ (e'.schBuf b).commitAt = e.clk.cycle ∧
         ((e.schBuf b).ready = true → (e.schBuf b).commitAt ≠ e.clk.cycle → (e'.schBuf b).old = (e.schBuf b).seq) ∧
         e'.frame q = some f ∧ f.head = l.headD 0 ∧ f.cells = l.length ∧ f.len = len ∧ f.cls = 7 ∧ f.buffer = [b])) ∧
   (∀ (n : LinkId) (s : State),
     let e := s.block.eng
     let y := lay e n
     let ws := nextStart e n
     let x := nextEntry e n
     let launch := toMod 80 (ws * 2 ^ 17)
     let entry : Sending := { seq := none, gen := none, cls := 7, startCyc := 0, launch := some launch }
     e.awake = true → y.pend = none → e.windowsRun n.val = true → ws - 512 * (e.fld F.SCH_LPREP_PREP n.val : Int) ≤ e.t125 →
       (ws < e.t125 → ∃ e', exec (.windowCheck n) s = .next (withEng s e') ∧ counted e e' 3 n.val 13 ∧ movedOn e e' n ∧ (y.j0, y.w) ∈ (lay e' n).skipped ∧
         e'.links = e.links) ∧
       (e.t125 ≤ ws → e.linkState n.val = 2 → y.st = 2 ∨ y.st = 3 ∨ y.st = 4 →
         (∀ q f, entType x = 1 → e.flag F.SCH_BCFG_SRC (entBuf x) = false → (e.schBuf (entBuf x)).readyFrame e.clk.cycle = some q → e.frame q = some f →
           ∃ e', exec (.windowCheck n) s = .next (withEng s e') ∧ (e'.getLink n.val).handed = (e.getLink n.val).handed ++ [{ entry with seq := some q }] ∧
             movedOn e e' n ∧ (∃ g, e'.frame q = some g ∧ g.sending = f.sending ++ [n.val] ∧ g.launch = some launch)) ∧
         (∀ q f rest, entType x = 1 → e.flag F.SCH_BCFG_SRC (entBuf x) = true → e.fld F.SCH_BCFG_LINK (entBuf x) = n.val → e.queue n.val 7 = q :: rest →
           e.frame q = some f → f.eligible = true → f.cls = 7 →
           ∃ e', exec (.windowCheck n) s = .next (withEng s e') ∧ (e'.getLink n.val).handed = (e.getLink n.val).handed ++ [{ entry with seq := some q }] ∧
             movedOn e e' n ∧ q ∉ e'.queue n.val 7) ∧
         (entType x = 1 → e.bufReady (entBuf x) = false →
           ∃ e', exec (.windowCheck n) s = .next (withEng s e') ∧ counted e e' 3 n.val 2 ∧ movedOn e e' n ∧
             (e'.getLink n.val).handed = (e.getLink n.val).handed ++ [{ entry with gen := some ⟨e.genBytes n.val false y.j0 y.w (entBuf x) ws, false⟩ }]) ∧
         (entType x = 3 → y.st = 3 →
           ∃ e', exec (.windowCheck n) s = .next (withEng s e') ∧ movedOn e e' n ∧
             (e'.getLink n.val).handed = (e.getLink n.val).handed ++ [{ entry with gen := some ⟨e.genBytes n.val true y.j0 y.w 0 ws, true⟩ }]))) ∧
   (∀ (n : LinkId) (s : State),
     let e := s.block.eng
     e.awake = true →
       ((lay e n).refRx ≠ none → exec (.referenceReceive n) s = .next (withEng s (e.setLayer n.val { lay e n with evRef := true }))) ∧
       ((lay e n).st = 1 → exec (.listenTimerExpiry n) s = .next (withEng s (e.setLayer n.val { lay e n with evExpiry := true }))) ∧
       (4 ≤ (lay e n).st → exec (.refWindowMiss n) s = .next (withEng s (e.setLayer n.val { lay e n with evMiss := true })))) ∧
   (∀ (n : LinkId) (e : Eng),
     let y := lay e n
     let e' := e.schEvents n.val
     (y.offAt = e.clk.cycle + 1 → (lay e' n).st = y.st ∧ (lay e' n).refRx = none) ∧
     (y.offAt ≠ e.clk.cycle + 1 → e.linkState n.val ≠ 2 → lay e' n = { y with evRef := false, evMiss := false, evExpiry := false }) ∧
     (∀ r hdr sof g j, noneBefore e n → y.evRef = true → y.refRx = some (hdr, sof) → y.force = some r → y.st = 1 → e.gridFrame e.t125 = some g →
       let o := refOff e n r (sof / 2 ^ 17 : Nat) (refLcc e n hdr)
       let m := 2 ^ e.tick.set.m
       j ∈ framesNear e g → (∀ k ∈ framesNear e g, k ≠ j → (o j).natAbs < (o k).natAbs) →
         (lay e' n).refRx = none ∧ counted e e' 3 n.val 1 ∧
         (e.flag F.SCH_LCFG_ALIGN n.val = true → e.tick.set.f * e.tick.set.p * 256 < (y.d + o j).natAbs → (lay e' n).st = 1 ∧ (lay e' n).d = y.d) ∧
         (e.flag F.SCH_LCFG_ALIGN n.val = true → (y.d + o j).natAbs ≤ e.tick.set.f * e.tick.set.p * 256 → (lay e' n).st = 4 ∧ (lay e' n).d = y.d + o j ∧
           (lay e' n).ccoff = (refLcc e n hdr + m - j / e.tick.set.f % m) % m) ∧
         (e.flag F.SCH_LCFG_ALIGN n.val = false → (lay e' n).d = y.d ∧ (lay e' n).st = if 8 * e.val .SCH_LOFFMAX n.val < (o j).natAbs then 5 else 4)) ∧
     (noneBefore e n → y.refRx = none → (y.evMiss = false ∨ y.st < 4) → y.evExpiry = true → y.st = 1 → y.listen = some 0 →
         (e.fld F.SCH_LCFG_MPRI n.val ≠ 15 → (lay e' n).st = 3 ∧ (lay e' n).listen = none) ∧
         (e.fld F.SCH_LCFG_MPRI n.val = 15 → (lay e' n).st = 1 ∧ (lay e' n).listen = some (e.fld F.SCH_LCFG_LISTEN n.val + 15))) ∧
     (∀ j w d, noneBefore e n → y.refRx = none → y.evMiss = true → y.force ≠ none → e.windowsRun n.val = true → 4 ≤ y.st → e.rxWindow n.val e.t125 = some (j, w, d) →
       w ≠ 0 → y.refDone < j + 1 → (j, 0) ∉ y.skipped →
         counted e e' 3 n.val 7 ∧ (lay e' n).refDone = j + 1 ∧
         (lay e' n).st = if e.fld F.SCH_LCFG_MISSMAX n.val ≤ y.missRun + 1 then 1 else y.st)) ∧
   (∀ (n : LinkId) (s : State) (j : Nat),
     let e := s.block.eng
     let y := lay e n
     e.awake = true → e.gridFrame e.t125 = some j → y.fb < j → y.st ≠ 0 →
       (y.offDue = true → ∃ e', exec (.gridFrameBoundary n) s = .next (withEng s e') ∧ (lay e' n).st = 0 ∧ (lay e' n).offDue = false ∧ (lay e' n).live = false) ∧
       (y.offDue = false → y.enter = true → e.running = true →
         ∃ e', exec (.gridFrameBoundary n) s = .next (withEng s e') ∧ (lay e' n).live = true ∧ (lay e' n).enter = false ∧ (lay e' n).j0 = j ∧ (lay e' n).w = 0 ∧
           (e.flag F.SCH_LCFG_SYNC n.val = false → (lay e' n).st = 2) ∧
           (e.flag F.SCH_LCFG_SYNC n.val = true → y.again = true ∨ y.st = 1 → (lay e' n).st = 1 ∧
             (e.linkState n.val = 2 → (lay e' n).listen = some (e.fld F.SCH_LCFG_LISTEN n.val + e.fld F.SCH_LCFG_MPRI n.val)))) ∧
       (∀ k, y.offDue = false → y.enter = false → y.listen = some k →
         exec (.gridFrameBoundary n) s = .next (withEng s (e.setLayer n.val { y with fb := j, listen := some (k - 1) })))))

/-! ### Reeds and coders -/

namespace Sys2Proof.Claims

open Sys2Proof.Machine Sys2Proof.Safety

/-- Bits [hi:lo] of a word as a number. -/
def fieldOf (w : Word) (hi lo : Nat) : Nat := w.toNat / 2 ^ lo % 2 ^ (hi + 1 - lo)

/-- The engine in which a reed issues: the deliveries due in this cycle have been made (R304, R369). -/
def arrived (s : State) : Eng := s.block.eng.deliverDue

/-- Reed k issues the word w in this cycle (R112, R113, R129). -/
def issues (e : Eng) (k : ReedId) (w : Word) : Prop :=
  let r := e.reed k.val
  e.awake = true ∧ r.st = 2 ∧ r.waitCode = 0 ∧ r.ready ≤ e.clk.cycle ∧ Tab.get 0 r.bank0 r.pc = w

/-- The CRC settings: width, and a constant of it from its two words; the accumulator, whose bits at or above the width read 0 (R155). -/
def crcWidth (e : Eng) (k : ReedId) : Nat := e.fld F.COD_CRCCFG_WM1 k.val + 1
def crcConst (e : Eng) (k : ReedId) (lo hi : Reg) : Nat := (e.val lo k.val + e.val hi k.val * 2 ^ 20) % 2 ^ crcWidth e k
def crcOf (e : Eng) (k : ReedId) (r : Reed) : Nat := r.crc % 2 ^ crcWidth e k

/-- The operands S of R114. -/
def srcOf (e : Eng) (k : ReedId) (r : Reed) (c : Nat) : Word :=
  match c with
  | 0 => r.rxw
  | 1 => r.txw
  | 2 => r.qa
  | 3 => r.qb
  | 4 => r.cdo
  | 5 => word (crcOf e k r)
  | 6 => word (crcOf e k r / 2 ^ 20 % 2 ^ 12)
  | _ => word (r.atime / 2 ^ 20)

/-- A destination D of R114 takes v. -/
def putD (r : Reed) (c : Nat) (v : Word) : Reed :=
  match c with
  | 0 => { r with rxw := v }
  | 1 => { r with txw := v }
  | 2 => { r with qa := v }
  | _ => { r with qb := v }

/-- The reed goes on without a jump: after TOP comes BOTTOM, or, with a swap pending from an earlier cycle, ENTRY of the banks exchanged (R129, R130). -/
def nextWord (e : Eng) (r : Reed) : Reed :=
  if r.pc = fieldOf r.wrap0 5 0 then
    (if r.swap = true ∧ r.swapAt ≠ e.clk.cycle + 1 then
      { r with bank0 := r.bank1, bank1 := r.bank0, wrap0 := r.wrap1, wrap1 := r.wrap0, abank := !r.abank, swap := false, pc := fieldOf r.wrap1 17 12 }
     else { r with pc := fieldOf r.wrap0 11 6 })
  else { r with pc := (r.pc + 1) % 64 }

/-- The reed after an instruction that takes `cost` cycles and does not jump (R113). -/
def goOn (e : Eng) (cost : Nat) (r : Reed) : Reed := { nextWord e r with waitCode := 0, ready := e.clk.cycle + cost }

/-- The samples whose path ends with this cycle (R109). -/
def arriving (e : Eng) (r : Reed) : List Bool := (r.ipath.filter (fun x => decide (x.1 + 2 ≤ e.clk.cycle))).flatMap (·.2)

/-- The instructions of R113 that change their reed alone. -/
inductive ReedOp where
  | nop | sin | sout | mov | ldi | ldh | and | or | xor | add | sub | shl | shr | not | shi | waite
  | setpLevel | setpMasked | setpEnable | setpEnables | pullm | init | feed | tld | tadd
  | postPin | postOstart | postFire | mark

def ReedOp.cmd (k : ReedId) : ReedOp → Instr
  | .nop => .reedNop k
  | .sin => .reedSin k
  | .sout => .reedSout k
  | .mov => .reedMov k
  | .ldi => .reedLdi k
  | .ldh => .reedLdh k
  | .and => .reedAnd k
  | .or => .reedOr k
  | .xor => .reedXor k
  | .add => .reedAdd k
  | .sub => .reedSub k
  | .shl => .reedShl k
  | .shr => .reedShr k
  | .not => .reedNot k
  | .shi => .reedShi k
  | .waite => .reedWaite k
  | .setpLevel => .reedSetpLevel k
  | .setpMasked => .reedSetpMasked k
  | .setpEnable => .reedSetpEnable k
  | .setpEnables => .reedSetpEnables k
  | .pullm => .reedPullm k
  | .init => .reedCrcInit k
  | .feed => .reedCrcFeed k
  | .tld => .reedTld k
  | .tadd => .reedTadd k
  | .postPin => .reedPostPin k
  | .postOstart => .reedPostOstart k
  | .postFire => .reedPostFire k
  | .mark => .reedMark k

/-- Opcode and operand fields of R113: a word of the operation with listed operands. -/
def ReedOp.isWord (w : Word) : ReedOp → Prop
  | .nop => w = 0
  | .sin => fieldOf w 19 15 = 0x01 ∧ fieldOf w 9 0 = 0
  | .sout => fieldOf w 19 15 = 0x02 ∧ fieldOf w 9 0 = 0
  | .mov => fieldOf w 19 15 = 0x03 ∧ fieldOf w 9 0 = 0
  | .ldi => fieldOf w 19 15 = 0x04
  | .ldh => fieldOf w 19 15 = 0x05 ∧ fieldOf w 5 0 = 0
  | .and => fieldOf w 19 15 = 0x06 ∧ fieldOf w 9 7 = 0 ∧ fieldOf w 6 0 = 0
  | .or => fieldOf w 19 15 = 0x06 ∧ fieldOf w 9 7 = 1 ∧ fieldOf w 6 0 = 0
  | .xor => fieldOf w 19 15 = 0x06 ∧ fieldOf w 9 7 = 2 ∧ fieldOf w 6 0 = 0
  | .add => fieldOf w 19 15 = 0x06 ∧ fieldOf w 9 7 = 3 ∧ fieldOf w 6 0 = 0
  | .sub => fieldOf w 19 15 = 0x06 ∧ fieldOf w 9 7 = 4 ∧ fieldOf w 6 0 = 0
  | .shl => fieldOf w 19 15 = 0x06 ∧ fieldOf w 9 7 = 5 ∧ fieldOf w 6 0 = 0
  | .shr => fieldOf w 19 15 = 0x06 ∧ fieldOf w 9 7 = 6 ∧ fieldOf w 6 0 = 0
  | .not => fieldOf w 19 15 = 0x06 ∧ fieldOf w 9 7 = 7 ∧ fieldOf w 6 0 = 0
  | .shi => fieldOf w 19 15 = 0x07 ∧ fieldOf w 11 7 < 20 ∧ fieldOf w 6 0 = 0
  | .waite => fieldOf w 19 15 = 0x0B ∧ fieldOf w 14 0 = 0
  | .setpLevel => fieldOf w 19 15 = 0x0C ∧ fieldOf w 14 13 = 0 ∧ fieldOf w 7 0 = 0
  | .setpMasked => fieldOf w 19 15 = 0x0C ∧ fieldOf w 14 13 = 1 ∧ fieldOf w 7 0 = 0
  | .setpEnable => fieldOf w 19 15 = 0x0C ∧ fieldOf w 14 13 = 2 ∧ fieldOf w 7 0 = 0
  | .setpEnables => fieldOf w 19 15 = 0x0C ∧ fieldOf w 14 13 = 3 ∧ fieldOf w 7 0 = 0
  | .pullm => fieldOf w 19 15 = 0x0E ∧ fieldOf w 12 0 = 0
  | .init => fieldOf w 19 15 = 0x12 ∧ fieldOf w 14 13 = 0 ∧ fieldOf w 4 0 = 0
  | .feed => fieldOf w 19 15 = 0x12 ∧ fieldOf w 14 13 = 1 ∧ fieldOf w 9 5 < 20 ∧ fieldOf w 4 0 = 0
  | .tld => fieldOf w 19 15 = 0x14 ∧ fieldOf w 12 0 = 0
  | .tadd => fieldOf w 19 15 = 0x15 ∧ fieldOf w 13 12 < 3
  | .postPin => fieldOf w 19 15 = 0x16 ∧ fieldOf w 14 13 = 0 ∧ fieldOf w 7 0 = 0
  | .postOstart => fieldOf w 19 15 = 0x16 ∧ fieldOf w 14 13 = 1 ∧ fieldOf w 12 0 = 0
  | .postFire => fieldOf w 19 15 = 0x16 ∧ fieldOf w 14 13 = 2 ∧ fieldOf w 12 7 = 0
  | .mark => fieldOf w 19 15 = 0x17 ∧ fieldOf w 13 0 = 0

/-- The field n of SIN and SOUT, whole shifts of W signals (R110). -/
def stageBits (w : Word) : Nat := fieldOf w 14 10 + 1

/-- Signal p is one the reed may drive (R104). -/
def mayDrive (e : Eng) (k : ReedId) (p : Nat) : Prop := (e.reg .REED_PINS k.val).getLsbD p = true

/-- What lets the operation complete at once: bits in the input stage, an empty output stage, a task input, a mailbox word of an earlier cycle, a free place
for an action, signals that it may drive. -/
def ReedOp.ready (e : Eng) (k : ReedId) (w : Word) (r : Reed) : ReedOp → Prop
  | .sin => stageBits w ≤ 20 ∧ stageBits w % 2 ^ e.fld F.REED_CFG_IW k.val = 0 ∧ stageBits w ≤ (r.istage ++ arriving e r).length
  | .sout => stageBits w ≤ 20 ∧ stageBits w % 2 ^ e.fld F.REED_CFG_OW k.val = 0 ∧ r.ostage = [] ∧
      ∀ i, i < 2 ^ e.fld F.REED_CFG_OW k.val → mayDrive e k (e.fld F.REED_CFG_OBASE k.val + i)
  | .waite => r.ev ≠ 0
  | .setpLevel | .setpEnable => mayDrive e k (fieldOf w 12 9)
  | .setpMasked | .setpEnables => ∀ p, p < 16 → r.qa.getLsbD p = true → mayDrive e k p
  | .pullm => ∃ v c, r.mbx = some (v, c) ∧ c < e.clk.cycle
  | .postPin => r.acts.length < 4 ∧ mayDrive e k (fieldOf w 12 9)
  | .postOstart | .postFire => r.acts.length < 4
  | _ => True

/-- A bit as a word. -/
def bitWord (b : Bool) : Word := if b then 1 else 0

/-- The value of a list of bits, the first the least significant; the first the most significant. -/
def lsbFirst : List Bool → Word
  | [] => 0
  | b :: t => bitWord b + (lsbFirst t <<< 1)
def msbFirst (l : List Bool) : Word := lsbFirst l.reverse

/-- The n bits of a word, least significant first. -/
def wordBits (n : Nat) (w : Word) : List Bool := (List.range n).map (fun i => w.getLsbD i)

/-- A change of the output signals of mask m three cycles later (R104). -/
def pinSet (e : Eng) (enable : Bool) (m v : Nat) (r : Reed) : Reed := { r with sets := r.sets ++ [⟨e.clk.cycle + 3, enable, m, v⟩] }

/-- A posted action (R117). -/
def posted (e : Eng) (kind : Nat) (w : Word) (r : Reed) (start : Option (Option Nat)) : Reed :=
  { r with acts := r.acts ++ [⟨r.atime, kind, fieldOf w 12 9, w.getLsbD 8, fieldOf w 6 0, e.clk.cycle, start⟩] }

/-- What R104, R110, R113 to R117, R123, R124, R155 say the operation does to its reed. -/
def ReedOp.does (e : Eng) (k : ReedId) (w : Word) (r : Reed) : ReedOp → Reed
  | .nop => r
  | .sin =>
    let n := stageBits w
    let (b, x) := (r.takeBits n e.clk.cycle).getD ([], r)
    let f := if e.flag F.REED_CFG_IDIR k.val then lsbFirst b else msbFirst b
    { x with rxw := if e.flag F.REED_CFG_IJUST k.val then (r.rxw >>> n) + (f <<< (20 - n)) else (r.rxw <<< n) + f }
  | .sout =>
    let n := stageBits w
    let f := if e.flag F.REED_CFG_OJUST k.val then r.txw >>> (20 - n) else r.txw
    { r with ostage := if e.flag F.REED_CFG_ODIR k.val then wordBits n f else (wordBits n f).reverse, ofrom := e.clk.cycle + 3,
             markOut := if r.markOut = 1 then 2 else r.markOut }
  | .mov => putD r (fieldOf w 14 13) (srcOf e k r (fieldOf w 12 10))
  | .ldi => putD r (fieldOf w 14 13) (word (fieldOf w 12 0))
  | .ldh => putD r (fieldOf w 14 13) (word (fieldOf w 12 6 * 2 ^ 13 + (srcOf e k r (fieldOf w 14 13)).toNat % 2 ^ 13))
  | .and => putD r (fieldOf w 14 13) (srcOf e k r (fieldOf w 14 13) &&& srcOf e k r (fieldOf w 12 10))
  | .or => putD r (fieldOf w 14 13) (srcOf e k r (fieldOf w 14 13) ||| srcOf e k r (fieldOf w 12 10))
  | .xor => putD r (fieldOf w 14 13) (srcOf e k r (fieldOf w 14 13) ^^^ srcOf e k r (fieldOf w 12 10))
  | .add => putD r (fieldOf w 14 13) (srcOf e k r (fieldOf w 14 13) + srcOf e k r (fieldOf w 12 10))
  | .sub => putD r (fieldOf w 14 13) (srcOf e k r (fieldOf w 14 13) - srcOf e k r (fieldOf w 12 10))
  | .shl => putD r (fieldOf w 14 13) (srcOf e k r (fieldOf w 14 13) <<< ((srcOf e k r (fieldOf w 12 10)).toNat % 32))
  | .shr => putD r (fieldOf w 14 13) (srcOf e k r (fieldOf w 14 13) >>> ((srcOf e k r (fieldOf w 12 10)).toNat % 32))
  | .not => putD r (fieldOf w 14 13) (~~~srcOf e k r (fieldOf w 12 10))
  | .shi => putD r (fieldOf w 14 13) (if w.getLsbD 12 then srcOf e k r (fieldOf w 14 13) >>> fieldOf w 11 7 else srcOf e k r (fieldOf w 14 13) <<< fieldOf w 11 7)
  | .waite => { r with ev := r.ev - 1 }
  | .setpLevel => pinSet e false (2 ^ fieldOf w 12 9) (if w.getLsbD 8 then 2 ^ fieldOf w 12 9 else 0) r
  | .setpEnable => pinSet e true (2 ^ fieldOf w 12 9) (if w.getLsbD 8 then 2 ^ fieldOf w 12 9 else 0) r
  | .setpMasked => pinSet e false (r.qa.toNat % 2 ^ 16) ((r.qb &&& r.qa).toNat % 2 ^ 16) r
  | .setpEnables => pinSet e true (r.qa.toNat % 2 ^ 16) ((r.qb &&& r.qa).toNat % 2 ^ 16) r
  | .pullm => putD { r with mbx := none } (fieldOf w 14 13) ((r.mbx.getD (0, 0)).1)
  | .init => { r with crc := crcConst e k .COD_SEED0 .COD_SEED1 }
  | .feed =>
    let b := wordBits (fieldOf w 9 5 + 1) (srcOf e k r (fieldOf w 12 10))
    let refl := e.flag F.COD_CRCCFG_REFL k.val
    { r with crc := crcFeed (crcWidth e k) (e.val .COD_POLY0 k.val + e.val .COD_POLY1 k.val * 2 ^ 20) refl (crcOf e k r) (if refl then b else b.reverse) }
  | .tld =>
    let t := match fieldOf w 14 13 with
      | 0 => r.capt
      | 1 => r.flt
      | 2 => e.t80
      | _ => r.tset
    { r with atime := t - t % 2 ^ 17 }
  | .tadd =>
    let v : Int := if w.getLsbD 14 then r.qa.toInt else (BitVec.ofNat 12 (fieldOf w 11 0)).toInt
    let u : Int := match fieldOf w 13 12 with
      | 0 => 2 ^ 17
      | 1 => 2 ^ 23
      | _ => 2 ^ 30
    { r with atime := (((r.atime : Int) + v * u) % 2 ^ 80).toNat }
  | .postPin => posted e 0 w r none
  | .postOstart => { posted e 1 w r r.frame with frame := none }
  | .postFire => posted e 2 w r none
  | .mark =>
    if w.getLsbD 14 then (if (e.txLink k.val).isSome then { r with markOut := 1 } else r)
    else if (e.rxLink k.val).isSome then { r with markIn := r.capt } else r

/-- The condition of a JMP (R115), its pin as PIN. -/
def jmpHolds (e : Eng) (k : ReedId) (r : Reed) (c pin : Nat) : Bool :=
  match c with
  | 0 => true
  | 1 => r.qa == 0
  | 2 => r.qa != 0
  | 3 => r.qb == 0
  | 4 => r.qb != 0
  | 5 => e.pinLevel k.val (·.pins3) pin
  | 6 => !e.pinLevel k.val (·.pins3) pin
  | 7 => r.ev != 0
  | 8 => r.cv
  | 9 => r.ck
  | 10 => crcOf e k r == crcConst e k .COD_CHECK0 .COD_CHECK1
  | 11 => r.first
  | 12 => r.last
  | 13 => r.bad
  | 14 => r.timed
  | _ => r.late

/-- The commands of CODE by mode (R134, R136). -/
def codeCmd (k : ReedId) : List (Instr × (Nat → Nat → Coder → CodeOut)) :=
  [(.pass k, codePass), (.nrziTx k, codeNrziTx), (.nrziRx k, codeNrziRx), (.manTx k, codeManTx), (.manRx k, codeManRx), (.b4b5Tx k, codeB4b5Tx),
   (.b4b5Rx k, codeB4b5Rx), (.t1lTx k, codeT1lTx), (.t1lRx k, codeT1lRx), (.b8b10Tx k, codeB8b10Tx), (.b8b10Rx k, codeB8b10Rx), (.hdlcTx k, codeHdlcTx),
   (.hdlcRx k, codeHdlcRx), (.canTx k, codeCanTx), (.canRx k, codeCanRx), (.asyncTx k, codeAsyncTx), (.asyncRx k, codeAsyncRx)]

/-- The reed is STOPPED with a cause: its actions and stages are empty, its slots at reset (R125, R135). -/
def stoppedWith (e : Eng) (k : ReedId) (cause : Nat) : Prop :=
  let r := e.reed k.val
  r.st = 0 ∧ r.acts = [] ∧ r.istage = [] ∧ r.ostage = [] ∧ r.slots = [] ∧ r.waitCode = 0 ∧ e.fld F.REED_STAT_CAUSE k.val = cause

/-- The time that a write of v to REEDk_TSET0 commits (R116, R133). -/
def tsetStaged (e : Eng) (k : ReedId) (v : Word) : Nat :=
  (v.toNat - v.toNat % 2 ^ 17) + e.val .REED_TSET (4 * k.val + 1) * 2 ^ 20 + e.val .REED_TSET (4 * k.val + 2) * 2 ^ 40 +
    e.val .REED_TSET (4 * k.val + 3) * 2 ^ 60

/-- The banks and wrap sets exchanged (R129, R130). -/
def exchanged (r x : Reed) : Prop := x.bank0 = r.bank1 ∧ x.bank1 = r.bank0 ∧ x.wrap0 = r.wrap1 ∧ x.wrap1 = r.wrap0 ∧ x.abank = !r.abank

/-- The reed runs from ENTRY of its active bank, its first issue in the next cycle (R125). -/
def started (e e' : Eng) (k : Nat) : Prop :=
  (e'.reed k).st = 2 ∧ (e'.reed k).pc = fieldOf (e.reed k).wrap0 17 12 ∧ (e'.reed k).waitCode = 0 ∧ (e'.reed k).ready = e.clk.cycle + 1

end Sys2Proof.Claims

/-- R104, R109 to R117, R123, R124, R129, R155: an instruction of these whose word is at PC, which may complete, writes what its row of R113 says to its reed, and the reed goes on at the
next word a cycle later; beside the deliveries of its cycle nothing else changes. SIN takes the oldest bits of the stage and of the samples that enter it in its cycle. -/
def Obligations.ReedInstructionsWriteTheirReed : Prop :=
  (∀ (o : ReedOp) (k : ReedId) (s : State) (w : Word),
    let e := arrived s
    let r := e.reed k.val
    issues e k w → o.isWord w → o.ready e k w r →
      exec (o.cmd k) s = .next (withEng s (e.setReed k.val (goOn e 1 (o.does e k w r))))) ∧
  (∀ (e : Eng) (r : Reed) (n : Nat), n ≤ (r.istage ++ arriving e r).length →
    ∃ x, r.takeBits n e.clk.cycle = some ((r.istage ++ arriving e r).take n, x) ∧ x.istage ++ arriving e x = (r.istage ++ arriving e r).drop n ∧
      x.istage = r.istage.drop n ∧ x.ipath.filter (fun y => decide (e.clk.cycle < y.1 + 2)) = r.ipath.filter (fun y => decide (e.clk.cycle < y.1 + 2)))

/-- R112, R115, R124: JMP goes to its target where its condition holds, clearing LATE where that is the condition, else on; DJNZ decrements and jumps while the result is not 0; a NOP with a count and
a WAITP wait; FIRE fires its channel; STOP stops the reed with PROG, and a word of no opcode with ILLEGAL.

R106, R119, R120, R122: PUSHF gives its operand to the FIFO, which has it from the next cycle on; PUSHS gives a word with tag 1 to the link of an RXR that is UP and idle, where it opens a frame
with the time of MARK; PULLS takes the next word of the frame in transmission; DRST restarts a divider of the input side, its stage emptied, the output side as it was. -/
def Obligations.ReedControlAndStreamInstructions : Prop :=
  (∀ (k : ReedId) (s : State) (w : Word),
     let e := arrived s
     let r := e.reed k.val
     let c := e.clk.cycle
     issues e k w →
     let s' (x : Reed) : State := withEng s (e.setReed k.val x)
     (fieldOf w 19 15 = 0x08 → w.getLsbD 6 = false →
       let r' := if fieldOf w 14 11 = 15 then { r with late := false } else r
       exec (.reedJmp k) s = .next (s' (if jmpHolds e k r (fieldOf w 14 11) (fieldOf w 10 7)
         then { r' with pc := fieldOf w 5 0, waitCode := 0, ready := c + 1 } else goOn e 1 r'))) ∧
     (fieldOf w 19 15 = 0x09 → fieldOf w 13 6 = 0 →
       let d := if w.getLsbD 14 then 3 else 2
       let r' := putD r d (srcOf e k r d - 1)
       exec (.reedDjnz k) s = .next (s' (if srcOf e k r d = 1 then goOn e 1 r' else { r' with pc := fieldOf w 5 0, waitCode := 0, ready := c + 1 }))) ∧
     (fieldOf w 19 15 = 0x00 → w ≠ 0 → exec (.reedNop k) s = .next (s' { r with waitCode := 10, waitUntil := c + fieldOf w 14 0 + 1 })) ∧
     (fieldOf w 19 15 = 0x0A → fieldOf w 8 0 = 0 → exec (.reedWaitp k) s = .next (s' { r with waitCode := 3 })) ∧
     (fieldOf w 19 15 = 0x18 → fieldOf w 14 7 = 0 → e.muted (fieldOf w 6 0) = false → Tab.get 0 e.cwy.last (4 * fieldOf w 6 0 + k.val / 16) ≠ c + 1 →
       Tab.get 0 e.cwy.unmuted (fieldOf w 6 0) ≠ c + 1 → Tab.get 0 e.cwy.count (fieldOf w 6 0) + 1 ≤ e.fld F.CWY_FLOOD_LIMIT 0 →
       ∃ e', exec (.reedFire k) s = .next (withEng s e') ∧ e'.reed k.val = goOn e 1 r ∧ e'.flag F.CWY_CHCFG_DECL (fieldOf w 6 0) = true ∧
         e'.cwy.inflight = e.cwy.inflight ++ [⟨fieldOf w 6 0, k.val / 16, c, BitVec.ofNat 80 (e.clk.sun.toNat / 2 ^ 20), false⟩]) ∧
     (fieldOf w 19 15 = 0x19 → fieldOf w 14 0 = 0 → ∃ e', exec (.reedStopInsn k) s = .next (withEng s e') ∧ stoppedWith e' k 1) ∧
     (0x1A ≤ fieldOf w 19 15 → ∃ e', exec (.reedStopInsn k) s = .next (withEng s e') ∧ stoppedWith e' k 3)) ∧
  (∀ (k : ReedId) (s : State) (w : Word),
     let e := arrived s
     let r := e.reed k.val
     issues e k w →
     (fieldOf w 19 15 = 0x0D → fieldOf w 11 0 = 0 → r.fifo.length + r.fpops < 8 →
       ∃ e', exec (.reedPushf k) s = .next (withEng s e') ∧ e'.reed k.val = goOn e 1 { r with fpush := r.fpush ++ [srcOf e k r (fieldOf w 14 12)] }) ∧
     (∀ n : LinkId, fieldOf w 19 15 = 0x0F → fieldOf w 5 0 = 0 → fieldOf w 11 10 = 0 → fieldOf w 9 6 = 1 → e.rxLink k.val = some n.val → e.linkState n.val = 2 →
       (ing e n).seq = none → (ing e n).beats.length < 2 → 2 ≤ e.val .LNK_MAXLEN n.val → 0 < e.freeCells → e.sw.free.voided = [] → (∃ c, headOfFree e.sw.free c) →
       ∃ e', exec (.reedPushs k) s = .next (withEng s e') ∧ e'.reed k.val = goOn e 1 { r with markIn := 0 } ∧ (ing e' n).seq = some (e.val .BSN_NEXTSEQ 0) ∧
         (ing e' n).sof = r.markIn ∧ (ing e' n).hdr = twoOf (srcOf e k r (fieldOf w 14 12))) ∧
     (∀ (n : LinkId) (x : Sending) (v : Word) (rest : List Word), fieldOf w 19 15 = 0x10 → fieldOf w 12 0 = 0 → e.txLink k.val = some n.val →
       (e.getLink n.val).eg = some x → x.buf = v :: rest → x.launch = none →
       let tag := v.toNat / 2 ^ 16
       let first := !x.started
       ∃ e', exec (.reedPulls k) s = .next (withEng s e') ∧ e'.reed k.val = goOn e 1 (putD { r with
           first := decide (tag = 1 ∨ (tag = 2 ∧ first = true)), last := decide (2 ≤ tag), bad := decide (tag = 8),
           timed := if first then false else r.timed, frame := if first then some none else r.frame } (fieldOf w 14 13) v) ∧
         (tag < 2 → (e'.getLink n.val).eg = some { x with started := true, buf := rest }) ∧ (2 ≤ tag → (e'.getLink n.val).eg = none)) ∧
     (fieldOf w 19 15 = 0x13 → fieldOf w 11 0 = 0 → fieldOf w 14 13 = 1 → w.getLsbD 12 = false → r.dset = false → e.flag F.REED_CLK_ISRC k.val = false →
       let per := e.val .REED_DIVI k.val * 2 ^ 20 + e.val .REED_DIVF k.val
       0 < per →
       ∃ e', exec (.reedDrst k) s = .next (withEng s e') ∧ (e'.reed k.val).istage = [] ∧ (e'.reed k.val).ipath = [] ∧ (e'.reed k.val).iside.per = per ∧
         (e'.reed k.val).iside.next = e.clk.cycle * 2 ^ 20 + e.val .REED_PHASE k.val * 2 ^ 16 ∧ (e'.reed k.val).iside.last = r.iside.last ∧
         (e'.reed k.val).oside = r.oside ∧ (e'.reed k.val).pc = (goOn e 1 r).pc))

/-- R134 to R136, R155: a CODE on a slot takes two cycles: its outcome is the function of the slot's mode, of its PARAM, the operand and the slot's state as it issues; at the end of its second cycle
CDO, CK, CV and the slot's state have it, the CRC is fed where C is 1, and a request takes effect.

R138 to R143, R145 to R147, R152: the coders undo each other: what an NRZI transmitter sends a receiver at the same level decodes; every byte's Manchester half-bits, every nibble's quint and
every byte's 8b/10b group at both disparities decode to it; HDLC inserts a bit after five ones and no other; an asynchronous character decodes without an error. -/
def Obligations.CodersApplyTheirCode : Prop :=
  ((∀ (k : ReedId) (s : State) (w : Word) (m : Nat) (c : Instr) (f : Nat → Nat → Coder → CodeOut),
     let e := s.block.eng
     (codeCmd k)[m]? = some (c, f) → issues e k w → fieldOf w 19 15 = 0x11 → fieldOf w 7 0 = 0 → e.fld F.COD_MODE_MODE (8 * k.val + fieldOf w 11 9) = m →
       let r := e.reed k.val
       let j := fieldOf w 11 9
       let out := f (e.val .COD_PARAM (8 * k.val + j)) (srcOf e k r (fieldOf w 14 12)).toNat (Tab.get {} r.slots j)
       exec c s = .next (withEng s (e.setReed k.val { r with
         code := some ⟨e.clk.cycle + 1, j, w.getLsbD 8, out, r.iside.last⟩, ready := e.clk.cycle + 2 }))) ∧
   (∀ (k : ReedId) (e : Eng) (p : CodePend),
     let r := e.reed k.val
     let refl := e.flag F.COD_CRCCFG_REFL k.val
     let crc := if p.crc then crcFeed (crcWidth e k) (e.val .COD_POLY0 k.val + e.val .COD_POLY1 k.val * 2 ^ 20) refl (crcOf e k r) p.out.feed else r.crc
     r.code = some p → p.till ≤ e.clk.cycle →
       (p.out.req = none → e.codeEnd k.val = e.setReed k.val (nextWord e { r with
         cdo := word p.out.cdo, cv := p.out.cv, ck := p.out.ck, slots := Tab.put r.slots p.slot p.out.st, code := none, crc := crc })) ∧
       (∀ q, p.out.req = some q →
         let x := (e.codeEnd k.val).reed k.val
         x.cdo = word p.out.cdo ∧ x.code = none ∧ x.crc = crc ∧ (q = 6 → x.hold = true) ∧ (q = 7 → x.hold = false) ∧ (q = 4 → x.dset = true) ∧
           (q < 4 ∨ q = 5 → x.dset = false)))) ∧
  ((∀ (p v : Nat) (c d : Coder), v < 2 ^ (p % 32 + 1) → p % 32 < 19 → c.lev = d.lev →
     (codeNrziRx p (codeNrziTx p v c).cdo d).cdo = v ∧ (codeNrziRx p (codeNrziTx p v c).cdo d).st.lev = (codeNrziTx p v c).st.lev) ∧
   (∀ (p v : Nat) (c d : Coder), v < 256 → d.lock = some 0 →
     (codeManRx p (codeManTx p v c).cdo d).cdo = v ∧ (codeManRx p (codeManTx p v c).cdo d).cv = false) ∧
   (∀ (p v : Nat) (c d : Coder), v < 2 ^ 16 → d.lock = some 0 →
     (codeB4b5Rx p (codeB4b5Tx p v c).cdo d).cdo = v ∧ (codeB4b5Rx p (codeB4b5Tx p v c).cdo d).cv = false) ∧
   (∀ (p v : Nat) (c d : Coder), v < 2 ^ 16 → c.rd = d.rd → d.lock = some 0 →
     (codeB8b10Rx p (codeB8b10Tx p v c).cdo d).cdo = v ∧ (codeB8b10Rx p (codeB8b10Tx p v c).cdo d).st.rd = (codeB8b10Tx p v c).st.rd) ∧
   (∀ (p v : Nat) (c : Coder), v < 2 ^ 19 →
     ((codeHdlcTx p v c).ck = true ↔ (v % 2 = 1 ∧ c.ones = 4)) ∧ (v % 2 = 0 → (codeHdlcTx p v c).st.ones = 0)) ∧
   (∀ (p v : Nat) (c d : Coder), v < 2 ^ (p % 8 + 5) → p % 8 < 5 → p / 8 % 8 < 5 → p / 128 % 32 = 0 →
     (codeAsyncRx p (codeAsyncTx p v c).cdo d).cdo = v ∧ (codeAsyncRx p (codeAsyncTx p v c).cdo d).cv = false))

/-- R116, R122, R123, R125, R126, R128 to R131, R133, R135, R159: the registers of a reed: START and ARM, HALT, which prevails over a START of its cycle, SWAP and FORCE, which takes place as its cycle ends, the sync
event of a pavilion, mailbox, FIFO, program words, committed time, slots; what a cycle pushed or committed stands from the next one on. -/
def Obligations.ReedRegistersControlReed : Prop :=
  (∀ (who : Acc) (k : ReedId) (v : Word) (s : State), legal s who .REED_CTL k.val v →
    let e := s.block.eng
    let r := e.reed k.val
    let c := e.clk.cycle + 1
    (v = 1 → r.st ≠ 2 → r.haltAt ≠ c → ∃ e', exec (.reedStart who k v) s = .next (done s who e') ∧ started e e' k.val) ∧
    (v = 1 → r.st = 2 ∨ r.haltAt = c → exec (.reedStart who k v) s = .next (done s who e)) ∧
    (v = 2 → r.st = 0 → exec (.reedArm who k v) s = .next (done s who (e.setReed k.val { r with st := 1 }))) ∧
    (v = 4 → r.st ≠ 0 → r.startAt ≠ c → ∃ e', exec (.reedHalt who k v) s = .next (done s who e') ∧ stoppedWith e' k 2) ∧
    (v = 4 → r.startAt = c → r.startOf.1 = 0 → ∃ e', exec (.reedHalt who k v) s = .next (done s who e') ∧ (e'.reed k.val).st = 0 ∧ (e'.reed k.val).pc = r.startOf.2) ∧
    (v = 8 → ∃ e', exec (.reedSwap who k v) s = .next (done s who e') ∧
      (r.st ≠ 2 → exchanged r (e'.reed k.val)) ∧ (r.st = 2 → e'.reed k.val = { r with swap := true, swapAt := c })) ∧
    (v = 16 → ∃ e', exec (.reedForce who k v) s = .next (done s who e') ∧ (r.st ≠ 2 → exchanged r (e'.reed k.val)) ∧
      (r.st = 2 → e'.reed k.val = { r with force := true, swap := false }))) ∧
  (∀ (k : ReedId) (e : Eng),
    let r := e.reed k.val
    let x := (e.forceEnd k.val).reed k.val
    (r.force = true → r.st = 2 → r.code = none → exchanged r x ∧ x.force = false ∧ x.pc = fieldOf r.wrap1 17 12 ∧ x.waitCode = 0 ∧
      (r.waitCode = 0 → x.ready = max r.ready (e.clk.cycle + 1)) ∧
      (r.waitCode ≠ 0 → x.ready = e.clk.cycle + 2 ∧ (e.forceEnd k.val).flag F.REED_STAT_ABANDON k.val = true)) ∧
    (r.force = false ∨ (r.st = 2 ∧ r.code ≠ none) → e.forceEnd k.val = e) ∧
    r.endCycle true = { r with fifo := r.fifo ++ r.fpush, fpush := [], fpops := 0, tset := r.tsetNext.getD r.tset, tsetNext := none }) ∧
  (∀ (who : Acc) (p : Pav) (v : Word) (s : State), legal s who .REED_SYNC (16 * p.val) v → v.getLsbD 9 = true →
    ∃ e', exec (.reedSyncGo who p v) s = .next (done s who e') ∧ ∀ i, i < 16 →
      let k := 16 * p.val + i
      (s.block.eng.flag F.REED_CFG_SYNC k = true → (s.block.eng.reed k).st = 1 → (s.block.eng.reed k).haltAt ≠ s.block.eng.clk.cycle + 1 →
        started s.block.eng e' k) ∧
      (s.block.eng.flag F.REED_CFG_SYNC k = false → e'.reed k = s.block.eng.reed k)) ∧
  (∀ (who : Acc) (k : ReedId) (v : Word) (s : State),
    let e := s.block.eng
    let r := e.reed k.val
    (legal s who .REED_MBX k.val v → r.mbx = none →
      exec (.reedMbxWrite who k v) s = .next (done s who (e.setReed k.val { r with mbx := some (v, e.clk.cycle) }))) ∧
    (legal s who .REED_MBX k.val v → r.mbx ≠ none →
      ∃ e', exec (.reedMbxWrite who k v) s = .next (done s who e') ∧ e'.reed k.val = r ∧ e'.flag F.REED_STAT_MB_OVF k.val = true) ∧
    (∀ t a rest, who = .thread t → e.fld F.REED_OWN_TID k.val = t.val → mayRead e who .REED_FIFO k.val = true → r.fifo = a :: rest →
      ∃ e', exec (.reedFifoRead who k) s = .next (withEng s e') ∧ answered e' who a.toNat ∧ e'.reed k.val = { r with fifo := rest, fpops := r.fpops + 1 }) ∧
    (legal s who .REED_PDATA k.val v →
      ∃ e', exec (.programWrite who k v) s = .next (done s who e') ∧ e'.fld F.REED_PADDR_ADDR k.val = (e.fld F.REED_PADDR_ADDR k.val + 1) % 64 ∧
        e'.reed k.val = { r with bank1 := Tab.put r.bank1 (e.fld F.REED_PADDR_ADDR k.val) v }) ∧
    (legal s who .REED_TSET (4 * k.val) v →
      ∃ e', exec (.tsetCommit who k v) s = .next (done s who e') ∧ e'.reed k.val = { r with tsetNext := some (tsetStaged e k v) })) ∧
  (∀ (who : Acc) (v : Word) (s : State) (k : ReedId),
    let e := s.block.eng
    let r := e.reed k.val
    (legal s who .COD_CTL 0 v → e.place who .COD_CTL 0 = k.val → v = 1 →
      ∃ e', exec (.slotReset who v) s = .next (done s who e') ∧ Tab.get {} (e'.reed k.val).slots (e.fld F.COD_SEL_SLOT 0) = {} ∧
        ∀ j, j ≠ e.fld F.COD_SEL_SLOT 0 → Tab.get {} (e'.reed k.val).slots j = Tab.get {} r.slots j) ∧
    (legal s who .COD_CTL 0 v → e.place who .COD_CTL 0 = k.val → v = 2 →
      exec (.slotResetAll who v) s = .next (done s who (e.setReed k.val { r with slots := [] }))) ∧
    (∀ j, j < 8 → legal s who .COD_MODE 0 v → e.place who .COD_MODE 0 = 8 * k.val + j →
      ∃ e', exec (.codModeWrite who v) s = .next (done s who e') ∧ e'.fld F.COD_MODE_MODE (8 * k.val + j) = fieldOf v 4 0 ∧ e'.reg .COD_PARAM (8 * k.val + j) = 0 ∧
        Tab.get {} (e'.reed k.val).slots j = {}))

/-- R66, R70, R71, R102, R105, R107, R109, R111, R115, R117, R118, R127, R153, R154: what happens to a running reed. A tick of its divider, at the phase of the tick, or the chosen edge of its clock pin
samples the W input signals; a tick drives the next W output bits; a WAITP whose level is there completes two cycles later, an edge with its time in CAPT; a WAITE goes on with a task; a pending PIN
action whose time has come sets its signal, one whose time has passed with LATE; a tracked edge moves each side that it is not before the restart of by the error, within SJW; in NAP and DORMANT what the reed
waits for moves on with it. -/
def Obligations.ReedEventsActOnRunningReed : Prop :=
  (∀ (k : ReedId) (n : LinkId) (s : State),
    let e := s.block.eng
    let r := e.reed k.val
    let c := e.clk.cycle
    e.awake = true → r.st = 2 → e.reedLink k.val = some n.val →
    (∀ (pins : BitVec 16) (ph : Fin 16),
      let lv := e.levelsWith n.val pins.toNat
      let was := (e.getLink n.val).pins
      let pin := e.fld F.REED_CLK_IPIN k.val
      let fall := e.flag F.REED_CLK_IEDGE k.val
      let bits := (List.range (2 ^ e.fld F.REED_CFG_IW k.val)).map (fun i => lv.testBit (e.fld F.REED_CFG_IBASE k.val + i))
      let x := 16 * c + ph.val
      (e.flag F.REED_CLK_ISRC k.val = false → r.iside.next / 2 ^ 16 = x →
        ∃ e', exec (.inputTick k pins ph) s = .next (withEng s e') ∧ (e'.getLink n.val).pins = lv ∧ (e'.reed k.val).ipath = r.ipath ++ [(c, bits)] ∧
          (e'.reed k.val).iside = { r.iside with last := r.iside.next, next := ((r.iside.next + r.iside.per : Nat) + r.iside.shift).toNat, shift := 0 } ∧
          (e'.reed k.val).lastSample = bits.headD false ∧ (e'.reed k.val).corrected = false) ∧
      (e.flag F.REED_CLK_ISRC k.val = true → r.iside.after ≤ x * 2 ^ 16 → (e.getLink n.val).chg ≠ x + 1 → was.testBit pin = fall → lv.testBit pin = !fall →
        ∃ e', exec (.inputTick k pins ph) s = .next (withEng s e') ∧ (e'.reed k.val).ipath = r.ipath ++ [(c, bits)] ∧ (e'.reed k.val).iside.last = x * 2 ^ 16)) ∧
    (∀ (ph : Fin 16), e.flag F.REED_CLK_OSRC k.val = false → r.oside.next / 2 ^ 20 = c → r.ostage ≠ [] → r.ofrom ≤ c →
      let base := e.fld F.REED_CFG_OBASE k.val
      let w := 2 ^ e.fld F.REED_CFG_OW k.val
      ∃ e', exec (.outputTick k ph) s = .next (withEng s e') ∧ (e'.reed k.val).ostage = r.ostage.drop w ∧
        (e'.reed k.val).oside = { r.oside with last := r.oside.next, next := ((r.oside.next + r.oside.per : Nat) + r.oside.shift).toNat, shift := 0 } ∧
        ∀ i, (e'.reed k.val).levels.testBit i = if base ≤ i ∧ i < base + w then r.ostage.getD (i - base) false else r.levels.testBit i) ∧
    (∀ (pins : BitVec 16),
      let w := Tab.get 0 r.bank0 r.pc
      (r.waitCode = 3 → r.hit = none → fieldOf w 14 13 ≤ 1 → (e.levelsWith n.val pins.toNat).testBit (fieldOf w 12 9) = decide (fieldOf w 14 13 = 0) →
        ∃ e' t, exec (.reedWaitEnd k pins 15) s = .next (withEng s e') ∧ (e'.reed k.val).hit = some (c, (16 * c + 15) * 2 ^ 16, t)) ∧
      (r.waitCode = 4 → r.ev ≠ 0 → ∃ e', exec (.reedWaitEnd k pins 15) s = .next (withEng s e') ∧ (e'.reed k.val).ev = r.ev - 1 ∧ (e'.reed k.val).waitCode = 0 ∧
        (e'.reed k.val).pc = (goOn e 1 r).pc)) ∧
    (∀ a, r.acts = [a] → a.kind = 0 → a.start = none → a.posted + 6 ≤ c → a.pin < 16 →
      (e.t80 ≤ a.time → a.time < e.clk.plainNext.toNat / 2 ^ 20 →
        ∃ e', exec (.reedActionExecute k) s = .next (withEng s e') ∧ (e'.reed k.val).acts = [] ∧ (e'.reed k.val).late = r.late ∧
          ∀ i, (e'.reed k.val).levels.testBit i = if i = a.pin then a.level else r.levels.testBit i) ∧
      (a.time < e.t80 → e.t80 ≤ e.clk.plainNext.toNat / 2 ^ 20 →
        ∃ e', exec (.reedActionExecute k) s = .next (withEng s e') ∧ (e'.reed k.val).acts = [] ∧ (e'.reed k.val).late = true ∧
          e'.flag F.REED_STAT_LATE k.val = true ∧ e'.flag F.SUN_STAT_ACT_LATE 0 = true ∧
          ∀ i, (e'.reed k.val).levels.testBit i = if i = a.pin then a.level else r.levels.testBit i)) ∧
    (∀ (pins : BitVec 16) (ph : Fin 16),
      let base := e.fld F.REED_CFG_IBASE k.val
      let old := (e.getLink n.val).pins.testBit base
      let x := (16 * c + ph.val) * 2 ^ 16
      let i := r.iside.skipTo c
      let o := r.oside.skipTo c
      let tick : Nat := if i.next ≤ x then ((i.next + i.per : Nat) + i.shift).toNat else i.next
      let err : Int := (x : Int) - ((tick : Int) - (e.val .COD_TRKOFF k.val * 2 ^ 16 : Nat))
      let sjw : Int := (e.val .COD_TRKSJW k.val * 2 ^ 16 : Nat)
      let m := max (-sjw) (min sjw err)
      e.flag F.COD_TRK_EN k.val = true → (e.flag F.COD_TRK_EDGES k.val = true → old = true) →
      (e.flag F.COD_TRK_CANRULE k.val = true → old = true ∧ r.lastSample = true ∧ r.corrected = false) → r.hold = false →
      e.flag F.REED_CLK_ISRC k.val = false → (e.getLink n.val).chg ≠ 16 * c + ph.val + 1 → (e.levelsWith n.val pins.toNat).testBit base = !old →
      ∃ e', exec (.trackerCorrection k pins ph) s = .next (withEng s e') ∧ (e'.reed k.val).corrected = true ∧
        (e'.reed k.val).iside = (if i.fresh ≤ c ∧ i.after ≤ x then i.correct c m else i) ∧
        (e'.reed k.val).oside = if e.flag F.REED_CLK_OSRC k.val = false ∧ o.fresh ≤ c ∧ o.after ≤ x then o.correct c m else o)) ∧
  (∀ (k : ReedId) (e : Eng) (at' pos t : Nat),
    let r := e.reed k.val
    let w := Tab.get 0 r.bank0 r.pc
    let edge := decide (2 ≤ fieldOf w 14 13)
    r.hit = some (at', pos, t) → at' + 2 ≤ e.clk.cycle →
      e.waitpEnd k.val = e.setReed k.val { nextWord e (if edge then { r with capt := t, captPos := pos } else r) with
        waitCode := 0, hit := none, ready := e.clk.cycle + 1 }) ∧
  (∀ (r : Reed), (r.endCycle false).waitUntil = r.waitUntil + 1 ∧ (r.endCycle false).ready = r.ready + 1 ∧
    (r.endCycle false).sets = r.sets.map (fun x => { x with due := x.due + 1 }) ∧ (r.endCycle false).istage = r.istage ∧ (r.endCycle false).levels = r.levels)

/-! ### Locks and conduits under control; host rings -/

namespace Sys2Proof.Claims

open Sys2Proof.Machine Sys2Proof.Safety

/-- A field that counts n, saturating at its largest value (R6). -/
def bumped (e e' : Eng) (f : Fld) (i : Nat) (n : Nat := 1) : Prop := e'.fld f i = min (e.fld f i + n) (2 ^ (f.hi + 1 - f.lo) - 1)

/-- The ring in the accessor's HRG_RSEL (R431). -/
def ringOf (s : State) (who : Acc) : Nat := s.block.eng.fld F.HRG_RSEL_RING who.key

/-- The doorbell word of a ring (R406): CMDQ 0, CPLQ 17, TXQ 1 to 8, RXQ 9 to 16, EVQ 18, TRQ 19. -/
def bellWord (r : Nat) : Nat := if r = 0 then 0 else if r = 1 then 17 else if r ≤ 17 then r - 1 else r

/-- H of a doorbell word keeps the limit of R408: the host's entries on CMDQ, TXQ and RXQ, the engine's on CPLQ, EVQ and TRQ. -/
def indexOk (e : Eng) (r w : Nat) : Prop :=
  w < 65536 ∧ (if r = 1 ∨ r = 18 ∨ r = 19 then (e.fld F.HRG_RIDX_D r + 65536 - w) % 65536 else (w + 65536 - e.fld F.HRG_RIDX_D r) % 65536) ≤ e.ringN r

/-- A ring that STOPPED with a cause, which raises RINGERR (R412, R429). -/
def stoppedRing (e' : Eng) (r cause : Nat) : Prop :=
  e'.ringState r = 2 ∧ e'.fld F.HRG_RSTAT_CAUSE r = cause ∧ (e'.reg .HRG_ISTAT 0).getLsbD 5 = true

/-- A failed transaction's record (R412, R432). -/
def busRecorded (e' : Eng) (addr ring code : Nat) : Prop :=
  e'.val .HRG_BERR0 0 + e'.val .HRG_BERR1 0 * 2 ^ 20 = addr % 2 ^ 40 ∧ e'.fld F.HRG_BERRSTAT_RING 0 = ring ∧
    e'.fld F.HRG_BERRSTAT_CODE 0 = code ∧ e'.flag F.HRG_BERRSTAT_VALID 0 = true

/-- A TXQ entry keeps R417: LEN 1 to 9,216, MASK below bit 24, reserved bits and the completion word 0. -/
def txEntry (d : List Byte) : Prop :=
  byteAt d 5 < 4 ∧ 1 ≤ leAt d 6 2 ∧ leAt d 6 2 ≤ 9216 ∧ leAt d 8 4 < 2 ^ 24 ∧ leAt d 22 10 = 0

/-- BUFLEN of an RXQ entry (R421). -/
def bufLen (d : List Byte) : Nat := leAt d 6 2 % 2 ^ 14

/-- A doorbell pass is requested in this cycle; a request that stands already keeps its cycle (R410). -/
def requested (e : Eng) : Eng := { e with sys := { e.sys with passReq := true, passAt := if e.sys.passReq then e.sys.passAt else e.clk.cycle } }

/-- x is the one transaction of the initiators, and it is outstanding (R336). -/
def onlyTxn (e : Eng) (x : Txn) : Prop := e.initq = [x] ∧ 0 < Tab.get 0 e.matrix.out (initiatorOf x.id)

/-- No allocation for TXQk is in progress; it starts one for entry idx: as many cells as its frame needs (R162, R418). -/
def noAlloc (e : Eng) (k : Nat) : Prop := ∀ x ∈ e.sw.allocs, ∀ i d, x.why ≠ .tx (2 + k) i d
def txAllocs (e : Eng) (k idx : Nat) (d : List Byte) : List Alloc :=
  let n := (leAt d 6 2 + 127) / 128
  e.sw.allocs ++ [{ why := .tx (2 + k) idx d, n := n, c7 := decide (k = 7), till := e.clk.cycle + n + 2 }]

/-- The reads of the frame of entry idx of TXQk, none of which crosses a boundary of 128 bytes (R404, R418). -/
def txReads (k idx : Nat) (d : List Byte) : List Txn :=
  (frameChunks (leAt d 0 5) (leAt d 6 2)).map (fun c => ⟨k, false, c.1, c.2, [], .txData (2 + k) idx (c.1 - leAt d 0 5)⟩)

/-- Pairs (address, length) cover n bytes from a in order, each in one block of 128 bytes (R404). -/
def covers : Nat → Nat → List (Nat × Nat) → Prop
  | _, n, [] => n = 0
  | a, n, c :: l => c.1 = a ∧ 0 < c.2 ∧ c.2 ≤ n ∧ a % 128 + c.2 ≤ 128 ∧ covers (a + c.2) (n - c.2) l

/-- A write of 8 bytes at the end of entry idx of ring r (R413). -/
def tailWrite (e : Eng) (id r idx : Nat) (d : List Byte) : Txn := ⟨id, true, e.ringBase r + idx % e.ringN r * 32 + 24, 8, d, .entryTail r⟩

/-- The phase of entry i of ring r (R413). -/
def phaseOf (e : Eng) (r i : Nat) : Byte := if i / e.ringN r % 2 = 0 then 0x80 else 0

/-- Bytes filled with zeros to 16. -/
def fill16 (l : List Byte) : List Byte := l ++ List.replicate (16 - l.length) 0

/-- The CPLQ entry of CMDQ entry d at index i with a RESULT and result data (R416). -/
def cplBytes (e : Eng) (i : Nat) (d : List Byte) (r : Nat) (res : List Byte) : List Byte :=
  [d.getD 0 0, 0] ++ (d.drop 2).take 2 ++ leBytes 2 i ++ [BitVec.ofNat 8 r, 0] ++ fill16 res ++ leBytes 2 (e.fld F.HRG_EPOCH_EPOCH 0) ++
    [0, 0, 0, 0, 0, phaseOf e 1 (e.fld F.HRG_RIDX_D 1)]

/-- CMDQ entry d at index i has completed: its completion is the next entry of CPLQ, the next command's comes after it, COMPLETIONS counts (R415, R416, R433, R439). -/
def completed (e e' : Eng) (i : Nat) (d : List Byte) (r : Nat) (res : List Byte) : Prop :=
  e'.keys.cmds = [] ∧ e'.keys.nextCpl = (i + 1) % 65536 ∧ counted40 e e' 2 0 3 ∧ e'.fld F.HRG_RIDX_D 1 = (e.fld F.HRG_RIDX_D 1 + 1) % 65536 ∧
    (e'.getRing 1).outq = (e.getRing 1).outq ++ [(e.fld F.HRG_RIDX_D 1, cplBytes e i d r res)]

/-- An OPCODE of the catalogue (R438). -/
def listedOp (op : Nat) : Prop := (1 ≤ op ∧ op ≤ 6) ∨ (0x10 ≤ op ∧ op ≤ 0x19) ∨ 0x80 ≤ op

/-- The unit may hand over the one fetched entry of CMDQ (R415, R439). -/
def handsOver (s : State) (i : Nat) (d : List Byte) : Prop :=
  let e := s.block.eng
  e.awake = true ∧ e.engState ≠ 0 ∧ e.ringState 0 = 1 ∧ (e.getRing 0).fetched = [(i, d)] ∧ i = e.keys.nextCpl ∧ e.keys.cmds = [] ∧ e.keys.stopped = [] ∧
    e.ringState 1 = 1 ∧ (e.fld F.HRG_RIDX_D 1 + 65536 - e.fld F.HRG_RHOST_H 1) % 65536 < e.ringN 1

end Sys2Proof.Claims

/-- R350, R355, R356, R358: a write of FORCE, ABORT or FLUSH takes effect after the instruction accesses of its cycle. FORCE on a HELD lock without waiters frees it with ABANDONED, RESULT FREED; with one
waiter it hands it over, HANDED; on a slot that holds none it does nothing but answer NOTHELD. ABORT discards the open message of the selected conduit and is counted, or answers that there is none, or that it was
closed in this cycle; FLUSH discards every message and counts them. -/
def Obligations.ForcedReleaseAndConduitControl : Prop :=
  (∀ (who : Acc) (v : Word) (s : State),
    let e := s.block.eng
    let later (x : Closing × Nat × Nat) : State := done s who { e with closing := e.closing ++ [x] }
    (legal s who .LCK_FCTL 0 v → v = 1 → exec (.lockForce who v) s = .next (later (.force, who.key, e.val .LCK_SEL who.key))) ∧
    (legal s who .CND_CTL 0 v → v = 1 → exec (.conduitAbort who v) s = .next (later (.abort, who.key, e.fld F.CND_SEL_CD who.key))) ∧
    (legal s who .CND_CTL 0 v → v = 2 → exec (.conduitFlush who v) s = .next (later (.flush, who.key, e.fld F.CND_SEL_CD who.key)))) ∧
  (∀ (e : Eng) (w k : Nat), e.closing = [(.force, w, k)] → w < 63 →
    let e' := e.closeEnd
    (∀ a b, Tab.find e.locks k = some ⟨false, a, b⟩ → (∀ p ∈ e.waiters, p.2 ≠ a) →
      Tab.find e'.locks k = some ⟨true, a, true⟩ ∧ e'.fld F.LCK_FSTAT_RESULT w = 1 ∧
        bumped e e' F.LCK_CNT_ABANDONS 0 ∧ ∀ j, j ≠ k → Tab.find e'.locks j = Tab.find e.locks j) ∧
    (∀ a b t j, Tab.find e.locks k = some ⟨false, a, b⟩ → e.waiters = [(t, a)] → t ≠ k / 4 → e.emptySlot t = some j →
      Tab.find e'.locks k = none ∧ Tab.find e'.locks j = some ⟨false, a, true⟩ ∧ e'.waiters = [] ∧ e'.fld F.LCK_FSTAT_RESULT w = 2) ∧
    ((Tab.find e.locks k).all (fun l => l.freed) = true → e'.locks = e.locks ∧ e'.fld F.LCK_FSTAT_RESULT w = 3)) ∧
  (∀ (e : Eng) (w cd : Nat),
    let x := e.getCnd cd
    let e' := e.closeEnd
    (e.closing = [(.abort, w, cd)] → x.opened ≠ none → bumped e e' F.CND_CNT_ABORTS 0 ∧ e'.fld F.CND_ARES_RESULT w = 1 ∧
      e'.getCnd cd = { x with opened := none, freeing := stillFreeing e cd ++ [e.clk.cycle + 1] }) ∧
    (e.closing = [(.abort, w, cd)] → x.opened = none → e'.fld F.CND_ARES_RESULT w = (if x.closeCyc = e.clk.cycle + 1 then 2 else 0) ∧ e'.cnd = e.cnd) ∧
    (e.closing = [(.flush, w, cd)] →
      let n := x.closed.length + (if x.opened = none then 0 else 1)
      bumped e e' F.CND_CNT_DISCARDS 0 n ∧
        e'.getCnd cd = { x with closed := [], opened := none, taken := 0, freeing := stillFreeing e cd ++ List.replicate n (e.clk.cycle + 1) }))

/-- R412: EN set to 1 makes an OFF ring ACTIVE with D and H 0 (while work of it is still outstanding only EN changes: the model's choice, log 40); EN set to 0 makes it OFF, with nothing fetched, posted or to be made again; RESTART makes a STOPPED ring ACTIVE,
the failed transactions made again first. R429: HRG_KIRQ sets KEEPER.

R406, R408 to R413, R429: a rising edge of JX_KNOCK, a write to HRG_KNOCK and, without ticks, every 65,536th cycle request a doorbell pass; from the next cycle on the pass reads the block of 128 bytes; its answer gives each
ACTIVE ring its H, or stops a ring whose word breaks its limit. A fetch that is answered brings its entries; one that fails stops its ring. An entry whose last write is answered is visible: D passes it and TXDONE is set. -/
def Obligations.RingsAreControlledAndServed : Prop :=
  (∀ (who : Acc) (v : Word) (s : State),
     let e := s.block.eng
     let r := ringOf s who
     let q := e.getRing r
     (legal s who .HRG_RCTL 0 v → v = 1 → e.flag F.HRG_RCTL_EN r = false → e.ringState r = 0 → e.ringDrains r = false →
       ∃ e', exec (.ringEnable who v) s = .next (done s who e') ∧ e'.flag F.HRG_RCTL_EN r = true ∧ e'.ringState r = 1 ∧ e'.fld F.HRG_RSTAT_CAUSE r = 0 ∧
         e'.fld F.HRG_RIDX_D r = 0 ∧ e'.fld F.HRG_RHOST_H r = 0 ∧ e'.getRing r = { lost := q.lost } ∧ ∀ k, k ≠ r → e'.getRing k = e.getRing k) ∧
     (legal s who .HRG_RCTL 0 v → v = 1 → e.flag F.HRG_RCTL_EN r = false → e.ringDrains r = true →
       exec (.ringEnable who v) s = .next (done s who (e.setFld F.HRG_RCTL_EN r 1))) ∧
     (legal s who .HRG_RCTL 0 v → v = 0 → e.flag F.HRG_RCTL_EN r = true → e.ringState r ≠ 0 →
       ∃ e', exec (.ringDisable who v) s = .next (done s who e') ∧ e'.flag F.HRG_RCTL_EN r = false ∧ e'.ringState r = 0 ∧
         e'.getRing r = { q with fetched := [], wait := none, retry := [], bufs := [] }) ∧
     (legal s who .HRG_RCTL 0 v → v = 3 → e.flag F.HRG_RCTL_EN r = true → e.ringState r = 2 → q.outq = [] →
       ∃ e', exec (.ringRestart who v) s = .next (done s who e') ∧ e'.ringState r = 1 ∧ e'.fld F.HRG_RSTAT_CAUSE r = 0 ∧
         e'.fld F.HRG_RIDX_D r = e.fld F.HRG_RIDX_D r ∧ e'.initq = e.initq ++ q.retry ∧ e'.getRing r = { q with retry := [] }) ∧
     (legal s who .HRG_KIRQ 0 v → v = 1 →
       ∃ e', exec (.keeperIrq who v) s = .next (done s who e') ∧ e'.reg .HRG_ISTAT 0 = e.reg .HRG_ISTAT 0 ||| 0x100 ∧ e'.rings = e.rings ∧ e'.initq = e.initq)) ∧
  (∀ (s : State),
     let e := s.block.eng
     (e.sys.knock = false → e.pwr.lvl = 0 → e.pwr.entry = none →
       exec (.knock true) s = .next (withEng s { requested e with sys := { (requested e).sys with knock := true } })) ∧
     (exec (.knock false) s = .next (withEng s { e with sys := { e.sys with knock := false } })) ∧
     (∀ who, legal s who .HRG_KNOCK 0 1 → exec (.knockWrite who 1) s = .next (done s who (requested e))) ∧
     (e.awake = true → e.running = false → e.flag F.HRG_CFG_POLL 0 = true → e.tick.pollBase + 65536 ≤ e.clk.cycle →
       exec .doorbellPoll s = .next (withEng s { requested e with
         tick := { e.tick with pollBase := e.tick.pollBase + (e.clk.cycle - e.tick.pollBase) / 65536 * 65536 } })) ∧
     (e.awake = true → e.sys.passReq = true → e.sys.passAt < e.clk.cycle → e.flag F.HRG_STAT_PASS 0 = false → e.engState ≠ 0 →
       ∃ e', exec .doorbellPass s = .next (withEng s e') ∧ e'.flag F.HRG_STAT_PASS 0 = true ∧ e'.sys.passReq = false ∧
         e'.initq = e.initq ++ [⟨0x10, false, e.val .HRG_DBBASE0 0 * 128 + e.fld F.HRG_DBBASE1_BASE_HI 0 * 2 ^ 27, 128, [], .doorbell⟩]) ∧
     (∀ a (data : List Byte), onlyTxn e ⟨0x10, false, a, 128, [], .doorbell⟩ → data.length = 128 →
       ∃ e', exec (.initiatorResponse 0x10 0 data) s = .next (withEng s e') ∧ ∀ r, r < 20 →
         (e.ringState r ≠ 1 → e'.ringState r = e.ringState r ∧ e'.fld F.HRG_RHOST_H r = e.fld F.HRG_RHOST_H r) ∧
         (e.ringState r = 1 → indexOk e r (leAt data (4 * bellWord r) 4) →
           e'.ringState r = 1 ∧ e'.fld F.HRG_RHOST_H r = leAt data (4 * bellWord r) 4) ∧
         (e.ringState r = 1 → ¬indexOk e r (leAt data (4 * bellWord r) 4) → stoppedRing e' r 3)) ∧
     (∀ (id : BitVec 6) a r i n (data : List Byte), onlyTxn e ⟨id.toNat, false, a, 32 * n, [], .fetch r i n⟩ → r < 20 → e.ringState r = 1 →
       (data.length = 32 * n →
         ∃ e', exec (.initiatorResponse id 0 data) s = .next (withEng s e') ∧ (e'.getRing r).fetched = (e.getRing r).fetched ++
           (List.range n).map (fun j => ((i + j) % 65536, (data.drop (32 * j)).take 32)) ∧ e'.initq = [] ∧ e'.flag F.HRG_STAT_PASS 0 = false) ∧
       (∃ e', exec (.initiatorResponse id 1 []) s = .next (withEng s e') ∧ stoppedRing e' r 1 ∧ busRecorded e' a r 1 ∧
         (e'.getRing r).retry = (e.getRing r).retry ++ e.initq)) ∧
     (∀ (id : BitVec 6) a k d (idx : Nat) (l : List (Nat × List Byte)), onlyTxn e ⟨id.toNat, true, a, 8, d, .entryTail (2 + k)⟩ → k < 8 →
       (e.getRing (2 + k)).outq = (idx, d) :: l →
         ∃ e', exec (.initiatorResponse id 0 []) s = .next (withEng s e') ∧ e'.fld F.HRG_RIDX_D (2 + k) = (idx + 1) % 65536 ∧
           (e'.reg .HRG_ISTAT 0).getLsbD 3 = true ∧ (e'.getRing (2 + k)).outq = l))

/-- R162, R404, R413, R417 to R420: the next entry of TXQk that keeps R417 starts the allocation of its cells; once it has them its frame is read, in reads that cross no boundary of 128 bytes; where they are refused it waits,
and is tried again at a round boundary; an entry that breaks R417 is BADDESC and counted, and nothing of it is read. The next entry in index order whose outcome is known is written back with STATUS, PORT and SEQ; a frame
sent is counted.

R404, R421, R422, R178: a fetched entry of RXQk offers its buffer, or stops the ring where its BUFLEN is out of range; port 24 starts a head frame whose buffers are held, and writes its bytes to them; its
transmission ends, counted, once every write was answered. -/
def Obligations.TxAndRxEntriesMoveFrames : Prop :=
  ((∀ (k : Fin 8) (s : State),
     let e := s.block.eng
     let r := 2 + k.val
     let q := e.getRing r
     e.awake = true →
     (∀ idx d l, e.ringState r = 1 → q.wait = none → noAlloc e k.val → q.fetched = (idx, d) :: l →
       (¬txEntry d → ∃ e' n, exec (.txDescriptor k) s = .next (withEng s e') ∧ Tab.find (e'.getRing r).res idx = some (7, 24, n) ∧ counted e e' 2 0 8 ∧
         (e'.getRing r).fetched = l ∧ e'.initq = e.initq ∧ e'.sw = e.sw) ∧
       (txEntry d → exec (.txDescriptor k) s = .next (withEng s (withAllocs (e.setRing r { q with fetched := l }) (txAllocs e k.val idx d))))) ∧
     (∀ idx d c, q.wait = some (idx, d, c) → c < e.clk.cycle → e.atRound = true → noAlloc e k.val →
       exec (.txCellRetry k) s = .next (withEng s (withAllocs e (txAllocs e k.val idx d)))) ∧
     (∀ st port n, q.outq = [] → q.stage = 0 → e.ringState r ≠ 2 → Tab.find q.res (e.fld F.HRG_RIDX_D r) = some (st, port, n) →
       ∃ e' x d, exec (.txWriteback k) s = .next (withEng s e') ∧ d = leBytes 3 n ++ [0, BitVec.ofNat 8 st, x, 0, 0x80] ∧ (st ≠ 0 → x = BitVec.ofNat 8 port) ∧
         e'.initq = e.initq ++ [tailWrite e k.val r (e.fld F.HRG_RIDX_D r) d] ∧ Tab.find (e'.getRing r).res (e.fld F.HRG_RIDX_D r) = none ∧
         (st = 0 → counted40 e e' 2 0 0))) ∧
   (∀ (k : Fin 8) (e : Eng) (idx : Nat) (d : List Byte) (a : Alloc),
     let r := 2 + k.val
     let q := e.getRing r
     ((e.txCells r idx d a false).getRing r = { q with wait := some (idx, d, e.clk.cycle) } ∧ (e.txCells r idx d a false).initq = e.initq) ∧
     (q.wait = none → (e.txCells r idx d a true).initq = e.initq ++ txReads k.val idx d ∧ noAlloc (e.txCells r idx d a true) k.val ∧
       (e.txCells r idx d a true).getRing r = { q with dma := q.dma ++ [{ idx := idx, entry := d, cells := a.cells, len := leAt d 6 2 }] })) ∧
   (∀ a n, n ≤ 9216 → covers a n (frameChunks a n))) ∧
  (∀ (k : Fin 8) (s : State),
     let e := s.block.eng
     let r := 10 + k.val
     let q := e.getRing r
     (∀ idx d l, e.awake = true → e.ringState r = 1 → q.fetched = (idx, d) :: l →
       (1 ≤ bufLen d → bufLen d ≤ 9216 →
         exec (.rxBufferPost k) s = .next (withEng s (e.setRing r { q with fetched := l, bufs := q.bufs ++ [(idx, d)] }))) ∧
       (bufLen d = 0 ∨ 9216 < bufLen d → ∃ e', exec (.rxBufferPost k) s = .next (withEng s e') ∧ stoppedRing e' r 3 ∧ (e'.getRing r).bufs = q.bufs)) ∧
     (∀ i f idx d l, e.awake = true → (e.getLink 24).eg = none → heads e 24 k.val i f → f.ended = true → e.ringState r = 1 → q.rx = none → q.bufs = (idx, d) :: l →
       f.len ≤ bufLen d →
       ∀ ph : Fin 16, ∃ e' x, exec (.frameTxStart ⟨24, ph⟩) s = .next (withEng s e') ∧ (e'.getLink 24).eg = some x ∧ x.seq = some i ∧ x.cls = k.val ∧ x.started = false ∧
         e'.queue 24 k.val = (e.queue 24 k.val).filter (fun j => j != i)) ∧
     (∀ x i f idx d l, e.awake = true → (e.getLink 24).eg = some x → x.cls = k.val → x.started = false → x.seq = some i → e.frame i = some f → f.cells = 1 →
       (e.cell f.head).owner = .frame → (e.cell f.head).next = none → (e.cell f.head).seq = i → e.ecc = [] → q.bufs = (idx, d) :: l → 1 ≤ f.len → f.len ≤ 128 →
       f.len ≤ bufLen d → leAt d 0 5 % 128 + f.len ≤ 128 → f.inPort ≤ 24 →
       ∃ e', exec (.rxFrameWrite k) s = .next (withEng s e') ∧ (e'.getRing r).bufs = l ∧ (e'.getLink 24).eg = some { x with started := true, rd := f.len } ∧
         e'.initq = e.initq ++ [⟨8 + k.val, true, leAt d 0 5, f.len,
           (List.range f.len).map (fun j => basinByte s.block.mem (128 * f.head + j)), .rxData r idx⟩]) ∧
     (∀ x w, e.awake = true → (e.getLink 24).eg = some x → x.cls = k.val → x.started = true → q.rx = some w → w.parts = [] → q.outq = [] →
       ∃ e', exec (.frameTxEnd 24) s = .next (withEng s e') ∧ (e'.getLink 24).eg = none ∧ (e'.getRing r).rx = none ∧ counted40 e e' 2 0 1))

/-! ### Commands of the host, the Ledger -/

namespace Sys2Proof.Claims

open Sys2Proof.Machine Sys2Proof.Safety

/-- The command that runs is c, the only one, of opcode op at a stage (R439). -/
def runsCmd (s : State) (c : Cmd) (op : Nat) (st : CmdStage) : Prop :=
  let e := s.block.eng
  e.awake = true ∧ e.engState ≠ 0 ∧ e.keys.cmds = [c] ∧ c.idx = e.keys.nextCpl ∧ c.res = none ∧ c.stage = st ∧ byteAt c.entry 0 = op

/-- The Keeper may still be told to stop: no ABORT named the command (R440). -/
def notAborted (e : Eng) : Prop := e.flag F.KEY_CSTAT_ABREQ 0 = false

/-- n bytes of the entry from byte i, as a number. -/
def argOf (c : Cmd) (i n : Nat) : Nat := leAt c.entry i n

/-- The command c completes with a RESULT and result data. -/
def ends (x : Instr) (s : State) (c : Cmd) (r : Nat) (res : List Byte) : Prop :=
  ∃ e, exec x s = .next (withEng s e) ∧ completed s.block.eng e c.idx c.entry r res

/-- The command c completes, and leaves P. -/
def endsWith (x : Instr) (s : State) (c : Cmd) (r : Nat) (res : Eng → List Byte) (P : Eng → Prop) : Prop :=
  ∃ e, exec x s = .next (withEng s e) ∧ completed s.block.eng e c.idx c.entry r (res e) ∧ P e

/-- The mailbox is empty (R442). -/
def mailboxEmpty (e : Eng) : Prop := e.reg .KEY_CSTAT 0 = 0 ∧ e.reg .KEY_CIDX 0 = 0

/-- SETUP, RUN or MAINTENANCE (R438). -/
def keyState (e : Eng) : Prop := e.engState = 1 ∨ e.engState = 3 ∨ e.engState = 5

/-- The reset of a command that acts when its completion is visible (R441, R490). -/
def resetDue (c : Cmd) (cause : Nat) (noboot : Bool) (e : Eng) : Prop := e.keys.reset = some (c.idx, cause, noboot, c.ctr)

/-- The command writes words of the Ledger: it is past its commit point, L stands at its counter, the words wait (R445, R453). -/
def writesLedger (x : Instr) (s : State) (c : Cmd) (ws : List (Nat × Nat)) : Prop :=
  ∃ e, exec x s = .next (withEng s e) ∧ e.keys.cmds = [{ c with stage := .writing }] ∧ e.keys.l = max s.block.eng.keys.l c.ctr ∧
    e.keys.ledq.map (fun w => (w.idx, w.v)) = ws

/-- The links with EN = 1, as the three bytes of LINK_ENABLE's result (R438). -/
def linksOn (e : Eng) : Nat := ((List.range 24).map (fun n => if e.flag F.LNK_CTL_EN n = true then 2 ^ n else 0)).sum

/-- The Keeper's result data registers, two bytes each, the first in [15:8] (R442). -/
def crdOf (e : Eng) : List Byte := (List.range 8).flatMap (fun i => twoOf (e.reg .KEY_CRD i))

/-- The Keeper's commands (R438). -/
inductive KeeperOp where
  | selftest | loadImage | linkEnable | scheduleChange | sundialStep | sundialLoad | firmware | critical

def KeeperOp.cmd : KeeperOp → Instr
  | .selftest => .selftest
  | .loadImage => .loadImage
  | .linkEnable => .linkEnable
  | .scheduleChange => .scheduleChange
  | .sundialStep => .sundialSetStep
  | .sundialLoad => .sundialSetLoad
  | .firmware => .firmwareCommand
  | .critical => .firmwareCommandCritical

/-- The opcodes of the Keeper's commands (R438). -/
def KeeperOp.is (c : Cmd) : KeeperOp → Prop
  | .selftest => byteAt c.entry 0 = 0x06
  | .loadImage => byteAt c.entry 0 = 0x10
  | .linkEnable => byteAt c.entry 0 = 0x12
  | .scheduleChange => byteAt c.entry 0 = 0x13
  | .sundialStep => byteAt c.entry 0 = 0x14 ∧ argOf c 15 1 = 1
  | .sundialLoad => byteAt c.entry 0 = 0x14 ∧ argOf c 15 1 = 2
  | .firmware => 0x80 ≤ byteAt c.entry 0 ∧ byteAt c.entry 0 < 0xC0
  | .critical => 0xC0 ≤ byteAt c.entry 0

/-- The engine state in which a Keeper's command has its effect (R438). -/
def KeeperOp.state : KeeperOp → Nat
  | .selftest => 5
  | .loadImage => 1
  | _ => 3

end Sys2Proof.Claims

/-- R415, R435, R438, R439, R443: the unit hands over the next command in index order. One whose opcode is not in the catalogue completes with OPCODE, one with a reserved bit with RESERVED, a critical
one while the Ledger is not provisioned with AUTH, counted; a NOP waits for its effect; an ABORT of a command of the Keeper asks for its stop as its cycle ends, where the commit point does not come first. KEY_CTAKE marks
the commit point, and TAKEN reads 1 from the next cycle on; KEY_CDONE completes the pending command with KEY_CRES and KEY_CRD. -/
def Obligations.CommandsAreHandedOverAndCompleted : Prop :=
  (∀ (s : State) (i : Nat) (d : List Byte), handsOver s i d →
    let e := s.block.eng
    let op := byteAt d 0
    (¬listedOp op → ∃ e', exec .commandHandover s = .next (withEng s e') ∧ completed e e' i d 1 [] ∧ (e'.getRing 0).fetched = []) ∧
    (listedOp op → byteAt d 31 % 128 ≠ 0 → ∃ e', exec .commandHandover s = .next (withEng s e') ∧ completed e e' i d 2 []) ∧
    (op = 0x18 → byteAt d 1 = 0 → leAt d 4 15 = 0 → byteAt d 31 % 128 = 0 → e.flag F.KEY_STAT_PROV 0 = false →
      ∃ e', exec .commandHandover s = .next (withEng s e') ∧ completed e e' i d 4 [] ∧ bumped e e' F.KEY_ECNT_AUTHFAIL 0) ∧
    (op = 0x01 → byteAt d 1 = 0 → leAt d 4 28 = 0 →
      ∃ e', exec .commandHandover s = .next (withEng s e') ∧ e'.keys.cmds = [{ idx := i, entry := d, handed := e.clk.cycle }])) ∧
  (∀ (s : State) (i t : Nat) (d : List Byte) (c : Cmd),
    let e := s.block.eng
    let q := e.getRing 0
    e.awake = true → e.engState ≠ 0 → e.ringState 0 = 1 → e.keys.cmds = [c] → c.idx = e.keys.nextCpl → c.res = none → e.keys.stopped = [] → e.cplFree = true →
    q.fetched = [(i, d)] → i ≠ e.keys.nextCpl → byteAt d 0 = 0x03 → byteAt d 1 = 0 → leAt d 6 13 = 0 → leAt d 19 12 = 0 → byteAt d 31 % 128 = 0 → t = leAt d 4 2 →
    c.idx = t → t ≠ i → (i + 65536 - t) % 65536 ≤ e.ringN 0 → t < 65536 → i < 65536 → c.stage = .posted → e.flag F.KEY_CSTAT_TAKEN 0 = false →
      ∃ e', exec .commandHandover s = .next (withEng s e') ∧ e'.keys.cmds = [c, { idx := i, entry := d, handed := e.clk.cycle, outcome := some 11 }] ∧
        e'.keys.abQ = e.keys.abQ ++ [t]) ∧
  (∀ (e : Eng) (t : Nat) (c a : Cmd), e.keys.cmds = [c, a] → c.idx = t → c.res = none → c.stage = .posted → e.keys.abQ = [t] → e.keys.taken = false → a.op = 3 →
    c.op ≠ 3 → leAt a.entry 4 2 = t → a.outcome = some 11 → a.idx ≠ t →
    (e.flag F.KEY_CSTAT_TAKEN 0 = false → e.keysEnd.flag F.KEY_CSTAT_ABREQ 0 = true ∧ e.keysEnd.keys.cmds = [c, a]) ∧
    (e.flag F.KEY_CSTAT_TAKEN 0 = true → e.keysEnd.flag F.KEY_CSTAT_ABREQ 0 = e.flag F.KEY_CSTAT_ABREQ 0 ∧
      e.keysEnd.keys.cmds = [c, { a with outcome := some 12 }])) ∧
  (∀ (who : Acc) (s : State) (v : Word), legal s who .KEY_CTAKE 0 v → v = 1 →
    exec (.commandTake who v) s = .next (done s who { s.block.eng with keys := { s.block.eng.keys with taken := true } })) ∧
  (∀ (e : Eng), e.keys.taken = true → e.keys.abQ = [] → e.keysEnd = { e with keys := { e.keys with taken := false } }.setFld F.KEY_CSTAT_TAKEN 0 1) ∧
  (∀ (who : Acc) (s : State) (c : Cmd), legal s who .KEY_CDONE 0 1 →
    let e := s.block.eng
    e.keys.cmds = [c] → c.idx = e.keys.nextCpl → c.stage = .posted → c.res = none →
      ∃ e', exec (.commandDone who 1) s = .next (done s who e') ∧ completed e e' c.idx c.entry (e.fld F.KEY_CRES_RESULT 0) (crdOf e) ∧ mailboxEmpty e' ∧
        (e.fld F.KEY_CRES_RESULT 0 = 0 → 0xC0 ≤ byteAt c.entry 0 → e'.keys.l = max e.keys.l c.ctr))

/-- R438, R440, R441, R445, R447, R448, R453, R473, R490, R492, R502: the commands that the unit carries out: their effect and completion, or the RESULT of the check they fail. -/
def Obligations.UnitCommandsHaveTheirEffect : Prop :=
  ∀ (s : State) (c : Cmd),
    let e := s.block.eng
    let L := max e.keys.l c.ctr
    (runsCmd s c 0x01 .ready → ends .cmdNop s c 0 []) ∧
    (runsCmd s c 0x02 .ready → ends .getState s c 0 (leBytes 3 e.jxId ++ leBytes 1 e.engState ++ leBytes 5 e.keys.l ++ leBytes 5 e.keys.ceil ++ leBytes 2 behMask)) ∧
    (∀ o, runsCmd s c 0x03 .ready → c.outcome = some o → ends .abort s c 0 [BitVec.ofNat 8 o]) ∧
    (runsCmd s c 0x04 .ready →
      (e.engState = 3 → endsWith .setLatency s c 0 (fun _ => []) (fun e' => e'.val .PWR_TOL0 0 + e'.val .PWR_TOL1 0 * 2 ^ 20 = argOf c 4 4)) ∧
      (e.engState ≠ 3 → ends .setLatency s c 6 [])) ∧
    (runsCmd s c 0x05 .ready →
      (e.engState = 1 → e.flag F.KEY_STAT_PROV 0 = false → e.flag F.KEY_STAT_DAMAGED 0 = false → e.keys.ledq = [] →
        ∃ e' mid, exec .provision s = .next (withEng s e') ∧ e'.keys.cmds = [{ c with stage := .writing }] ∧
          e'.keys.ledq.map (fun w => (w.idx, w.v)) = (List.range 6).map (fun i => (i, leAt c.data (4 * i) 4)) ++ mid ++
            [(7, ledgerCheck ((List.range 6).map (fun i => leAt c.data (4 * i) 4) ++ [0x5A5A0001])), (6, 0x5A5A0001)]) ∧
      (e.engState ≠ 1 ∨ e.flag F.KEY_STAT_PROV 0 = true → ends .provision s c 6 [])) ∧
    (runsCmd s c 0x11 .ready →
      let k := argOf c 4 1
      (keyState e → 1 ≤ k → k ≤ 3 → e.fld F.KEY_GEN_GEN k < argOf c 5 2 → e.fld F.HIDE_AUTH_LEVEL 0 = 0 →
        ∃ e', exec .keyChange s = .next (withEng s e') ∧ e'.fld F.KEY_GEN_GEN k = argOf c 5 2 ∧ e'.keys.cmds = [{ c with stage := .writing }] ∧ e'.keys.l = L) ∧
      (keyState e → argOf c 5 2 ≤ e.fld F.KEY_GEN_GEN k → ends .keyChange s c 7 []) ∧ (¬keyState e → ends .keyChange s c 6 [])) ∧
    (runsCmd s c 0x15 .ready →
      (argOf c 4 1 = 1 → endsWith .resetEngine s c 0 (fun _ => []) (resetDue c 3 false)) ∧
      (argOf c 4 1 = 2 → endsWith .resetEngineNoboot s c 0 (fun _ => []) (resetDue c 3 true))) ∧
    (runsCmd s c 0x16 .ready →
      (argOf c 4 1 = 1 ∨ argOf c 4 1 = 2 → e.fld F.HIDE_AUTH_PATH 0 ≠ 1 → e.fld F.HIDE_AUTH_LEVEL 0 ≤ argOf c 4 1 →
        endsWith .debugUnlock s c 0 (fun _ => []) (fun e' => e'.fld F.HIDE_AUTH_LEVEL 0 = argOf c 4 1 ∧ e'.fld F.HIDE_AUTH_PATH 0 = 2 ∧ e'.keys.l = L)) ∧
      (argOf c 4 1 = 1 ∨ argOf c 4 1 = 2 → e.fld F.HIDE_AUTH_PATH 0 = 1 → ends .debugUnlock s c 6 [])) ∧
    (runsCmd s c 0x17 .ready →
      (keyState e → argOf c 4 2 + argOf c 6 1 ≤ 0x1000 → e.keys.ledq = [] →
        writesLedger .ledgerWrite s c ((List.range (argOf c 6 1)).map (fun i => (argOf c 4 2 + i, argOf c (7 + 4 * i) 4)))) ∧
      (keyState e → 0x1000 < argOf c 4 2 + argOf c 6 1 → ends .ledgerWrite s c 7 []) ∧ (¬keyState e → ends .ledgerWrite s c 6 [])) ∧
    (runsCmd s c 0x18 .ready → endsWith .counterSeal s c 0 (fun _ => leBytes 5 L) (fun e' => e'.keys.l = L)) ∧
    (runsCmd s c 0x19 .ready →
      (argOf c 4 1 = 1 → e.engState = 3 →
        ∃ e', exec .maintenanceEnter s = .next (withEng s e') ∧ e'.engState = 5 ∧ e'.flag F.TIK_CTL_RUN 0 = false ∧ e'.keys.l = L ∧
          e'.keys.cmds = [{ c with stage := .flushing }] ∧ ∀ n, n < 24 → e'.flag F.LNK_CTL_EN n = false ∧ e'.flag F.SCH_LCTL_EN n = false) ∧
      (argOf c 4 1 = 1 → e.engState ≠ 3 → ends .maintenanceEnter s c 6 []) ∧
      (argOf c 4 1 = 0 → e.engState = 5 → endsWith .maintenanceLeave s c 0 (fun _ => []) (resetDue c 5 false)) ∧
      (argOf c 4 1 = 0 → e.engState ≠ 5 → ends .maintenanceLeave s c 6 []))

/-- R438, R440, R442, R445, R460, R493: the commands that the Keeper carries out, each as one act of it: one that an ABORT named completes with ABORTED, one outside its state with STATE; else it has its effect. -/
def Obligations.KeeperCommandsHaveTheirEffect : Prop :=
  ∀ (s : State) (c : Cmd),
    let e := s.block.eng
    let L := max e.keys.l c.ctr
    let runs (op : Nat) : Prop := runsCmd s c op .posted ∧ notAborted e
    (∀ o : KeeperOp, o.is c → runsCmd s c (byteAt c.entry 0) .posted → e.keys.img = none →
      (¬notAborted e → endsWith o.cmd s c 11 (fun _ => []) mailboxEmpty) ∧
      (notAborted e → e.engState ≠ o.state → endsWith o.cmd s c 6 (fun _ => []) mailboxEmpty)) ∧
    (runs 0x12 → e.engState = 3 → argOf c 4 3 &&& argOf c 7 3 = 0 →
      endsWith .linkEnable s c 0 (fun e' => leBytes 3 (linksOn e')) (fun e' => e'.keys.l = L ∧ mailboxEmpty e' ∧ ∀ n, n < 24 →
        e'.flag F.LNK_CTL_EN n = if (argOf c 4 3).testBit n ∧ e.linkMode n ≠ 0 then true else if (argOf c 7 3).testBit n then false else e.flag F.LNK_CTL_EN n)) ∧
    (runs 0x13 → e.engState = 3 →
      let n := argOf c 4 1
      let r : RowSet := ⟨argOf c 5 2, argOf c 7 1, argOf c 8 2⟩
      n < 24 → r.rb ≤ 6 → 1 ≤ r.wpr → r.wpr ≤ 256 → r.base + r.size ≤ 16384 → (e.layer n).pend = none → (e.layer n).check = none →
      (e.schStore c).rowSetOk n r e.tick.set = true →
        ∃ e', exec .scheduleChange s = .next (withEng s e') ∧ e'.keys.cmds = [{ c with stage := .flushing }] ∧ e'.flag F.KEY_CSTAT_TAKEN 0 = true ∧
          (e'.layer n).check = some (r, e.clk.cycle + 3 * r.size + 16, true) ∧
          ∀ i, i < r.size → Tab.get [] e'.sch.store (r.base + i) = (List.range 3).map (fun j => word (leAt c.data (12 * i + 4 * j) 4))) ∧
    (runs 0x14 → e.engState = 3 → e.clk.applied = 0 → argOf c 12 3 < 2 ^ 20 →
      let adj := argOf c 4 8 % 2 ^ 60 * 2 ^ 40 + argOf c 12 3 * 2 ^ 20
      (argOf c 15 1 = 1 → argOf c 4 8 < 2 ^ 59 ∨ 2 ^ 64 - 2 ^ 59 ≤ argOf c 4 8 →
        endsWith .sundialSetStep s c 0 (fun e' => leBytes 10 (e'.clk.nextSun.toNat / 2 ^ 20)) (fun e' => e'.clk.seen = e.clk.sun + BitVec.ofNat 100 adj ∧ e'.keys.l = L)) ∧
      (argOf c 15 1 = 2 → argOf c 4 8 < 2 ^ 60 →
        endsWith .sundialSetLoad s c 0 (fun e' => leBytes 10 (e'.clk.nextSun.toNat / 2 ^ 20)) (fun e' => e'.clk.seen = BitVec.ofNat 100 adj ∧ e'.clk.loaded = true ∧ e'.keys.l = L))) ∧
    (runs 0x06 → e.engState = 5 → (∀ n, n < 24 → e.flag F.LNK_CTL_EN n = false) →
      ∃ e', exec .selftest s = .next (withEng s e') ∧ e'.keys.cmds = [{ c with stage := .testing }] ∧ e'.flag F.KEY_CSTAT_TAKEN 0 = true ∧
        e'.sys.bist = some (argOf c 4 1, e.clk.cycle + (if (argOf c 4 1).testBit 0 then 6000000 else 0) + if (argOf c 4 1).testBit 1 then 12000000 else 0)) ∧
    (runs 0x10 → e.engState = 1 → e.keys.img = none →
      (40 ≤ argOf c 9 3 → argOf c 9 3 % 4 = 0 → argOf c 9 3 ≤ 128 * e.freeCells →
        let n := (argOf c 9 3 + 127) / 128
        ∃ e', exec .loadImage s = .next (withEng s e') ∧ e'.engState = 2 ∧
          e'.keys.img = some { boot := false, addr := argOf c 4 5, total := argOf c 9 3, cells := [], got := 0, phase := 1 } ∧
          e'.sw.allocs = e.sw.allocs ++ [{ why := .image, n := n, c7 := false, till := e.clk.cycle + n + 2 }]) ∧
      (40 ≤ argOf c 9 3 → argOf c 9 3 % 4 = 0 → 128 * e.freeCells < argOf c 9 3 → endsWith .loadImage s c 8 (fun _ => []) mailboxEmpty) ∧
      (argOf c 9 3 < 40 ∨ argOf c 9 3 % 4 ≠ 0 → endsWith .loadImage s c 7 (fun _ => []) mailboxEmpty)) ∧
    (∀ o : KeeperOp, o = .firmware ∨ o = .critical → o.is c → runs (byteAt c.entry 0) → e.engState = 3 →
      endsWith o.cmd s c (e.fld F.KEY_CRES_RESULT 0) (fun _ => crdOf e) (fun e' => mailboxEmpty e' ∧
        (o = .critical → e.fld F.KEY_CRES_RESULT 0 = 0 → e'.keys.l = L)))

/-- R449, R450, R454, R455, R465: LDG_CTL.WRITE starts the write of LDG_WD at the word of LDG_ADDR; 512 cycles later it ends, LDG_WCNT counts it, and no other word has changed; the word holds its value unless
WERR says that its verify failed (which is free). A write of LDG_ADDR starts a read, whose word is held 16 cycles later, a secret or reserved one as 0. At a full hour HOURS + 1 is written to a record of the two. -/
def Obligations.LedgerWritesReadsAndHours : Prop :=
  (∀ (who : Acc) (s : State), legal s who .LDG_CTL 0 1 → s.block.eng.keys.ledq = [] → s.block.eng.keys.ledAt = 0 →
    let e := s.block.eng
    ∃ e', exec (.ldgWrite who 1) s = .next (done s who e') ∧ e'.keys.ledAt = e.clk.cycle + 1 ∧
      e'.keys.ledq = [⟨e.fld F.LDG_ADDR_ADDR who.key, e.val .LDG_WD0 0 + e.fld F.LDG_WD1_WD_HI 0 * 2 ^ 20, .keeper⟩]) ∧
  (∀ (s : State) (w : LedWrite),
    let e := s.block.eng
    e.keys.ledq = [w] → w.why = .keeper → w.v < 2 ^ 32 → 0 < e.keys.ledAt → e.keys.ledAt + 511 ≤ e.clk.cycle → e.flag F.LDG_STAT_WERR 0 = false →
      ∃ m' e', exec .ledgerWordWriteDone s = .next { s with block := ⟨m', e'⟩ } ∧ e'.keys.ledq = [] ∧ e'.keys.ledAt = 0 ∧
        e'.reg .LDG_WCNT 0 = e.reg .LDG_WCNT 0 + 1 ∧ (e'.flag F.LDG_STAT_WERR 0 = false → m'.ledgerWord w.idx = w.v) ∧
        (∀ a, a ≠ w.idx → m'.ledgerWord a = s.block.mem.ledgerWord a) ∧
        m'.basin = s.block.mem.basin ∧ m'.data = s.block.mem.data ∧ m'.code = s.block.mem.code) ∧
  (∀ (who : Acc) (v : Word) (s : State), legal s who .LDG_ADDR 0 v →
    ∃ e', exec (.ledgerReadStart who v) s = .next (done s who e') ∧ Tab.find e'.sys.ldgRead who.key = some (v.toNat, s.block.eng.clk.cycle) ∧
      Tab.find e'.sys.ldgShown who.key = none) ∧
  (∀ (who : Acc) (s : State) (a c : Nat), who ≠ .thread 0 → Tab.find s.block.eng.sys.ldgRead who.key = some (a, c) → c + 16 ≤ s.block.eng.clk.cycle →
    ∃ e', exec (.ledgerReadDone who) s = .next (withEng s e') ∧ Tab.find e'.sys.ldgShown who.key =
      some (if a < 4 ∨ (0x80 ≤ a ∧ a < 0x100) then 0 else s.block.mem.ledgerWord a)) ∧
  (∀ (s : State),
    let e := s.block.eng
    let h := (s.block.mem.hours + 1) % 2 ^ 32
    3600000000000 ≤ e.sys.hourNs → e.flag F.RST_STAT_PLLLOCK 0 = true → e.keys.ledq = [] → s.block.mem.hours + 1 < 2 ^ 32 →
      ∃ e' a q, exec .hours s = .next (withEng s e') ∧ e'.sys.hourNs = e.sys.hourNs - 3600000000000 ∧ (a = 0x60 ∨ a = 0x64) ∧
        e'.keys.ledq.map (fun w => (w.idx, w.v)) = [(a, h), (a + 1, q), (a + 2, ledgerCheck [h, q])])

/-! ### Power, reset and start-up -/

namespace Sys2Proof.Claims

open Sys2Proof.Machine Sys2Proof.Safety

/-- Exit latencies of DOZE, NAP, DORMANT in ns (R466). -/
def latencyNs (lv : Nat) : Nat := if lv = 2 then 1000 else if lv = 3 then 40000 else 3000000

/-- Thread t cannot issue and has nothing in flight (R468). -/
def idleThr (now : Nat) (x : Thr) : Prop :=
  x.mem = none ∧ (x.issued = 0 ∨ x.issued + 7 ≤ now) ∧ (x.st = .held ∨ x.st = .faulted ∨ (x.st = .wait ∧ ∀ r a g, x.wait ≠ .lock r a (some g)))

/-- After a reset: RESET, thread 1 RUN at the boot ROM and every other thread HELD with registers 0, awake (R245, R482, R490). -/
def startsUp (e : Eng) : Prop :=
  e.engState = 0 ∧ e.pwr.lvl = 0 ∧ e.getThr 1 = { st := .run, pc := 0xFC000 } ∧ ∀ t, t ≠ 1 → e.getThr t = {}

/-- The memories after a reset: all 0 but the Ledger (R482). -/
def memCleared (m m' : Mem) : Prop := m'.basin = [] ∧ m'.data = [] ∧ m'.code = [] ∧ m'.ledger = m.ledger

/-- An engine reset of a cause (R481, R482, R484, R485): it starts up again, memory is initialised from now on, the cause joins those seen, the next epoch begins. -/
def engineResetBy (b : Block) (cause : Nat) (m' : Mem) (e' : Eng) : Prop :=
  let e := b.eng
  startsUp e' ∧ memCleared b.mem m' ∧ e'.fld F.RST_CAUSE_LAST 0 = cause ∧ (e'.fld F.RST_CAUSE_SEEN 0).testBit (cause - 1) = true ∧
    e'.flag F.RST_STAT_INIT 0 = true ∧ e'.sys.initAt = e.clk.cycle ∧ e'.fld F.HRG_EPOCH_EPOCH 0 = (e.fld F.HRG_EPOCH_EPOCH 0 + 1) % 65536 ∧
    e'.reg .RST_CNT 0 = e.reg .RST_CNT 0 + 1 ∧ e'.clk = { e.clk with owner := 0, owed := [] } ∧ e'.tick = {} ∧ e'.reeds = [] ∧ e'.sw = {} ∧ e'.cells = []

/-- A full reset of a cause (R482, R481): only the Ledger stays. -/
def fullResetBy (s : State) (cause : Nat) (m' : Mem) (e' : Eng) : Prop :=
  startsUp e' ∧ memCleared s.block.mem m' ∧ e'.fld F.RST_CAUSE_LAST 0 = cause ∧ e'.fld F.RST_CAUSE_SEEN 0 = 2 ^ (cause - 1) ∧
    e'.flag F.RST_STAT_PLLLOCK 0 = false ∧ e'.clk.sun = 0 ∧ e'.fld F.HRG_EPOCH_EPOCH 0 = 0

/-- An engine reset is made once in a cycle; later causes of it join the first (R479, R481). -/
def notReset (e : Eng) : Prop := e.sys.resetAt ≠ e.clk.cycle + 1

/-- The watchdog is on, has run out and is not frozen (R494). -/
def ranOut (e : Eng) : Prop := e.flag F.RST_WDCTL_EN 0 = true ∧ e.sys.wdLeft = 0 ∧ e.anyHalted = false ∧ e.sys.wdFrozen = false

/-- It is the turn of word i of memory `mem` (R495): the next one, 64 cycles after the one before. -/
def turnOf (e : Eng) (mem i : Nat) : Prop := ∃ c, c ≤ e.clk.cycle ∧ Tab.get (0, 0) e.sys.scrub mem = (i, c) ∧ ∀ n, memWords mem = some n → i < n

/-- JX_BOOT_ADDR as a byte address, and the read of the image header there (R489). -/
def bootAddr (e : Eng) : Nat := e.val .JX_BOOT_ADDR0 0 * 128 + e.fld F.JX_BOOT_ADDR1_BASE_HI 0 * 2 ^ 27
def bootStarted (e e' : Eng) : Prop := e'.engState = 2 ∧ ∃ l, e'.initq = l ++ [⟨0x10, false, bootAddr e, 32, [], .image 0⟩]

end Sys2Proof.Claims

/-- R466, R468, R469, R471 to R475, R477: a power state is chosen only in RUN, within PWR_CTL.MAXST and the tolerance, with nothing BUSY; at the end of its entry it takes effect. A wake starts the exit, whose latency
passes, and the causes join PWR_WSRC; at its end the engine runs. PWR_WAKE wakes, an edge at an LWAKE link wakes NAP and is counted. A barrel none of whose threads can issue is gated, and restarts for one that can. In an exit from DORMANT, Sundial counts CCLK
cycles again from the relock of the PLL on (R75). -/
def Obligations.PowerStatesAreEnteredAndLeft : Prop :=
  (∀ (e : Eng) c, e.pwr.exit = some c → e.pwr.relock = some e.clk.cycle → e.relockDue.pwr.relock = none ∧ e.relockDue.flag F.SUN_STAT_REFMODE 0 = false) ∧
  ∀ (s : State),
    let e := s.block.eng
    (∃ e', exec .powerStateEntry s = .next (withEng s e') ∧ e'.pwr.lvl = e.pwr.lvl ∧
      (e.pwr.entry = none → ∀ lv c, e'.pwr.entry = some (lv, c) → e.engState = 3 ∧ e.pwr.lvl = 0 ∧ e.pwr.exit = none ∧ (lv = 2 ∨ lv = 3 ∨ lv = 4) ∧
        lv ≤ e.fld F.PWR_CTL_MAXST 0 ∧ latencyNs lv ≤ e.tolerance ∧ e.armed.testBit 6 = false ∧ c = e.entryEnd lv) ∧
      (e.engState = 3 → e.pwr.lvl = 0 → e.pwr.entry = none → e.pwr.exit = none → e.mayEnter 4 = false → e.mayEnter 3 = true →
        e'.pwr.entry = some (3, e.clk.cycle + 2000))) ∧
    (∀ lv c, e.pwr.entry = some (lv, c) → c ≤ e.clk.cycle →
      ∃ e', exec .powerEntryEnd s = .next (withEng s e') ∧ e'.pwr.lvl = lv ∧ e'.pwr.entry = none ∧ (lv = 4 → e'.flag F.SUN_STAT_REFMODE 0 = true)) ∧
    (e.pwr.lvl = 2 ∨ e.pwr.lvl = 3 ∨ e.pwr.lvl = 4 → e.pwr.exit = none → 0 < e.pwr.wake → e.pwr.wake < 64 → e.pwr.since < e.clk.cycle →
      ∃ e', exec .powerExitStart s = .next (withEng s e') ∧
        (e.pwr.lvl = 2 → e'.pwr.exit = some (e.clk.cycle + 500)) ∧ (e.pwr.lvl = 3 → e'.pwr.exit = some (e.clk.cycle + 20000)) ∧
        (e.pwr.lvl = 4 → ∃ c r, e'.pwr.exit = some c ∧ e'.pwr.relock = some r ∧ e.clk.cycle < r ∧ r ≤ c) ∧
        (∀ i, i < 6 → e.pwr.wake.testBit i = true ∨ (e.reg .PWR_WSRC 0).getLsbD i = true → (e'.reg .PWR_WSRC 0).getLsbD i = true)) ∧
    (∀ c, e.pwr.exit = some c → c ≤ e.clk.cycle →
      ∃ e', exec .powerExitEnd s = .next (withEng s e') ∧ e'.pwr.lvl = 0 ∧ e'.pwr.exit = none ∧ e'.flag F.SUN_STAT_REFMODE 0 = false) ∧
    (∀ who, legal s who .PWR_WAKE 0 1 → exec (.hostWake who 1) s = .next (done s who
      (if (e.pwr.lvl = 0 ∧ e.pwr.entry = none) ∨ e.pwr.exit ≠ none then e else { e with pwr := { e.pwr with wake := e.pwr.wake ||| 16 } }))) ∧
    (∀ (n : LinkId) (pins : BitVec 16), e.linkMode n.val = 1 → e.pwr.lvl = 3 → e.pwr.exit = none → e.flag F.LNK_CTL_EN n.val = true → e.lwake n.val = true →
      e.flag F.SCH_LCTL_EN n.val = false → (e.getLink n.val).pins.testBit 8 ≠ pins.getLsbD 8 →
      ∃ e', exec (.linkWake n pins) s = .next (withEng s e') ∧ e'.pwr.wake = e.pwr.wake ||| 4 ∧ e'.val .PWR_LWCNT 0 = min (e.val .PWR_LWCNT 0 + 1) 0xFFFFF ∧
        (e'.getLink n.val).ext = pins.toNat) ∧
    (∀ p : Pav, (∀ t, 1 ≤ t → t ≤ 63 → pavOf t = p.val → idleThr e.clk.cycle (e.getThr t)) → 1 ≤ e.fld F.PWR_CTL_MAXST 0 → 20 ≤ e.tolerance → e.pwr.lvl = 0 →
      exec (.barrelGate p) s = .next (withEng s (e.setBrl p.val { e.getBrl p.val with gated := true }))) ∧
    (∀ (p : Pav) t, 1 ≤ t → t ≤ 63 → pavOf t = p.val → (e.getThr t).st = .run ∨ (e.getThr t).st = .halted ∨ ((e.getThr t).st = .wait ∧ e.waitDue (e.getThr t) = true) →
      exec (.barrelUngate p) s = .next (withEng s (e.setBrl p.val { e.getBrl p.val with gated := false })))

/-- R479 to R486, R490, R494, R528, R441: the power-on detector and JX_RESET_N make a full reset of their cause, the detector before the input; the watchdog, at the end of its cycle unless that cycle kicks it, a
critical command whose completion becomes visible and the end of a self-test make an engine reset of theirs. Release ends the holding. No word of the Ledger changes where none is being written. -/
def Obligations.ResetsStartTheBlockAgain : Prop :=
  (∀ (b : Block), b.eng.sys.wdHit = true → b.eng.sys.wdFrozen = false → b.eng.anyHalted = false →
    (ranOut b.eng → notReset b.eng → ∃ m' e', b.wdEnd = ⟨m', e'⟩ ∧ engineResetBy b 4 m' e') ∧
    (b.eng.sys.wdLeft ≠ 0 → b.wdEnd = { b with eng := { b.eng with sys := { b.eng.sys with wdHit := false } } })) ∧
  ∀ (s : State),
    let e := s.block.eng
    (e.keys.ledAt = 0 →
      (∃ m' e', exec (.powerOnReset true) s = .next { s with block := ⟨m', e'⟩ } ∧ fullResetBy s 1 m' e' ∧ e'.sys.porHeld = true) ∧
      (e.sys.porHeld = false → ∃ m' e', exec .blockResetAssert s = .next { s with block := ⟨m', e'⟩ } ∧ fullResetBy s 2 m' e' ∧ e'.sys.held = true)) ∧
    (exec (.powerOnReset false) s = .next (withEng s { e with sys := { e.sys with porHeld := false } })) ∧
    (e.sys.porHeld = true → exec .blockResetAssert s = .next (withEng s { e with sys := { e.sys with held := true } })) ∧
    (exec .blockResetRelease s = .next (withEng s { e with sys := { e.sys with held := false } })) ∧
    (ranOut e → exec .watchdogExpiry s = .next (withEng s { e with sys := { e.sys with wdHit := true } })) ∧
    (∀ (id : BitVec 6) a d j l i x c nb ctr, onlyTxn e ⟨id.toNat, true, a, 8, d, .entryTail 1⟩ → (e.getRing 1).outq = (j, d) :: l → e.keys.shown = [(i, x)] →
      e.keys.reset = some (i, c, nb, ctr) → c = 3 ∨ c = 5 → notReset e →
      ∃ m' e', exec (.initiatorResponse id 0 []) s = .next { s with block := ⟨m', e'⟩ } ∧ engineResetBy s.block c m' e' ∧ e'.sys.noboot = nb ∧
        e'.keys.l = max e.keys.l ctr) ∧
    (∀ (f : BitVec 2) (mem : Byte) (idx : BitVec 24) (loc : BitVec 4) tests fin, e.sys.bist = some (tests, fin) → fin ≤ e.clk.cycle → notReset e →
      ∃ m' e', exec (.bistEnd f mem idx loc) s = .next { s with block := ⟨m', e'⟩ } ∧ engineResetBy s.block 6 m' e' ∧
        e'.sys.bistRes = some ([BitVec.ofNat 8 (f.toNat &&& tests), mem] ++ leBytes 3 idx.toNat ++ [BitVec.ofNat 8 loc.toNat]))

/-- R449, R451, R453, R486 to R489, R493 to R495: the PLL locks once: Sundial starts at 0, L and CEIL at the counter record in force, memory initialisation begins; 80,000 cycles later it ends. The boot ROM goes to
MAINTENANCE after a self-test, to LOADING after a recovery with AUTO, else to SETUP; GO starts the boot path. The watchdog counts from its full period; a self-test runs for its time; the
scrubber visits the words in turn, as a cycle ends, keeps out of the way of a fetch, and corrects a single-bit error. -/
def Obligations.StartUpReachesEngineState : Prop :=
  (∀ (e : Eng) (mem i : Nat), mem < 12 → i < 2 ^ 20 →
    let k := mem * 2 ^ 20 + i
    let e' := e.scrubDo mem i
    ((∀ x ∈ e.thr, x.2.issued ≠ e.clk.cycle + 1) →
      Tab.get (0, 0) e'.sys.scrub mem = (i + 1, e.clk.cycle + 64) ∧
      (Tab.find e.ecc k = none → e'.ecc = e.ecc) ∧
      (Tab.find e.ecc k = some false → Tab.find e'.ecc k = none ∧ bumped e e' F.JX_ECCCNT_CORR 0) ∧
      (Tab.find e.ecc k = some true → e'.ecc = e.ecc ∧ bumped e e' F.JX_ECCCNT_UNCORR 0 ∧ e'.val .JX_ECCADDR 0 = i ∧ e'.fld F.JX_ECCSRC_MEM 0 = mem)) ∧
    (∀ x ∈ e.thr, 4 ≤ mem → mem ≤ 6 → pavOf x.1 + 4 = mem → x.2.issued = e.clk.cycle + 1 → e' = { e with closing := e.closing ++ [(.scrub, mem, i)] })) ∧
  ∀ (s : State),
    let e := s.block.eng
    (e.flag F.RST_STAT_PLLLOCK 0 = false → e.sys.held = false → e.sys.porHeld = false →
      ∃ e', exec .pllLock s = .next (withEng s e') ∧ e'.flag F.RST_STAT_PLLLOCK 0 = true ∧ e'.flag F.RST_STAT_INIT 0 = true ∧ e'.clk.sun = 0 ∧
        e'.clk.roundBase = e.clk.cycle ∧ e'.sys.initAt = e.clk.cycle ∧ e'.keys.l = e'.keys.ceil ∧
        (∀ a v q, s.block.mem.counterRec = some (a, v, q) → e'.keys.l = v) ∧ (s.block.mem.counterRec = none → e'.keys.l = 0) ∧
        (e'.flag F.KEY_STAT_PROV 0 = true ↔ s.block.mem.ledgerWord 6 = 0x5A5A0001 ∧
          s.block.mem.ledgerWord 7 = ledgerCheck ((List.range 7).map s.block.mem.ledgerWord))) ∧
    (e.flag F.RST_STAT_INIT 0 = true → e.flag F.RST_STAT_PLLLOCK 0 = true → e.sys.initAt + 80000 ≤ e.clk.cycle →
      ∃ e', exec .memoryInitEnd s = .next (withEng s e') ∧ e'.flag F.RST_STAT_INIT 0 = false ∧ e'.sys.bistRes = none) ∧
    (e.engState = 0 → e.sys.bootAt ≠ 0 → (e.getThr 1).st = .run →
      ∃ e', exec .bootDecision s = .next (withEng s e') ∧
        let c := e.fld F.RST_CAUSE_LAST 0
        let auto := e.flag F.JX_BOOT_CTL_AUTO 0 = true ∧ e.sys.noboot = false
        (c = 6 → e'.engState = 5) ∧ (c ≠ 6 → c < 3 ∨ 5 < c ∨ ¬auto → e'.engState = 1) ∧ (3 ≤ c → c ≤ 5 → auto → bootStarted e e')) ∧
    (∀ who v, legal s who .JX_BOOT_CTL 0 v → v.getLsbD 0 = true → ∃ e', exec (.bootGo who v) s = .next (done s who e') ∧ bootStarted e e') ∧
    (∀ who, legal s who .RST_WDKICK 0 1 → exec (.watchdogKick who 1) s =
      .next (done s who { e with sys := { e.sys with wdLeft := e.fld F.RST_WDCTL_PERIOD 0 * 65536 } })) ∧
    (∀ who v, legal s who .RST_WDCTL 0 v → v.getLsbD 0 = true →
      ∃ e', exec (.watchdogEnable who v) s = .next (done s who e') ∧ e'.flag F.RST_WDCTL_EN 0 = true ∧ e'.fld F.RST_WDCTL_PERIOD 0 = fieldOf v 19 4 ∧ e'.sys.wdLeft = fieldOf v 19 4 * 65536) ∧
    (∀ who v, legal s who .RST_BISTCTL 0 v → v.getLsbD 2 = true → (∃ c ∈ e.keys.cmds, c.stage = .posted ∧ c.op = 6) →
      ∃ e', exec (.bistGo who v) s = .next (done s who e') ∧ e'.sys.bist = some (fieldOf v 1 0, e.clk.cycle +
        (if v.getLsbD 0 then 6000000 else 0) + if v.getLsbD 1 then 12000000 else 0)) ∧
    (∀ (mem : Fin 12) (i : Word), e.awake = true → e.flag F.RST_SCRUB_EN 0 = true → e.engState = 3 ∨ e.engState = 4 ∨ e.engState = 5 → turnOf e mem.val i.toNat →
      (∀ c ∈ e.closing, c.1 = .scrub → c.2.1 ≠ mem.val) →
      exec (.scrubVisit mem i) s = .next (withEng s { e with closing := e.closing ++ [(.scrub, mem.val, i.toNat)] }))

/-! ### The Hide -/

namespace Sys2Proof.Claims

open Sys2Proof.Machine Sys2Proof.Safety

/-- The thread that HIDE_HSEL selects (R507). -/
def hidden (s : State) : Nat := s.block.eng.fld F.HIDE_HSEL_TID 0

/-- The level and the owner of the Hide (R500). -/
def hideAt (e : Eng) (level path : Nat) : Prop := e.fld F.HIDE_AUTH_LEVEL 0 = level ∧ e.fld F.HIDE_AUTH_PATH 0 = path

/-- The response bytes of HIDE_RESP0 to 2 and of the word v for HIDE_RESP3, the first in [15:8] (R502). -/
def respOf (e : Eng) (v : Word) : List Nat :=
  ([e.reg .HIDE_RESP 0, e.reg .HIDE_RESP 1, e.reg .HIDE_RESP 2, v].flatMap twoOf).map (·.toNat)

/-- The access unit's answer: RESP, ERR, not BUSY (R504). -/
def accAnswered (e : Eng) (resp err : Nat) : Prop := e.hide.acc = none ∧ e.fld F.HIDE_ASTAT_RESP 0 = resp ∧ e.fld F.HIDE_ASTAT_ERR 0 = err

/-- Every thread of pavilion p is HALTED; of all three (R505, R506). -/
def pavIsHalted (e : Eng) (p : Nat) : Prop := ∀ t, 1 ≤ t → t ≤ 63 → pavOf t = p → (e.getThr t).st = .halted
def allAreHalted (e : Eng) : Prop := ∀ t, 1 ≤ t → t ≤ 63 → (e.getThr t).st = .halted

/-- The thread x HALTED by the Hide in cycle `now`, at once (R507). -/
def haltedNow (now : Nat) (x : Thr) : Thr :=
  { x with st := .halted, prev := x.st, haltReq := none, step := false, entered := false, mark := (now + 1, 3) }

/-- The thread x resumed in cycle `now` to PREV; it issues two cycles later at the earliest (R509) and counts as released (R38). -/
def resumedAt (now : Nat) (step : Bool) (x : Thr) : Thr :=
  { x with st := x.prev, prev := .held, step := step, noBreak := true, relCyc := now + 1, ready := max x.ready (now + 2) }

/-- A thread that a halt takes at once: not HALTED, nothing in flight, no locked sequence, no other event of the cycle (R246, R507, R510). -/
def haltsNow (now : Nat) (x : Thr) : Prop := x.st ≠ .halted ∧ x.mem = none ∧ x.seq = none ∧ x.mark.1 ≠ now + 1

/-- The threads that a halt or resume of HIDE_HCTL reaches: the one selected, its pavilion, or all (R507, R509). -/
def reachesThr (s : State) (scope t : Nat) : Prop :=
  1 ≤ t ∧ t ≤ 63 ∧ (if scope = 0 then t = hidden s else if scope = 1 then hidden s ≠ 0 ∧ pavOf t = pavOf (hidden s) else True)

/-- A word of HIDE_HCTL that does one thing, with its command, its scope and, of a halt, its cause (R507, R509). -/
def isHalt (who : Acc) (c : Instr) (v : Word) (scope cause : Nat) : Prop :=
  (c = .hideHalt who 1 ∧ v = 1 ∧ scope = 0 ∧ cause = 0) ∨ (c = .haltpav who 8 ∧ v = 8 ∧ scope = 1 ∧ cause = 4) ∨
    (c = .haltall who 32 ∧ v = 32 ∧ scope = 2 ∧ cause = 5)
def isResume (who : Acc) (c : Instr) (v : Word) (scope : Nat) : Prop :=
  (c = .hideResume who 2 ∧ v = 2 ∧ scope = 0) ∨ (c = .resumepav who 16 ∧ v = 16 ∧ scope = 1) ∨ (c = .resumeall who 64 ∧ v = 64 ∧ scope = 2)

/-- A lane's entry of this cycle names thread t (R236). -/
def ownEntry (e : Eng) (t : Nat) : Prop :=
  ∃ lane, lane < 4 ∧ Tab.get 0 (e.getBrl (pavOf t)).force (32 * lane + (e.clk.cycle - e.clk.roundBase) % 32) = t

/-- Opcodes of the ALU instructions of format R8 (R274). -/
def AluOp.code : AluOp → Nat
  | .mov => 0
  | .add => 1
  | .adc => 2
  | .sub => 3
  | .sbc => 4
  | .and => 5
  | .or => 6
  | .xor => 7
  | .cmp => 8
  | .tst => 9
  | .shl => 10
  | .shr => 11
  | .sar => 12
  | .rol => 13
  | .mul => 14
  | .mulh => 15

/-- The terminal FIFOs of pavilion p (R518, R519). -/
def txOf (e : Eng) (p : Pav) : List (Nat × Nat) := Tab.get [] e.hide.tx p.val
def rxOf (e : Eng) (p : Pav) : List (Nat × Nat) := Tab.get [] e.hide.rx p.val

/-- Stimulus port n is enabled and open to thread t (R520). -/
def stimOpen (e : Eng) (n : Fin 32) (t : Tid) : Prop :=
  (if n.val < 20 then (e.reg .HIDE_STIMEN 0).getLsbD n.val else (e.reg .HIDE_STIMEN1 0).getLsbD (n.val - 20)) = true ∧
    (e.fld F.HIDE_SPCFG_PAVMASK n.val).testBit (pavOf t.val) = true

/-- The packets of the cycle are these and no others, by first byte and bytes after DELTA (R521, R522). -/
def packetsAre (e : Eng) (l : List (Nat × List Byte)) : Prop := e.hide.packets.map (·.2) = l

/-- The trace buffer has space, after no loss and no long pause, and fills no container (R521, R428). -/
def traceRoom (e : Eng) (n : Nat) : Prop :=
  e.hide.lost = 0 ∧ e.clk.cycle - e.hide.lastCyc ≤ 65535 ∧ e.hide.buf.length + n < 30

/-- The data register of the TAP path (R534): RESP or OP in [33:32], the offset in [31:20], data in [19:0]. -/
def tapBits (hi off data : Nat) : Nat := hi * 2 ^ 32 + off * 2 ^ 20 + data

/-- Update-DR: the next access, unless its OP is none or one is in progress (R534). -/
def tapStarted (h : Hide) (x : Nat) : Hide :=
  { h with tapOut := x, tapReq := if h.tapReq = none ∧ x / 2 ^ 32 ≠ 0 then some x else h.tapReq }

end Sys2Proof.Claims

/-- R500 to R503: a path's request draws a challenge bound to it and its level; a right response over the TAP path raises the level and consumes the challenge, a wrong one is counted and starts the cool-down; the
cool-down ends when its time is over; DROP returns to NONE and disables every stimulus port. -/
def Obligations.HideLevelFollowsChallenge : Prop :=
  (∀ (who : Acc) (v : Word) (s : State), legal s who .HIDE_CHALCTL 0 v → v = 1 ∨ v = 2 →
    ∃ e' x, exec (.challengeRequest who v) s = .next (done s who e') ∧ e'.flag F.HIDE_AUTHSTAT_CVALID 0 = true ∧ e'.hide.chal = x ∧ x < 2 ^ 64 ∧ e'.hide.chalPath = who.path ∧
      e'.hide.chalLevel = v.toNat ∧ (∀ i, i < 4 → e'.val .HIDE_CHAL i = x / 2 ^ (48 - 16 * i) % 65536) ∧ e'.reg .HIDE_AUTH 0 = s.block.eng.reg .HIDE_AUTH 0) ∧
  (∀ (v : Word) (s : State), legal s .tap .HIDE_RESP 3 v →
    let e := s.block.eng
    let lv := e.hide.chalLevel
    e.flag F.HIDE_AUTHSTAT_CVALID 0 = true → e.hide.chalPath = 1 →
      (respOf e v = s.block.response e.hide.chal 1 lv → 1 ≤ lv → lv ≤ 2 → e.fld F.HIDE_AUTH_LEVEL 0 ≤ lv →
        ∃ e', exec (.responseCheck .tap v) s = .next (done s .tap e') ∧ hideAt e' lv 1 ∧ e'.flag F.HIDE_AUTHSTAT_CVALID 0 = false) ∧
      (respOf e v ≠ s.block.response e.hide.chal 1 lv →
        ∃ e', exec (.responseCheck .tap v) s = .next (done s .tap e') ∧ e'.reg .HIDE_AUTH 0 = e.reg .HIDE_AUTH 0 ∧ bumped e e' F.HIDE_AUTHSTAT_FAILS 0 ∧
          e'.flag F.HIDE_AUTHSTAT_COOL 0 = true ∧ e'.hide.coolAt = e.clk.cycle + 1048576 ∧ e'.flag F.HIDE_AUTHSTAT_CVALID 0 = false)) ∧
  (∀ (s : State), s.block.eng.flag F.HIDE_AUTHSTAT_COOL 0 = true → s.block.eng.hide.coolAt ≤ s.block.eng.clk.cycle →
    exec .coolExpiry s = .next (withEng s (s.block.eng.setFld F.HIDE_AUTHSTAT_COOL 0 0))) ∧
  (∀ (who : Acc) (s : State), legal s who .HIDE_CHALCTL 0 4 →
    ∃ e', exec (.authDrop who 4) s = .next (done s who e') ∧ hideAt e' 0 0 ∧ e'.reg .HIDE_STIMEN 0 = 0 ∧ e'.reg .HIDE_STIMEN1 0 = 0)

/-- R504 to R506, R534: a command of HIDE_ACMD starts an access, which a path with OBSERVE is refused beyond registers; its end answers the value of a register, of a data word or of a code word, or writes it, where the
threads concerned are HALTED, and is refused where they are not. The TAP path's data register shows the last result, starts the next access, and a reset of the path abandons it. -/
def Obligations.HideAccessesReadAndWrite : Prop :=
  (∀ (who : Acc) (s : State),
    let e := s.block.eng
    let x (code wr : Bool) : HideAcc := ⟨code, wr, e.val .HIDE_AADDR 0, e.val .HIDE_ADATA 0, e.fld F.HIDE_APAGE_PAV 0, e.fld F.HIDE_APAGE_PAGE 0⟩
    let begins (c : Instr) (y : HideAcc) : Prop := exec c s = .next (done s who { e with hide := { e.hide with acc := some y } })
    (e.fld F.HIDE_AUTH_LEVEL 0 = 2 →
      (legal s who .HIDE_ACMD 0 1 → begins (.hideAccessRead who 1) (x false false)) ∧ (legal s who .HIDE_ACMD 0 2 → begins (.hideAccessWrite who 2) (x false true)) ∧
      (legal s who .HIDE_ACMD 0 5 → begins (.hideCodeRead who 5) (x true false)) ∧ (legal s who .HIDE_ACMD 0 6 → begins (.hideCodeWrite who 6) (x true true))) ∧
    (e.fld F.HIDE_AUTH_LEVEL 0 = 1 → legal s who .HIDE_ACMD 0 1 →
      (0xC0000 ≤ e.val .HIDE_AADDR 0 → e.val .HIDE_AADDR 0 < 0xF0000 → begins (.hideAccessRead who 1) (x false false)) ∧
      (e.val .HIDE_AADDR 0 < 0xC0000 → ∃ e', exec (.hideAccessRead who 1) s = .next (done s who e') ∧ e'.hide = e.hide ∧ e'.fld F.HIDE_ASTAT_RESP 0 = 1 ∧
        e'.fld F.HIDE_ASTAT_ERR 0 = 3))) ∧
  (∀ (s : State) (y : HideAcc),
    let e := s.block.eng
    let a := y.addr
    e.hide.acc = some y →
      (y.code = false → y.wr = false → ∀ r i, a = r.addr i → mayRead e .hide r i = true → 0xC0000 ≤ a → a < 0xF0000 →
        ∃ e', exec .hideAccessDone s = .next (withEng s e') ∧ accAnswered e' 0 0 ∧ e'.val .HIDE_ADATA 0 = (e.readWord .hide r i).1 % 2 ^ 20) ∧
      (y.code = false → 0x40000 ≤ a → a < 0x60000 → e.locks = [] → e.ecc = [] →
        (¬allAreHalted e → ∃ e', exec .hideAccessDone s = .next (withEng s e') ∧ accAnswered e' 1 3) ∧
        (allAreHalted e → y.wr = false → ∃ e', exec .hideAccessDone s = .next (withEng s e') ∧ accAnswered e' 0 0 ∧ e'.reg .HIDE_ADATA 0 = memWord s a) ∧
        (allAreHalted e → y.wr = true → ∃ m' e', exec .hideAccessDone s = .next { s with block := ⟨m', e'⟩ } ∧ accAnswered e' 0 0 ∧
          onlyData s.block.mem m' (fun w => if w = a then word y.data else memWord s w))) ∧
      (y.code = true → a < 0x20000 → a % 2 = 0 → y.pav < 3 → e.ecc = [] →
        (¬pavIsHalted e y.pav → ∃ e', exec .hideAccessDone s = .next (withEng s e') ∧ accAnswered e' 1 3) ∧
        (pavIsHalted e y.pav → y.wr = false → ∃ e', exec .hideAccessDone s = .next (withEng s e') ∧ accAnswered e' 0 0 ∧
          e'.reg .HIDE_ADATA 0 = (0 : BitVec 4) ++ s.block.mem.codeByte y.pav a ++ s.block.mem.codeByte y.pav (a + 1)) ∧
        (pavIsHalted e y.pav → y.wr = true → ∃ m' e', exec .hideAccessDone s = .next { s with block := ⟨m', e'⟩ } ∧ accAnswered e' 0 0 ∧
          m'.codeByte y.pav a = BitVec.ofNat 8 (y.data / 256) ∧ m'.codeByte y.pav (a + 1) = BitVec.ofNat 8 y.data ∧
          (∀ b, b < 0x20000 → b ≠ a → b ≠ a + 1 → m'.codeByte y.pav b = s.block.mem.codeByte y.pav b) ∧ m'.data = s.block.mem.data ∧
          m'.basin = s.block.mem.basin ∧ m'.ledger = s.block.mem.ledger))) ∧
  (∀ (s : State) (dr : BitVec 64),
    let e := s.block.eng
    let h := e.hide
    (h.tapReq = none → exec .tapCapture s = .next (withEng s { e with hide := { h with tapOut := h.tapLast } })) ∧
    (∀ r, h.tapReq = some r → ∃ e' x, exec .tapCapture s = .next (withEng s e') ∧ x < 2 ^ 20 ∧ e'.hide = { h with tapOut := tapBits 3 (r / 2 ^ 20 % 2 ^ 12) x }) ∧
    (exec (.tapUpdate dr) s = .next (withEng s { e with hide := tapStarted h (dr.toNat % 2 ^ 34) })) ∧
    exec .tapReset s = .next (withEng s { e with hide := { h with tapReq := none } }))

/-- R507 to R511: halts take the threads in their reach to HALTED with PREV, the others stay; resumes return them to PREV; a step returns the selected one for one instruction. HIDE_HDATA writes a register of the halted
thread that HIDE_HIDX names; a fed ALU instruction, at an entry of its thread two cycles after the write or later, changes the halted thread's registers and flags as R294 says, its PC stays; a fed byte string that is no
instruction is rejected; BUSY clears when the fed instruction is complete. -/
def Obligations.HideControlsHaltedThreads : Prop :=
  (∀ (who : Acc) (s : State),
    (∀ c v scope cause, isHalt who c v scope cause → legal s who .HIDE_HCTL 0 v →
      ∃ e', exec c s = .next (done s who e') ∧ ∀ t,
        (reachesThr s scope t → haltsNow s.block.eng.clk.cycle (s.block.eng.getThr t) →
          e'.getThr t = haltedNow s.block.eng.clk.cycle (s.block.eng.getThr t) ∧ e'.val .HIDE_HCAUSE t = cause * 16) ∧
        (¬reachesThr s scope t → e'.getThr t = s.block.eng.getThr t)) ∧
    (∀ c v scope, isResume who c v scope → legal s who .HIDE_HCTL 0 v →
      ∃ e', exec c s = .next (done s who e') ∧ ∀ t,
        let y := s.block.eng.getThr t
        (reachesThr s scope t → y.st = .halted → e'.getThr t = resumedAt s.block.eng.clk.cycle false y) ∧
        (¬reachesThr s scope t ∨ y.st ≠ .halted → e'.getThr t = y)) ∧
    (legal s who .HIDE_HCTL 0 4 →
      let t := hidden s
      let y := s.block.eng.getThr t
      t ≠ 0 → y.st = .halted →
        ∃ e', exec (.hideStep who 4) s = .next (done s who e') ∧ e'.getThr t = resumedAt s.block.eng.clk.cycle true y)) ∧
  (∀ (who : Acc) (v : Word) (s : State), legal s who .HIDE_HDATA 0 v →
    ∃ e', exec (.haltedRegisterWrite who v) s = .next (done s who e') ∧ ctxHolds (e'.getThr (hidden s)) (s.block.eng.fld F.HIDE_HIDX_IDX 0) v ∧
      (e'.getThr (hidden s)).st = .halted ∧ ∀ u, u ≠ hidden s → e'.getThr u = s.block.eng.getThr u) ∧
  (∀ (who : Acc) (v : Word) (s : State), legal s who .HIDE_FEED 0 v → v.getLsbD 4 = true →
    ∃ e', exec (.feedGo who v) s = .next (done s who e') ∧ e'.flag F.HIDE_FSTAT_BUSY 0 = true ∧ e'.hide.feedAt = s.block.eng.clk.cycle ∧ e'.hide.feedIss = false ∧
      e'.hide.feedRes = none ∧
      e'.hide.feed = some (hidden s, (List.range (fieldOf v 3 0)).map (fun i => (twoOf (s.block.eng.reg .HIDE_INSN (i / 2))).getD (i % 2) 0))) ∧
  (∀ (b : Block) (t : Tid) (l : List Byte),
    let e := b.eng
    let x := e.getThr t.val
    e.hide.feed = some (t.val, l) → e.hide.feedIss = false → e.hide.feedRes = none →
      (∀ (k : AluOp) (rb : Byte), l = [BitVec.ofNat 8 (0x10 + k.code), rb] → (AluOperand.reg rb).ok k.shifts wWord = true → x.st = .halted → x.mem = none →
        e.barrelRuns (pavOf t.val) = true → e.hide.feedAt + 2 ≤ e.clk.cycle → ownEntry e t.val →
        ∃ e', b.feedStep = ⟨b.mem, e'⟩ ∧ e'.hide.feedRes = some (0, 0, e.clk.cycle + 8) ∧
          e'.getThr t.val = { aluWrites k (.reg rb) wWord x with pc := x.pc } ∧ ∀ u, u ≠ t.val → e'.getThr u = e.getThr u) ∧
      (∀ c : Byte, l = [c] → 0x06 ≤ c.toNat → ∃ e', b.feedStep = ⟨b.mem, e'⟩ ∧ e'.hide.feedRes = some (1, 0, e.clk.cycle) ∧ e'.thr = e.thr)) ∧
  (∀ (s : State) (x : Nat × List Byte) (r c n : Nat), s.block.eng.hide.feed = some x → s.block.eng.hide.feedRes = some (r, c, n) → r < 4 → c < 8 →
    (n ≤ s.block.eng.clk.cycle → ∃ e', exec .feedDone s = .next (withEng s e') ∧ e'.hide.feed = none ∧ e'.flag F.HIDE_FSTAT_BUSY 0 = false ∧
      e'.fld F.HIDE_FSTAT_RESULT 0 = r ∧ e'.fld F.HIDE_FSTAT_CAUSE 0 = c ∧ e'.thr = s.block.eng.thr) ∧
    (s.block.eng.clk.cycle < n → exec .feedDone s = .next s))

/-- R518 to R522: a thread's word enters the terminal FIFO of its pavilion, and a debug path's read takes the oldest with its thread; a debug path's word waits for the thread tagged, whose read takes it. A full FIFO drops the
word and says so. A word at an open stimulus port of a thread makes its packet, after a SYNC packet in MARK mode, which enters the trace buffer as the cycle ends with its DELTA, or adds to its tally, which TCLR clears; at a port not open to it nothing happens. -/
def Obligations.TerminalAndStimulusPortsCarryWords : Prop :=
  (∀ (t : Tid) (p : Pav) (v : Word) (s : State), legal s (.thread t) .HIDE_TXD p.val v →
    let e := s.block.eng
    (1 ≤ e.fld F.HIDE_AUTH_LEVEL 0 → (txOf e p).length < 8 →
      ∃ e', exec (.vtTxWrite (.thread t) p v) s = .next (done s (.thread t) e') ∧ txOf e' p = txOf e p ++ [(v.toNat, t.val)]) ∧
    (8 ≤ (txOf e p).length → ∃ e', exec (.vtTxWrite (.thread t) p v) s = .next (done s (.thread t) e') ∧ bumped e e' F.HIDE_VTSTAT_TXDROP p.val ∧ e'.hide = e.hide)) ∧
  (∀ (who : Acc) (p : Pav) (s : State), who = .host ∨ who = .tap → mayRead s.block.eng who .HIDE_TXD p.val = true →
    ∀ v t l, txOf s.block.eng p = (v, t) :: l → t < 64 →
      ∃ e', exec (.vtTxRead who p) s = .next (withEng s e') ∧ answered e' who (2 ^ 19 + v) ∧ txOf e' p = l ∧ e'.fld F.HIDE_TXTID_TID (p.val + 4 * who.path) = t) ∧
  (∀ (who : Acc) (p : Pav) (v : Word) (s : State), who = .host ∨ who = .tap → legal s who .HIDE_RXD p.val v →
    let e := s.block.eng
    ((rxOf e p).length < 4 →
      ∃ e', exec (.vtRxWrite who p v) s = .next (done s who e') ∧ rxOf e' p = rxOf e p ++ [(v.toNat, e.fld F.HIDE_RXTID_TID p.val)]) ∧
    (4 ≤ (rxOf e p).length → ∃ e', exec (.vtRxWrite who p v) s = .next (done s who e') ∧ e'.flag F.HIDE_VTSTAT_RXOVF p.val = true ∧ e'.hide = e.hide)) ∧
  (∀ (t : Tid) (p : Pav) (s : State), mayRead s.block.eng (.thread t) .HIDE_RXD p.val = true → ∀ v u l, rxOf s.block.eng p = (v, u) :: l →
    ∃ e', exec (.vtRxRead (.thread t) p) s = .next (withEng s e') ∧
      (u = t.val → answered e' (.thread t) (2 ^ 19 + v) ∧ rxOf e' p = l) ∧ (u ≠ t.val → answered e' (.thread t) 0 ∧ rxOf e' p = (v, u) :: l)) ∧
  (∀ (t : Tid) (n : Fin 32) (v : Word) (s : State), legal s (.thread t) .HIDE_STIM n.val v →
    let e := s.block.eng
    let mode := e.fld F.HIDE_SPCFG_MODE n.val
    (mode = 0 → stimOpen e n t → e.traceOn = true → e.hide.packets = [] →
      ∃ e', exec (.stimValue (.thread t) n v) s = .next (done s (.thread t) e') ∧
        packetsAre e' [(0x40 + n.val, leBytes 3 v.toNat ++ [BitVec.ofNat 8 t.val])]) ∧
    (mode = 1 → stimOpen e n t →
      ∃ e', exec (.stimTally (.thread t) n v) s = .next (done s (.thread t) e') ∧ Tab.get 0 e'.hide.tally n.val = (Tab.get 0 e.hide.tally n.val + v.toNat) % 2 ^ 20 ∧
        ∀ m, m ≠ n.val → Tab.get 0 e'.hide.tally m = Tab.get 0 e.hide.tally m) ∧
    (mode = 2 → stimOpen e n t → e.traceOn = true → e.hide.packets = [] →
      ∃ e', exec (.stimMark (.thread t) n v) s = .next (done s (.thread t) e') ∧
        packetsAre e' [(0x20, []), (0x40 + n.val, leBytes 3 v.toNat ++ [BitVec.ofNat 8 (0x80 + t.val)])]) ∧
    (mode = 0 → ¬stimOpen e n t → exec (.stimValue (.thread t) n v) s = .next (done s (.thread t) e))) ∧
  (∀ (who : Acc) (v : Word) (s : State), legal s who .HIDE_SPCFG 0 v → v.getLsbD 0 = true →
    ∃ e', exec (.tallyClear who v) s = .next (done s who e') ∧ Tab.get 0 e'.hide.tally (s.block.eng.fld F.HIDE_SPSEL_PORT 0) = 0) ∧
  (∀ (e : Eng) (b0 : Nat) (rest : List Byte), packetsAre e [(b0, rest)] → 0x21 ≤ b0 → b0 < 256 → traceRoom e (3 + rest.length) →
    e.traceEnd.hide.buf = e.hide.buf ++ BitVec.ofNat 8 b0 :: (leBytes 2 (e.clk.cycle - e.hide.lastCyc) ++ rest) ∧ e.traceEnd.hide.packets = []) ∧
  (∀ (e : Eng) (b0 : Nat) (rest : List Byte), packetsAre e [(0x20, []), (b0, rest)] → 0x21 ≤ b0 → b0 < 256 → traceRoom e (14 + rest.length) →
    e.traceEnd.hide.buf = e.hide.buf ++ 0x20 :: leBytes 10 e.t80 ++ BitVec.ofNat 8 b0 :: ([0, 0] ++ rest) ∧ e.traceEnd.hide.packets = [])

/-! ### The whole machine -/

namespace Sys2Proof.Claims

open Sys2Proof.Machine Sys2Proof.Safety

/-- The parts of the state. -/
inductive Part where
  | regs | ctrs | recent | clk | tick | cwy | tmr | latch | rings | initq | matrix | thr | brl | locks | waiters | cnd | heldBanks | passed | closing | hide
  | reeds | links | sw
  | sch | swSince | keys | pwr | sys | cells | ecc | freeCtr | basin | data | code | ledger
  deriving DecidableEq, Repr

/-- The part is the same in both states. -/
def Part.same (s t : State) : Part → Prop
  | .regs => t.block.eng.regs = s.block.eng.regs
  | .ctrs => t.block.eng.ctrs = s.block.eng.ctrs
  | .recent => t.block.eng.recent = s.block.eng.recent
  | .clk => t.block.eng.clk = s.block.eng.clk
  | .tick => t.block.eng.tick = s.block.eng.tick
  | .cwy => t.block.eng.cwy = s.block.eng.cwy
  | .tmr => t.block.eng.tmr = s.block.eng.tmr
  | .latch => t.block.eng.latch = s.block.eng.latch
  | .rings => t.block.eng.rings = s.block.eng.rings
  | .initq => t.block.eng.initq = s.block.eng.initq
  | .matrix => t.block.eng.matrix = s.block.eng.matrix
  | .thr => t.block.eng.thr = s.block.eng.thr
  | .brl => t.block.eng.brl = s.block.eng.brl
  | .locks => t.block.eng.locks = s.block.eng.locks
  | .waiters => t.block.eng.waiters = s.block.eng.waiters
  | .cnd => t.block.eng.cnd = s.block.eng.cnd
  | .heldBanks => t.block.eng.heldBanks = s.block.eng.heldBanks
  | .passed => t.block.eng.passed = s.block.eng.passed
  | .closing => t.block.eng.closing = s.block.eng.closing
  | .hide => t.block.eng.hide = s.block.eng.hide
  | .reeds => t.block.eng.reeds = s.block.eng.reeds
  | .links => t.block.eng.links = s.block.eng.links
  | .sw => t.block.eng.sw = s.block.eng.sw
  | .sch => t.block.eng.sch = s.block.eng.sch
  | .swSince => t.block.eng.swSince = s.block.eng.swSince
  | .keys => t.block.eng.keys = s.block.eng.keys
  | .pwr => t.block.eng.pwr = s.block.eng.pwr
  | .sys => t.block.eng.sys = s.block.eng.sys
  | .cells => t.block.eng.cells = s.block.eng.cells
  | .ecc => t.block.eng.ecc = s.block.eng.ecc
  | .freeCtr => t.block.eng.freeCtr = s.block.eng.freeCtr
  | .basin => t.block.mem.basin = s.block.mem.basin
  | .data => t.block.mem.data = s.block.mem.data
  | .code => t.block.mem.code = s.block.mem.code
  | .ledger => t.block.mem.ledger = s.block.mem.ledger

/-- What an entry of EVQ or TRQ, a firing or an interrupt needs: registers, counters with the notes of R9, the Causeway, the rings, their transactions and the path to the port. -/
def notices : List Part := [.regs, .ctrs, .recent, .cwy, .rings, .initq, .matrix]

/-- What may change at a switch event: links, queues, cells, window state. -/
def switchParts : List Part := notices ++ [.links, .sw, .cells, .sch]

/-- What an instruction of a thread that uses no memory may change: its thread, the spare pointers, the record of a fault or a halt. -/
def threadParts : List Part := notices ++ [.thr, .brl, .hide, .waiters]

/-- What a change of the engine state may change besides: a pending command, a load, the ticks and what follows their end (R47, R490, R491). -/
def stateParts : List Part := [.keys, .tick, .links, .sw, .cells, .sch, .sys]

/-- What an answered ring or command event may change. -/
def ringParts : List Part := notices ++ [.sw, .links, .freeCtr]
def commandParts : List Part := notices ++ [.keys]

/-- The parts of the state that a command of these groups may change; `none` for the commands of other groups (loads and stores, register
accesses, resets, responses at the initiator port). With `true`, the deliveries due in the cycle come before the command (log entry 3). -/
def partsOf : Instr → Option (Bool × List Part)
  | .nop _ _ | .wtk _ _ | .ret _ _ | .reti _ _ | .ei _ _ | .di _ _ | .mov _ _ _ | .add _ _ _ | .adc _ _ _ | .sub _ _ _ | .sbc _ _ _
  | .and _ _ _ | .or _ _ _ | .xor _ _ _ | .cmp _ _ _ | .tst _ _ _ | .shl _ _ _ | .shr _ _ _ | .sar _ _ _ | .rol _ _ _ | .mul _ _ _
  | .mulh _ _ _ | .lea _ _ _ _ | .bcc _ _ _ _ | .bra _ _ _ | .bsr _ _ _ | .jmp _ _ _ | .jsr _ _ _ | .not _ _ _ | .neg _ _ _ | .clz _ _ _
  | .wev _ _ _ | .wevr _ _ _ | .bfx _ _ _ _ | .bfi _ _ _ _ | .qperm _ _ _ _ | .bperm _ _ _ _ | .sxt _ _ _ | .mfs _ _ _ _ | .mts _ _ _ _
  | .emulationTrap _ _ _ _ => some (true, threadParts)
  | .csnd _ _ _ _ | .csnc _ _ _ _ | .crcv _ _ _ _ | .cabt _ _ _ _ => some (true, .cnd :: threadParts)
  | .interruptEntry _ => some (true, [.thr, .brl, .hide, .regs, .recent])
  | .reedNop _ | .reedSin _ | .reedSout _ | .reedMov _ | .reedLdi _ | .reedLdh _ | .reedAnd _ | .reedOr _ | .reedXor _ | .reedAdd _ | .reedSub _
  | .reedShl _ | .reedShr _ | .reedNot _ | .reedShi _ | .reedJmp _ | .reedDjnz _ | .reedWaitp _ | .reedWaite _ | .reedSetpLevel _
  | .reedSetpMasked _ | .reedSetpEnable _ | .reedSetpEnables _ | .reedPushf _ | .reedPullm _ | .reedCrcInit _ | .reedCrcFeed _ | .reedDrst _
  | .reedTld _ | .reedTadd _ | .reedPostPin _ | .reedPostOstart _ | .reedPostFire _ | .reedMark _ | .reedFire _ | .reedStopInsn _
  | .pass _ | .nrziTx _ | .nrziRx _ | .manTx _ | .manRx _ | .b4b5Tx _ | .b4b5Rx _ | .t1lTx _ | .t1lRx _ | .b8b10Tx _ | .b8b10Rx _
  | .hdlcTx _ | .hdlcRx _ | .canTx _ | .canRx _ | .asyncTx _ | .asyncRx _ => some (true, .reeds :: notices)
  | .reedPushs _ => some (true, .reeds :: switchParts)
  | .reedPulls _ => some (true, notices ++ [.reeds, .links, .sw])
  | .reedWaitEnd _ _ _ => some (false, .reeds :: switchParts)
  | .reedActionExecute _ => some (false, notices ++ [.reeds, .links, .sw])
  | .wevWaitEnd _ => some (false, [.thr])
  | .atRelease _ => some (false, [.thr, .regs, .recent])
  | .lkwWaitEnd _ => some (false, [.thr, .locks])
  | .crcvWaitEnd _ | .sendOpenWaitEnd _ => some (false, [.thr, .cnd])
  | .hostWindowResponse _ _ _ => some (false, notices ++ [.thr, .hide, .waiters])
  | .threadHeld _ => some (false, [.thr, .waiters])
  | .threadHalted _ => some (false, [.thr, .hide, .regs])
  | .stillWaterWake => some (false, [.regs, .recent, .thr, .waiters])
  | .slotChecksEnd _ => some (false, [.regs, .recent, .brl])
  | .slotTableTakeEffect _ => some (false, [.regs, .brl])
  | .barrelGate _ | .barrelUngate _ => some (false, [.brl])
  | .channelDelivery _ => some (false, [.cwy, .links, .pwr, .recent, .reeds, .regs, .sys, .thr, .tmr])
  | .floodCountReset => some (false, [.cwy, .tick])
  | .timerIncrement _ => some (false, [.tmr])
  | .doorbellPoll => some (false, [.sys, .tick])
  | .knock _ => some (false, [.pwr, .sys])
  | .doorbellPass => some (false, [.initq, .matrix, .regs, .sys])
  | .ledgerReadDone _ | .blockResetRelease | .watchdogExpiry => some (false, [.sys])
  | .hours => some (false, [.keys, .sys])
  | .powerStateEntry => some (false, [.pwr])
  | .powerEntryEnd => some (false, [.pwr, .regs])
  | .powerExitStart => some (false, [.pwr, .regs, .recent])
  | .powerExitEnd => some (false, [.pwr, .regs, .thr])
  | .linkWake _ _ => some (false, [.pwr, .regs, .recent, .links, .reeds])
  | .pllLock => some (false, [.clk, .keys, .regs, .sys])
  | .memoryInitEnd => some (false, commandParts ++ [.hide, .sys, .thr])
  | .scrubVisit _ _ => some (false, [.closing])
  | .coolExpiry => some (false, [.regs])
  | .feedDone => some (false, [.hide, .regs])
  | .tapCapture => some (false, [.hide, .freeCtr])
  | .tapUpdate _ | .tapReset => some (false, [.hide])
  | .beatWrite _ => some (false, [.basin, .links, .sw, .ecc, .freeCtr])
  | .tokenRefill | .txCellRetry _ => some (false, [.sw])
  | .allocDone _ | .fwdOpResult => some (false, [.regs, .sw])
  | .auditTimeout => some (false, [.regs, .recent, .sw])
  | .rowSetChecksEnd _ => some (false, [.regs, .recent, .sch])
  | .rowSetTakeEffect _ | .referenceReceive _ | .listenTimerExpiry _ | .refWindowMiss _ => some (false, [.sch])
  | .gridFrameBoundary _ => some (false, .sch :: notices)
  | .linkLossClock _ | .flapHoldExpiry _ => some (false, [.links])
  | .inputTick _ _ _ | .outputTick _ _ | .trackerCorrection _ _ _ => some (false, [.links, .reeds])
  | .tickRunningClear => some (false, notices ++ [.tick, .links, .sch])
  | .tickLaunch => some (false, notices ++ [.brl, .hide, .links, .pwr, .sch, .sw, .sys, .thr, .tick])
  | .frameStart _ _ _ | .discardRun _ _ | .lookup _ _ | .frameEnd _ _ => some (false, switchParts)
  | .trainingTimeout _ => some (false, notices ++ [.links, .sch])
  | .frameTxStart _ => some (false, [.ctrs, .links, .recent, .reeds, .regs, .sch, .sw])
  | .frameTxEnd _ | .badTail _ => some (false, [.ctrs, .links, .recent, .rings, .sw])
  | .flushRelease _ | .launchDeadline _ => some (false, [.ctrs, .initq, .links, .matrix, .recent, .regs, .rings, .sw])
  | .verdictCommit _ => some (false, [.cells, .ctrs, .links, .recent, .regs, .rings, .sw])
  | .beatRead _ => some (false, notices ++ [.links, .sw])
  | .cellChainRelease _ => some (false, [.cells, .recent, .regs, .sw])
  | .auditPassEnd => some (false, .sw :: notices)
  | .windowCheck _ => some (false, [.ctrs, .links, .recent, .sch, .sw])
  | .txDescriptor _ | .txWriteback _ | .rxFrameWrite _ => some (false, ringParts)
  | .rxBufferPost _ => some (false, [.regs, .recent, .rings])
  | .cmdNop | .getState | .abort | .setLatency | .provision | .resetEngine | .resetEngineNoboot | .ledgerWrite | .counterSeal
  | .maintenanceLeave | .firmwareCommand | .firmwareCommandCritical => some (false, commandParts)
  | .commandHandover => some (false, .hide :: commandParts)
  | .selftest => some (false, .sys :: commandParts)
  | .loadImage | .bootDecision | .maintenanceEnter => some (false, notices ++ stateParts)
  | .keyChange | .debugUnlock => some (false, .hide :: .thr :: commandParts)
  | .linkEnable => some (false, .keys :: switchParts)
  | .scheduleChange => some (false, .sch :: commandParts)
  | .sundialSetStep | .sundialSetLoad => some (false, .clk :: commandParts)
  | .ledgerWordWriteDone => some (false, .ledger :: .freeCtr :: .thr :: (notices ++ stateParts))
  | _ => none

/-- The parts of the state that a write of a register of a block may change besides the record of the answer; the write may make
entries of EVQ and firings. -/
def writeParts : Blk → List Part
  | .brl => [.regs, .brl]
  | .cod => [.regs, .reeds]
  | .thr => [.regs, .recent, .thr, .waiters, .cnd, .heldBanks, .passed, .latch, .hide, .locks, .cells, .sw, .initq]
  | .lck => [.regs, .closing]
  | .cnd => [.regs, .closing]
  | .cwy => notices
  | .tmr => [.regs, .recent, .tmr, .sys]
  | .tik => .tick :: .sch :: notices
  | .sun => .clk :: notices
  | .hrg => [.regs, .recent, .keys, .rings, .initq, .matrix, .sys]
  | .key => [.sys, .keys, .regs, .ctrs, .recent, .rings, .initq, .matrix]
  | .pwr => [.regs, .pwr]
  | .rst => [.regs, .sys, .keys]
  | .jx => .keys :: notices
  | .fwd => [.regs, .ctrs, .recent, .sw]
  | .reed => .reeds :: notices
  | .lnk => switchParts
  | .bsn => [.regs, .ctrs, .recent, .rings, .sw, .cells]
  | .sch => .sch :: .sw :: .cells :: notices
  | .hide => [.regs, .recent, .hide, .thr, .waiters, .freeCtr]

/-- A write of JX_ID (R12). -/
def writeId (who : Acc) (v : Word) : Instr := .registerWrite (.reg who (word (Reg.addr .JX_ID 0)) v)

/-- The registers of a full reset whose reset value is not 0: name, number of copies, the value of each copy, from the Reset columns of the
register tables. -/
def resetWords : List (Reg × Nat × Nat) :=
  [(.TIK_PERIOD_LO, 1, 0x80), (.TIK_FRAME, 1, 1), (.LNK_MAXLEN, 24, 0x5F2), (.LNK_MINLEN, 24, 0x40), (.LNK_HOLD, 24, 2), (.REED_DIVI, 24, 4),
   (.COD_POLY0, 12, 0x11DB7), (.COD_POLY1, 12, 0x4C), (.COD_SEED0, 12, 0xFFFFF), (.COD_SEED1, 12, 0xFFF), (.COD_CHECK0, 12, 0xB20E3),
   (.COD_CHECK1, 12, 0xDEB), (.BSN_FREE, 1, 0x4000), (.SLU_ENTFREE, 1, 0x8000), (.WRD_CTL, 1, 1), (.FWD_TPID, 1, 0x88A8),
   (.THR_SWCTL, 1, 5), (.CWY_FLOOD, 1, 0x400), (.TMR_TOP, 24, 0xFFFFF), (.PWR_CTL, 1, 4), (.PWR_TOL0, 1, 20), (.RST_CAUSE, 1, 0x41),
   (.RST_WDCTL, 1, 0x1000), (.RST_STAT, 1, 2), (.RST_SCRUB, 1, 1)]

end Sys2Proof.Claims

/-- A step takes the command at the front of the queue and is its effect on the state with the rest of the queue; on an empty queue one cycle
passes (the model's choice, log entry 1). -/
def Obligations.StepRunsFrontCommand : Prop :=
  (∀ (c : Instr) (rest : List Instr) (s : State), s.pending = c :: rest → step s = exec c { s with pending := rest }) ∧
  (∀ s : State, s.pending = [] → step s = .next { s with block := s.block.cycle })

/-- R1: every command that names threads that exist goes on, whatever the state, and leaves the queue alone; a command of an instruction of thread 0
stops. -/
def Obligations.EveryWellFormedCommandCompletes : Prop :=
  (∀ (c : Instr) (s : State), c.ok = true → ∃ t, exec c s = .next t ∧ t.pending = s.pending) ∧
  (∀ (ps : List Prefix) (s : State), exec (.nop 0 ps) s = .fault .noThread)

/-- Every step keeps every addressed memory in its canonical form. -/
def Obligations.MemoryFormIsKept : Prop :=
  ∀ s t : State, Inv s = true → step s = .next t → Inv t = true

/-- R450, R482: only the end of a Ledger word write and a full reset that cuts one short change the Ledger. -/
def Obligations.OnlyLedgerWritesAndFullResetsChangeLedger : Prop :=
  ∀ (c : Instr) (s t : State), c ≠ .ledgerWordWriteDone → c ≠ .blockResetAssert → (∀ l, c ≠ .powerOnReset l) →
    exec c s = .next t → t.block.mem.ledger = s.block.mem.ledger

/-- Commands of these groups change nothing of the parts that their group does not name; a fault of thread 1 may take the engine to FAULTED (R257), which reaches the parts of a change
of the engine state too. -/
def Obligations.EventsAndInstructionsLeaveOtherUnits : Prop :=
  ∀ (c : Instr) (first : Bool) (l : List Part) (s t : State), partsOf c = some (first, l) → exec c s = .next t →
    let b := if first then withEng s s.block.eng.deliverDue else s
    (t.block.eng.engState = b.block.eng.engState → ∀ p, p ∉ l → p.same b t) ∧ ∀ p, p ∉ l → p ∉ stateParts → p.same b t

/-- R6: a register action that is legal and succeeds changes nothing of the parts that its block does not name, but the record of the answer. -/
def Obligations.RegisterActionsLeaveOtherUnits : Prop :=
  ∀ (c : Instr) (who : Acc) (r : Reg) (i : Nat) (v : Word) (s : State), actionOf c = some (who, r, i, v, true) →
    legal s who r i v → (s.block.writeWord who r i v.toNat).1 = 0 →
    ∃ e, exec c s = .next (done s who e) ∧ ∀ p, p ∉ writeParts r.blk → p.same s (withEng s e)

/-- R245, R473, R482, R486, R487: right after a full reset is released every addressed memory is 0 and in canonical form, thread 1 is RUN at 0xF_C000 and every other
HELD, the slot table of PAV0 names thread 1 in lane 0, slots 0, 8, 16 and 24 and no other entry names one, the engine is in RESET with the PLL not locked, Sundial is 0,
no command waits, every ring is OFF, every register of the list holds its reset value and TMR_OFS of unit u is (u mod 8) × 0x2_0000. -/
def Obligations.ResetValuesAreInPlace : Prop :=
  let e := State.reset.block.eng
  Inv State.reset = true ∧ State.reset.block.mem = {} ∧ State.reset.pending = [] ∧
  e.getThr 1 = { st := .run, pc := 0xFC000 } ∧ (∀ t, t ≠ 1 → e.getThr t = {}) ∧
  (∀ p a, Tab.get 0 (e.getBrl p).force a = if p = 0 ∧ (a = 0 ∨ a = 8 ∨ a = 16 ∨ a = 24) then 1 else 0) ∧
  (e.getBrl 0).spare = 1 ∧ (e.getBrl 1).spare = 22 ∧ (e.getBrl 2).spare = 43 ∧
  e.engState = 0 ∧ e.flag F.RST_STAT_PLLLOCK 0 = false ∧ e.clk.sun = 0 ∧ e.clk.rate = 0 ∧
  (∀ q, q < 20 → e.flag F.HRG_RCTL_EN q = false) ∧ (∀ n, n < 24 → e.fld F.LNK_STAT_STATE n = 0) ∧ e.fld F.HRG_EPOCH_EPOCH 0 = 0 ∧
  (∀ x, x ∈ resetWords → ∀ i, i < x.2.1 → e.val x.1 i = x.2.2) ∧ (∀ u, u < 24 → e.val .TMR_OFS u = u % 8 * 0x20000)

/-- R13: a write of JX_ID is illegal: the host's is answered FAULT and recorded in JX_SETUP_ERR with READ_ONLY (in RESET R487 answers every write of the host with FAULT
and STATE before it), a running thread's takes a bus fault, and JX_ID keeps its value. -/
def Obligations.WritesOfIdentityAreIllegal : Prop :=
  ∀ (v : Word) (s : State),
    (s.block.eng.engState ≠ 0 →
      ∃ e : Eng, exec (writeId .host v) s = .next (withEng s (e.answer .host 1 0)) ∧ e.flag F.JX_SETUP_ERR_VALID 0 = true ∧ e.fld F.JX_SETUP_ERR_CODE 0 = 1 ∧
        e.val .JX_SETUP_EADDR 0 = Reg.addr .JX_ID 0 ∧ e.reg .JX_ID 0 = s.block.eng.reg .JX_ID 0) ∧
    (∀ t : Tid, t ≠ 0 → (s.block.eng.getThr t.val).st = .run →
      ∃ e pc, exec (writeId (.thread t) v) s = .next (withEng s e) ∧ faultRecorded e t.val 2 pc (Reg.addr .JX_ID 0) ∧
        e.reg .JX_ID 0 = s.block.eng.reg .JX_ID 0)

/-- R62: an apply of RATE with a staged value outside the range has no effect and sets no flag in SUN_STAT: a running thread's takes a bus fault, the host's, in
SETUP, is answered FAULT with code RANGE in JX_SETUP_ERR. -/
def Obligations.IllegalRateHasNoEffect : Prop :=
  ∀ (s : State), s.block.eng.stagedRate.toInt < -1099511627 ∨ 1099511627 < s.block.eng.stagedRate.toInt →
    (∀ t : Tid, t ≠ 0 → (s.block.eng.getThr t.val).st = .run →
      ∃ e pc, exec (.sundialRate (.thread t) 3) s = .next (withEng s e) ∧ faultRecorded e t.val 2 pc (Reg.addr .SUN_CTL 0) ∧
        e.clk = s.block.eng.clk ∧ e.reg .SUN_STAT 0 = s.block.eng.reg .SUN_STAT 0) ∧
    (s.block.eng.engState = 1 →
      ∃ e : Eng, exec (.sundialRate .host 3) s = .next (withEng s (e.answer .host 1 0)) ∧ e.flag F.JX_SETUP_ERR_VALID 0 = true ∧
        e.fld F.JX_SETUP_ERR_CODE 0 = 2 ∧ e.clk = s.block.eng.clk ∧ e.reg .SUN_STAT 0 = s.block.eng.reg .SUN_STAT 0)

/-- R64: an applied STEP or LOAD sets STEPPED and fires the producer SUN_STEP in the apply cycle: where its map entry is enabled and its channel passes the firing (not muted,
below the flood limit, not yet fired this cycle), the firing goes on its way with the cycle's own time. An applied legal RATE sets RATE_SET and fires no producer. -/
def Obligations.StepAndLoadFireSunStep : Prop :=
  ∀ (who : Acc) (v : Word) (s : State), legal s who .SUN_CTL 0 v → s.block.eng.clk.applied = 0 →
    let e := s.block.eng
    let ch := e.fld F.CWY_PMAP_CH 5
    ((v = 1 ∨ v = 2) → ∃ e', exec (if v = 1 then .sundialStep who v else .sundialLoad who v) s = .next (done s who e') ∧
      e'.flag F.SUN_STAT_STEPPED 0 = true ∧ e'.cwy = (e.produce 5 domEngine).cwy ∧
      (e.flag F.CWY_PMAP_EN 5 = true → e.muted ch = false → Tab.get 0 e.cwy.last (4 * ch + domEngine) ≠ e.clk.cycle + 1 →
        Tab.get 0 e.cwy.unmuted ch ≠ e.clk.cycle + 1 → Tab.get 0 e.cwy.count ch + 1 ≤ e.fld F.CWY_FLOOD_LIMIT 0 →
        e'.cwy.inflight = e.cwy.inflight ++ [⟨ch, domEngine, e.clk.cycle, BitVec.ofNat 80 e.t80, false⟩])) ∧
    (v = 3 → ∃ e', exec (.sundialRate who v) s = .next (done s who e') ∧ e'.flag F.SUN_STAT_RATE_SET 0 = true ∧ e'.cwy = e.cwy)
end

