-- ==== Sys2Proof/Laws/State.lean ====
section
/-! SUPPORT. What each update of the state leaves unchanged, one lemma per field, and what is read back after it. -/

namespace Sys2Proof.Machine

variable (e : Eng) (b : Block) (s : State)

@[simp] theorem Eng.setReg_ctrs (r : Reg) (i : Nat) (v : Word) : (e.setReg r i v).ctrs = e.ctrs := rfl
@[simp] theorem Eng.setReg_recent (r : Reg) (i : Nat) (v : Word) : (e.setReg r i v).recent = e.recent := rfl
@[simp] theorem Eng.setReg_clk (r : Reg) (i : Nat) (v : Word) : (e.setReg r i v).clk = e.clk := rfl
@[simp] theorem Eng.setReg_tick (r : Reg) (i : Nat) (v : Word) : (e.setReg r i v).tick = e.tick := rfl
@[simp] theorem Eng.setReg_cwy (r : Reg) (i : Nat) (v : Word) : (e.setReg r i v).cwy = e.cwy := rfl
@[simp] theorem Eng.setReg_tmr (r : Reg) (i : Nat) (v : Word) : (e.setReg r i v).tmr = e.tmr := rfl
@[simp] theorem Eng.setReg_latch (r : Reg) (i : Nat) (v : Word) : (e.setReg r i v).latch = e.latch := rfl
@[simp] theorem Eng.setReg_rings (r : Reg) (i : Nat) (v : Word) : (e.setReg r i v).rings = e.rings := rfl
@[simp] theorem Eng.setReg_initq (r : Reg) (i : Nat) (v : Word) : (e.setReg r i v).initq = e.initq := rfl
@[simp] theorem Eng.setReg_matrix (r : Reg) (i : Nat) (v : Word) : (e.setReg r i v).matrix = e.matrix := rfl
@[simp] theorem Eng.setReg_thr (r : Reg) (i : Nat) (v : Word) : (e.setReg r i v).thr = e.thr := rfl
@[simp] theorem Eng.setReg_brl (r : Reg) (i : Nat) (v : Word) : (e.setReg r i v).brl = e.brl := rfl
@[simp] theorem Eng.setReg_locks (r : Reg) (i : Nat) (v : Word) : (e.setReg r i v).locks = e.locks := rfl
@[simp] theorem Eng.setReg_waiters (r : Reg) (i : Nat) (v : Word) : (e.setReg r i v).waiters = e.waiters := rfl
@[simp] theorem Eng.setReg_cnd (r : Reg) (i : Nat) (v : Word) : (e.setReg r i v).cnd = e.cnd := rfl
@[simp] theorem Eng.setReg_heldBanks (r : Reg) (i : Nat) (v : Word) : (e.setReg r i v).heldBanks = e.heldBanks := rfl
@[simp] theorem Eng.setReg_passed (r : Reg) (i : Nat) (v : Word) : (e.setReg r i v).passed = e.passed := rfl
@[simp] theorem Eng.setReg_closing (r : Reg) (i : Nat) (v : Word) : (e.setReg r i v).closing = e.closing := rfl
@[simp] theorem Eng.setReg_hide (r : Reg) (i : Nat) (v : Word) : (e.setReg r i v).hide = e.hide := rfl
@[simp] theorem Eng.setReg_reeds (r : Reg) (i : Nat) (v : Word) : (e.setReg r i v).reeds = e.reeds := rfl
@[simp] theorem Eng.setReg_links (r : Reg) (i : Nat) (v : Word) : (e.setReg r i v).links = e.links := rfl
@[simp] theorem Eng.setReg_sw (r : Reg) (i : Nat) (v : Word) : (e.setReg r i v).sw = e.sw := rfl
@[simp] theorem Eng.setReg_sch (r : Reg) (i : Nat) (v : Word) : (e.setReg r i v).sch = e.sch := rfl
@[simp] theorem Eng.setReg_swSince (r : Reg) (i : Nat) (v : Word) : (e.setReg r i v).swSince = e.swSince := rfl
@[simp] theorem Eng.setReg_keys (r : Reg) (i : Nat) (v : Word) : (e.setReg r i v).keys = e.keys := rfl
@[simp] theorem Eng.setReg_pwr (r : Reg) (i : Nat) (v : Word) : (e.setReg r i v).pwr = e.pwr := rfl
@[simp] theorem Eng.setReg_sys (r : Reg) (i : Nat) (v : Word) : (e.setReg r i v).sys = e.sys := rfl
@[simp] theorem Eng.setReg_cells (r : Reg) (i : Nat) (v : Word) : (e.setReg r i v).cells = e.cells := rfl
@[simp] theorem Eng.setReg_ecc (r : Reg) (i : Nat) (v : Word) : (e.setReg r i v).ecc = e.ecc := rfl
@[simp] theorem Eng.setReg_freeCtr (r : Reg) (i : Nat) (v : Word) : (e.setReg r i v).freeCtr = e.freeCtr := rfl

@[simp] theorem Eng.setFld_ctrs (f : Fld) (i n : Nat) : (e.setFld f i n).ctrs = e.ctrs := rfl
@[simp] theorem Eng.setFld_recent (f : Fld) (i n : Nat) : (e.setFld f i n).recent = e.recent := rfl
@[simp] theorem Eng.setFld_clk (f : Fld) (i n : Nat) : (e.setFld f i n).clk = e.clk := rfl
@[simp] theorem Eng.setFld_tick (f : Fld) (i n : Nat) : (e.setFld f i n).tick = e.tick := rfl
@[simp] theorem Eng.setFld_cwy (f : Fld) (i n : Nat) : (e.setFld f i n).cwy = e.cwy := rfl
@[simp] theorem Eng.setFld_tmr (f : Fld) (i n : Nat) : (e.setFld f i n).tmr = e.tmr := rfl
@[simp] theorem Eng.setFld_latch (f : Fld) (i n : Nat) : (e.setFld f i n).latch = e.latch := rfl
@[simp] theorem Eng.setFld_rings (f : Fld) (i n : Nat) : (e.setFld f i n).rings = e.rings := rfl
@[simp] theorem Eng.setFld_initq (f : Fld) (i n : Nat) : (e.setFld f i n).initq = e.initq := rfl
@[simp] theorem Eng.setFld_matrix (f : Fld) (i n : Nat) : (e.setFld f i n).matrix = e.matrix := rfl
@[simp] theorem Eng.setFld_thr (f : Fld) (i n : Nat) : (e.setFld f i n).thr = e.thr := rfl
@[simp] theorem Eng.setFld_brl (f : Fld) (i n : Nat) : (e.setFld f i n).brl = e.brl := rfl
@[simp] theorem Eng.setFld_locks (f : Fld) (i n : Nat) : (e.setFld f i n).locks = e.locks := rfl
@[simp] theorem Eng.setFld_waiters (f : Fld) (i n : Nat) : (e.setFld f i n).waiters = e.waiters := rfl
@[simp] theorem Eng.setFld_cnd (f : Fld) (i n : Nat) : (e.setFld f i n).cnd = e.cnd := rfl
@[simp] theorem Eng.setFld_heldBanks (f : Fld) (i n : Nat) : (e.setFld f i n).heldBanks = e.heldBanks := rfl
@[simp] theorem Eng.setFld_passed (f : Fld) (i n : Nat) : (e.setFld f i n).passed = e.passed := rfl
@[simp] theorem Eng.setFld_closing (f : Fld) (i n : Nat) : (e.setFld f i n).closing = e.closing := rfl
@[simp] theorem Eng.setFld_hide (f : Fld) (i n : Nat) : (e.setFld f i n).hide = e.hide := rfl
@[simp] theorem Eng.setFld_reeds (f : Fld) (i n : Nat) : (e.setFld f i n).reeds = e.reeds := rfl
@[simp] theorem Eng.setFld_links (f : Fld) (i n : Nat) : (e.setFld f i n).links = e.links := rfl
@[simp] theorem Eng.setFld_sw (f : Fld) (i n : Nat) : (e.setFld f i n).sw = e.sw := rfl
@[simp] theorem Eng.setFld_sch (f : Fld) (i n : Nat) : (e.setFld f i n).sch = e.sch := rfl
@[simp] theorem Eng.setFld_swSince (f : Fld) (i n : Nat) : (e.setFld f i n).swSince = e.swSince := rfl
@[simp] theorem Eng.setFld_keys (f : Fld) (i n : Nat) : (e.setFld f i n).keys = e.keys := rfl
@[simp] theorem Eng.setFld_pwr (f : Fld) (i n : Nat) : (e.setFld f i n).pwr = e.pwr := rfl
@[simp] theorem Eng.setFld_sys (f : Fld) (i n : Nat) : (e.setFld f i n).sys = e.sys := rfl
@[simp] theorem Eng.setFld_cells (f : Fld) (i n : Nat) : (e.setFld f i n).cells = e.cells := rfl
@[simp] theorem Eng.setFld_ecc (f : Fld) (i n : Nat) : (e.setFld f i n).ecc = e.ecc := rfl
@[simp] theorem Eng.setFld_freeCtr (f : Fld) (i n : Nat) : (e.setFld f i n).freeCtr = e.freeCtr := rfl

@[simp] theorem Eng.bump_ctrs (f : Fld) (i n : Nat) : (e.bump f i n).ctrs = e.ctrs := rfl
@[simp] theorem Eng.bump_clk (f : Fld) (i n : Nat) : (e.bump f i n).clk = e.clk := rfl
@[simp] theorem Eng.bump_tick (f : Fld) (i n : Nat) : (e.bump f i n).tick = e.tick := rfl
@[simp] theorem Eng.bump_cwy (f : Fld) (i n : Nat) : (e.bump f i n).cwy = e.cwy := rfl
@[simp] theorem Eng.bump_tmr (f : Fld) (i n : Nat) : (e.bump f i n).tmr = e.tmr := rfl
@[simp] theorem Eng.bump_latch (f : Fld) (i n : Nat) : (e.bump f i n).latch = e.latch := rfl
@[simp] theorem Eng.bump_rings (f : Fld) (i n : Nat) : (e.bump f i n).rings = e.rings := rfl
@[simp] theorem Eng.bump_initq (f : Fld) (i n : Nat) : (e.bump f i n).initq = e.initq := rfl
@[simp] theorem Eng.bump_matrix (f : Fld) (i n : Nat) : (e.bump f i n).matrix = e.matrix := rfl
@[simp] theorem Eng.bump_thr (f : Fld) (i n : Nat) : (e.bump f i n).thr = e.thr := rfl
@[simp] theorem Eng.bump_brl (f : Fld) (i n : Nat) : (e.bump f i n).brl = e.brl := rfl
@[simp] theorem Eng.bump_locks (f : Fld) (i n : Nat) : (e.bump f i n).locks = e.locks := rfl
@[simp] theorem Eng.bump_waiters (f : Fld) (i n : Nat) : (e.bump f i n).waiters = e.waiters := rfl
@[simp] theorem Eng.bump_cnd (f : Fld) (i n : Nat) : (e.bump f i n).cnd = e.cnd := rfl
@[simp] theorem Eng.bump_heldBanks (f : Fld) (i n : Nat) : (e.bump f i n).heldBanks = e.heldBanks := rfl
@[simp] theorem Eng.bump_passed (f : Fld) (i n : Nat) : (e.bump f i n).passed = e.passed := rfl
@[simp] theorem Eng.bump_closing (f : Fld) (i n : Nat) : (e.bump f i n).closing = e.closing := rfl
@[simp] theorem Eng.bump_hide (f : Fld) (i n : Nat) : (e.bump f i n).hide = e.hide := rfl
@[simp] theorem Eng.bump_reeds (f : Fld) (i n : Nat) : (e.bump f i n).reeds = e.reeds := rfl
@[simp] theorem Eng.bump_links (f : Fld) (i n : Nat) : (e.bump f i n).links = e.links := rfl
@[simp] theorem Eng.bump_sw (f : Fld) (i n : Nat) : (e.bump f i n).sw = e.sw := rfl
@[simp] theorem Eng.bump_sch (f : Fld) (i n : Nat) : (e.bump f i n).sch = e.sch := rfl
@[simp] theorem Eng.bump_swSince (f : Fld) (i n : Nat) : (e.bump f i n).swSince = e.swSince := rfl
@[simp] theorem Eng.bump_keys (f : Fld) (i n : Nat) : (e.bump f i n).keys = e.keys := rfl
@[simp] theorem Eng.bump_pwr (f : Fld) (i n : Nat) : (e.bump f i n).pwr = e.pwr := rfl
@[simp] theorem Eng.bump_sys (f : Fld) (i n : Nat) : (e.bump f i n).sys = e.sys := rfl
@[simp] theorem Eng.bump_cells (f : Fld) (i n : Nat) : (e.bump f i n).cells = e.cells := rfl
@[simp] theorem Eng.bump_ecc (f : Fld) (i n : Nat) : (e.bump f i n).ecc = e.ecc := rfl
@[simp] theorem Eng.bump_freeCtr (f : Fld) (i n : Nat) : (e.bump f i n).freeCtr = e.freeCtr := rfl

@[simp] theorem Eng.bumpReg_ctrs (r : Reg) (i n : Nat) : (e.bumpReg r i n).ctrs = e.ctrs := rfl
@[simp] theorem Eng.bumpReg_clk (r : Reg) (i n : Nat) : (e.bumpReg r i n).clk = e.clk := rfl
@[simp] theorem Eng.bumpReg_tick (r : Reg) (i n : Nat) : (e.bumpReg r i n).tick = e.tick := rfl
@[simp] theorem Eng.bumpReg_cwy (r : Reg) (i n : Nat) : (e.bumpReg r i n).cwy = e.cwy := rfl
@[simp] theorem Eng.bumpReg_tmr (r : Reg) (i n : Nat) : (e.bumpReg r i n).tmr = e.tmr := rfl
@[simp] theorem Eng.bumpReg_latch (r : Reg) (i n : Nat) : (e.bumpReg r i n).latch = e.latch := rfl
@[simp] theorem Eng.bumpReg_rings (r : Reg) (i n : Nat) : (e.bumpReg r i n).rings = e.rings := rfl
@[simp] theorem Eng.bumpReg_initq (r : Reg) (i n : Nat) : (e.bumpReg r i n).initq = e.initq := rfl
@[simp] theorem Eng.bumpReg_matrix (r : Reg) (i n : Nat) : (e.bumpReg r i n).matrix = e.matrix := rfl
@[simp] theorem Eng.bumpReg_thr (r : Reg) (i n : Nat) : (e.bumpReg r i n).thr = e.thr := rfl
@[simp] theorem Eng.bumpReg_brl (r : Reg) (i n : Nat) : (e.bumpReg r i n).brl = e.brl := rfl
@[simp] theorem Eng.bumpReg_locks (r : Reg) (i n : Nat) : (e.bumpReg r i n).locks = e.locks := rfl
@[simp] theorem Eng.bumpReg_waiters (r : Reg) (i n : Nat) : (e.bumpReg r i n).waiters = e.waiters := rfl
@[simp] theorem Eng.bumpReg_cnd (r : Reg) (i n : Nat) : (e.bumpReg r i n).cnd = e.cnd := rfl
@[simp] theorem Eng.bumpReg_heldBanks (r : Reg) (i n : Nat) : (e.bumpReg r i n).heldBanks = e.heldBanks := rfl
@[simp] theorem Eng.bumpReg_passed (r : Reg) (i n : Nat) : (e.bumpReg r i n).passed = e.passed := rfl
@[simp] theorem Eng.bumpReg_closing (r : Reg) (i n : Nat) : (e.bumpReg r i n).closing = e.closing := rfl
@[simp] theorem Eng.bumpReg_hide (r : Reg) (i n : Nat) : (e.bumpReg r i n).hide = e.hide := rfl
@[simp] theorem Eng.bumpReg_reeds (r : Reg) (i n : Nat) : (e.bumpReg r i n).reeds = e.reeds := rfl
@[simp] theorem Eng.bumpReg_links (r : Reg) (i n : Nat) : (e.bumpReg r i n).links = e.links := rfl
@[simp] theorem Eng.bumpReg_sw (r : Reg) (i n : Nat) : (e.bumpReg r i n).sw = e.sw := rfl
@[simp] theorem Eng.bumpReg_sch (r : Reg) (i n : Nat) : (e.bumpReg r i n).sch = e.sch := rfl
@[simp] theorem Eng.bumpReg_swSince (r : Reg) (i n : Nat) : (e.bumpReg r i n).swSince = e.swSince := rfl
@[simp] theorem Eng.bumpReg_keys (r : Reg) (i n : Nat) : (e.bumpReg r i n).keys = e.keys := rfl
@[simp] theorem Eng.bumpReg_pwr (r : Reg) (i n : Nat) : (e.bumpReg r i n).pwr = e.pwr := rfl
@[simp] theorem Eng.bumpReg_sys (r : Reg) (i n : Nat) : (e.bumpReg r i n).sys = e.sys := rfl
@[simp] theorem Eng.bumpReg_cells (r : Reg) (i n : Nat) : (e.bumpReg r i n).cells = e.cells := rfl
@[simp] theorem Eng.bumpReg_ecc (r : Reg) (i n : Nat) : (e.bumpReg r i n).ecc = e.ecc := rfl
@[simp] theorem Eng.bumpReg_freeCtr (r : Reg) (i n : Nat) : (e.bumpReg r i n).freeCtr = e.freeCtr := rfl

@[simp] theorem Eng.postBits_ctrs (r : Reg) (i m : Nat) : (e.postBits r i m).ctrs = e.ctrs := rfl
@[simp] theorem Eng.postBits_clk (r : Reg) (i m : Nat) : (e.postBits r i m).clk = e.clk := rfl
@[simp] theorem Eng.postBits_tick (r : Reg) (i m : Nat) : (e.postBits r i m).tick = e.tick := rfl
@[simp] theorem Eng.postBits_cwy (r : Reg) (i m : Nat) : (e.postBits r i m).cwy = e.cwy := rfl
@[simp] theorem Eng.postBits_tmr (r : Reg) (i m : Nat) : (e.postBits r i m).tmr = e.tmr := rfl
@[simp] theorem Eng.postBits_latch (r : Reg) (i m : Nat) : (e.postBits r i m).latch = e.latch := rfl
@[simp] theorem Eng.postBits_rings (r : Reg) (i m : Nat) : (e.postBits r i m).rings = e.rings := rfl
@[simp] theorem Eng.postBits_initq (r : Reg) (i m : Nat) : (e.postBits r i m).initq = e.initq := rfl
@[simp] theorem Eng.postBits_matrix (r : Reg) (i m : Nat) : (e.postBits r i m).matrix = e.matrix := rfl
@[simp] theorem Eng.postBits_thr (r : Reg) (i m : Nat) : (e.postBits r i m).thr = e.thr := rfl
@[simp] theorem Eng.postBits_brl (r : Reg) (i m : Nat) : (e.postBits r i m).brl = e.brl := rfl
@[simp] theorem Eng.postBits_locks (r : Reg) (i m : Nat) : (e.postBits r i m).locks = e.locks := rfl
@[simp] theorem Eng.postBits_waiters (r : Reg) (i m : Nat) : (e.postBits r i m).waiters = e.waiters := rfl
@[simp] theorem Eng.postBits_cnd (r : Reg) (i m : Nat) : (e.postBits r i m).cnd = e.cnd := rfl
@[simp] theorem Eng.postBits_heldBanks (r : Reg) (i m : Nat) : (e.postBits r i m).heldBanks = e.heldBanks := rfl
@[simp] theorem Eng.postBits_passed (r : Reg) (i m : Nat) : (e.postBits r i m).passed = e.passed := rfl
@[simp] theorem Eng.postBits_closing (r : Reg) (i m : Nat) : (e.postBits r i m).closing = e.closing := rfl
@[simp] theorem Eng.postBits_hide (r : Reg) (i m : Nat) : (e.postBits r i m).hide = e.hide := rfl
@[simp] theorem Eng.postBits_reeds (r : Reg) (i m : Nat) : (e.postBits r i m).reeds = e.reeds := rfl
@[simp] theorem Eng.postBits_links (r : Reg) (i m : Nat) : (e.postBits r i m).links = e.links := rfl
@[simp] theorem Eng.postBits_sw (r : Reg) (i m : Nat) : (e.postBits r i m).sw = e.sw := rfl
@[simp] theorem Eng.postBits_sch (r : Reg) (i m : Nat) : (e.postBits r i m).sch = e.sch := rfl
@[simp] theorem Eng.postBits_swSince (r : Reg) (i m : Nat) : (e.postBits r i m).swSince = e.swSince := rfl
@[simp] theorem Eng.postBits_keys (r : Reg) (i m : Nat) : (e.postBits r i m).keys = e.keys := rfl
@[simp] theorem Eng.postBits_pwr (r : Reg) (i m : Nat) : (e.postBits r i m).pwr = e.pwr := rfl
@[simp] theorem Eng.postBits_sys (r : Reg) (i m : Nat) : (e.postBits r i m).sys = e.sys := rfl
@[simp] theorem Eng.postBits_cells (r : Reg) (i m : Nat) : (e.postBits r i m).cells = e.cells := rfl
@[simp] theorem Eng.postBits_ecc (r : Reg) (i m : Nat) : (e.postBits r i m).ecc = e.ecc := rfl
@[simp] theorem Eng.postBits_freeCtr (r : Reg) (i m : Nat) : (e.postBits r i m).freeCtr = e.freeCtr := rfl

@[simp] theorem Eng.post_ctrs (f : Fld) (i : Nat) : (e.post f i).ctrs = e.ctrs := rfl
@[simp] theorem Eng.post_clk (f : Fld) (i : Nat) : (e.post f i).clk = e.clk := rfl
@[simp] theorem Eng.post_tick (f : Fld) (i : Nat) : (e.post f i).tick = e.tick := rfl
@[simp] theorem Eng.post_cwy (f : Fld) (i : Nat) : (e.post f i).cwy = e.cwy := rfl
@[simp] theorem Eng.post_tmr (f : Fld) (i : Nat) : (e.post f i).tmr = e.tmr := rfl
@[simp] theorem Eng.post_latch (f : Fld) (i : Nat) : (e.post f i).latch = e.latch := rfl
@[simp] theorem Eng.post_rings (f : Fld) (i : Nat) : (e.post f i).rings = e.rings := rfl
@[simp] theorem Eng.post_initq (f : Fld) (i : Nat) : (e.post f i).initq = e.initq := rfl
@[simp] theorem Eng.post_matrix (f : Fld) (i : Nat) : (e.post f i).matrix = e.matrix := rfl
@[simp] theorem Eng.post_thr (f : Fld) (i : Nat) : (e.post f i).thr = e.thr := rfl
@[simp] theorem Eng.post_brl (f : Fld) (i : Nat) : (e.post f i).brl = e.brl := rfl
@[simp] theorem Eng.post_locks (f : Fld) (i : Nat) : (e.post f i).locks = e.locks := rfl
@[simp] theorem Eng.post_waiters (f : Fld) (i : Nat) : (e.post f i).waiters = e.waiters := rfl
@[simp] theorem Eng.post_cnd (f : Fld) (i : Nat) : (e.post f i).cnd = e.cnd := rfl
@[simp] theorem Eng.post_heldBanks (f : Fld) (i : Nat) : (e.post f i).heldBanks = e.heldBanks := rfl
@[simp] theorem Eng.post_passed (f : Fld) (i : Nat) : (e.post f i).passed = e.passed := rfl
@[simp] theorem Eng.post_closing (f : Fld) (i : Nat) : (e.post f i).closing = e.closing := rfl
@[simp] theorem Eng.post_hide (f : Fld) (i : Nat) : (e.post f i).hide = e.hide := rfl
@[simp] theorem Eng.post_reeds (f : Fld) (i : Nat) : (e.post f i).reeds = e.reeds := rfl
@[simp] theorem Eng.post_links (f : Fld) (i : Nat) : (e.post f i).links = e.links := rfl
@[simp] theorem Eng.post_sw (f : Fld) (i : Nat) : (e.post f i).sw = e.sw := rfl
@[simp] theorem Eng.post_sch (f : Fld) (i : Nat) : (e.post f i).sch = e.sch := rfl
@[simp] theorem Eng.post_swSince (f : Fld) (i : Nat) : (e.post f i).swSince = e.swSince := rfl
@[simp] theorem Eng.post_keys (f : Fld) (i : Nat) : (e.post f i).keys = e.keys := rfl
@[simp] theorem Eng.post_pwr (f : Fld) (i : Nat) : (e.post f i).pwr = e.pwr := rfl
@[simp] theorem Eng.post_sys (f : Fld) (i : Nat) : (e.post f i).sys = e.sys := rfl
@[simp] theorem Eng.post_cells (f : Fld) (i : Nat) : (e.post f i).cells = e.cells := rfl
@[simp] theorem Eng.post_ecc (f : Fld) (i : Nat) : (e.post f i).ecc = e.ecc := rfl
@[simp] theorem Eng.post_freeCtr (f : Fld) (i : Nat) : (e.post f i).freeCtr = e.freeCtr := rfl

@[simp] theorem Eng.setCtr_regs (b u k v : Nat) : (e.setCtr b u k v).regs = e.regs := rfl
@[simp] theorem Eng.setCtr_recent (b u k v : Nat) : (e.setCtr b u k v).recent = e.recent := rfl
@[simp] theorem Eng.setCtr_clk (b u k v : Nat) : (e.setCtr b u k v).clk = e.clk := rfl
@[simp] theorem Eng.setCtr_tick (b u k v : Nat) : (e.setCtr b u k v).tick = e.tick := rfl
@[simp] theorem Eng.setCtr_cwy (b u k v : Nat) : (e.setCtr b u k v).cwy = e.cwy := rfl
@[simp] theorem Eng.setCtr_tmr (b u k v : Nat) : (e.setCtr b u k v).tmr = e.tmr := rfl
@[simp] theorem Eng.setCtr_latch (b u k v : Nat) : (e.setCtr b u k v).latch = e.latch := rfl
@[simp] theorem Eng.setCtr_rings (b u k v : Nat) : (e.setCtr b u k v).rings = e.rings := rfl
@[simp] theorem Eng.setCtr_initq (b u k v : Nat) : (e.setCtr b u k v).initq = e.initq := rfl
@[simp] theorem Eng.setCtr_matrix (b u k v : Nat) : (e.setCtr b u k v).matrix = e.matrix := rfl
@[simp] theorem Eng.setCtr_thr (b u k v : Nat) : (e.setCtr b u k v).thr = e.thr := rfl
@[simp] theorem Eng.setCtr_brl (b u k v : Nat) : (e.setCtr b u k v).brl = e.brl := rfl
@[simp] theorem Eng.setCtr_locks (b u k v : Nat) : (e.setCtr b u k v).locks = e.locks := rfl
@[simp] theorem Eng.setCtr_waiters (b u k v : Nat) : (e.setCtr b u k v).waiters = e.waiters := rfl
@[simp] theorem Eng.setCtr_cnd (b u k v : Nat) : (e.setCtr b u k v).cnd = e.cnd := rfl
@[simp] theorem Eng.setCtr_heldBanks (b u k v : Nat) : (e.setCtr b u k v).heldBanks = e.heldBanks := rfl
@[simp] theorem Eng.setCtr_passed (b u k v : Nat) : (e.setCtr b u k v).passed = e.passed := rfl
@[simp] theorem Eng.setCtr_closing (b u k v : Nat) : (e.setCtr b u k v).closing = e.closing := rfl
@[simp] theorem Eng.setCtr_hide (b u k v : Nat) : (e.setCtr b u k v).hide = e.hide := rfl
@[simp] theorem Eng.setCtr_reeds (b u k v : Nat) : (e.setCtr b u k v).reeds = e.reeds := rfl
@[simp] theorem Eng.setCtr_links (b u k v : Nat) : (e.setCtr b u k v).links = e.links := rfl
@[simp] theorem Eng.setCtr_sw (b u k v : Nat) : (e.setCtr b u k v).sw = e.sw := rfl
@[simp] theorem Eng.setCtr_sch (b u k v : Nat) : (e.setCtr b u k v).sch = e.sch := rfl
@[simp] theorem Eng.setCtr_swSince (b u k v : Nat) : (e.setCtr b u k v).swSince = e.swSince := rfl
@[simp] theorem Eng.setCtr_keys (b u k v : Nat) : (e.setCtr b u k v).keys = e.keys := rfl
@[simp] theorem Eng.setCtr_pwr (b u k v : Nat) : (e.setCtr b u k v).pwr = e.pwr := rfl
@[simp] theorem Eng.setCtr_sys (b u k v : Nat) : (e.setCtr b u k v).sys = e.sys := rfl
@[simp] theorem Eng.setCtr_cells (b u k v : Nat) : (e.setCtr b u k v).cells = e.cells := rfl
@[simp] theorem Eng.setCtr_ecc (b u k v : Nat) : (e.setCtr b u k v).ecc = e.ecc := rfl
@[simp] theorem Eng.setCtr_freeCtr (b u k v : Nat) : (e.setCtr b u k v).freeCtr = e.freeCtr := rfl

@[simp] theorem Eng.setThr_regs (t : Nat) (x : Thr) : (e.setThr t x).regs = e.regs := rfl
@[simp] theorem Eng.setThr_ctrs (t : Nat) (x : Thr) : (e.setThr t x).ctrs = e.ctrs := rfl
@[simp] theorem Eng.setThr_recent (t : Nat) (x : Thr) : (e.setThr t x).recent = e.recent := rfl
@[simp] theorem Eng.setThr_clk (t : Nat) (x : Thr) : (e.setThr t x).clk = e.clk := rfl
@[simp] theorem Eng.setThr_tick (t : Nat) (x : Thr) : (e.setThr t x).tick = e.tick := rfl
@[simp] theorem Eng.setThr_cwy (t : Nat) (x : Thr) : (e.setThr t x).cwy = e.cwy := rfl
@[simp] theorem Eng.setThr_tmr (t : Nat) (x : Thr) : (e.setThr t x).tmr = e.tmr := rfl
@[simp] theorem Eng.setThr_latch (t : Nat) (x : Thr) : (e.setThr t x).latch = e.latch := rfl
@[simp] theorem Eng.setThr_rings (t : Nat) (x : Thr) : (e.setThr t x).rings = e.rings := rfl
@[simp] theorem Eng.setThr_initq (t : Nat) (x : Thr) : (e.setThr t x).initq = e.initq := rfl
@[simp] theorem Eng.setThr_matrix (t : Nat) (x : Thr) : (e.setThr t x).matrix = e.matrix := rfl
@[simp] theorem Eng.setThr_brl (t : Nat) (x : Thr) : (e.setThr t x).brl = e.brl := rfl
@[simp] theorem Eng.setThr_locks (t : Nat) (x : Thr) : (e.setThr t x).locks = e.locks := rfl
@[simp] theorem Eng.setThr_waiters (t : Nat) (x : Thr) : (e.setThr t x).waiters = e.waiters := rfl
@[simp] theorem Eng.setThr_cnd (t : Nat) (x : Thr) : (e.setThr t x).cnd = e.cnd := rfl
@[simp] theorem Eng.setThr_heldBanks (t : Nat) (x : Thr) : (e.setThr t x).heldBanks = e.heldBanks := rfl
@[simp] theorem Eng.setThr_passed (t : Nat) (x : Thr) : (e.setThr t x).passed = e.passed := rfl
@[simp] theorem Eng.setThr_closing (t : Nat) (x : Thr) : (e.setThr t x).closing = e.closing := rfl
@[simp] theorem Eng.setThr_hide (t : Nat) (x : Thr) : (e.setThr t x).hide = e.hide := rfl
@[simp] theorem Eng.setThr_reeds (t : Nat) (x : Thr) : (e.setThr t x).reeds = e.reeds := rfl
@[simp] theorem Eng.setThr_links (t : Nat) (x : Thr) : (e.setThr t x).links = e.links := rfl
@[simp] theorem Eng.setThr_sw (t : Nat) (x : Thr) : (e.setThr t x).sw = e.sw := rfl
@[simp] theorem Eng.setThr_sch (t : Nat) (x : Thr) : (e.setThr t x).sch = e.sch := rfl
@[simp] theorem Eng.setThr_swSince (t : Nat) (x : Thr) : (e.setThr t x).swSince = e.swSince := rfl
@[simp] theorem Eng.setThr_keys (t : Nat) (x : Thr) : (e.setThr t x).keys = e.keys := rfl
@[simp] theorem Eng.setThr_pwr (t : Nat) (x : Thr) : (e.setThr t x).pwr = e.pwr := rfl
@[simp] theorem Eng.setThr_sys (t : Nat) (x : Thr) : (e.setThr t x).sys = e.sys := rfl
@[simp] theorem Eng.setThr_cells (t : Nat) (x : Thr) : (e.setThr t x).cells = e.cells := rfl
@[simp] theorem Eng.setThr_ecc (t : Nat) (x : Thr) : (e.setThr t x).ecc = e.ecc := rfl
@[simp] theorem Eng.setThr_freeCtr (t : Nat) (x : Thr) : (e.setThr t x).freeCtr = e.freeCtr := rfl

@[simp] theorem Eng.setBrl_regs (p : Nat) (x : Barrel) : (e.setBrl p x).regs = e.regs := rfl
@[simp] theorem Eng.setBrl_ctrs (p : Nat) (x : Barrel) : (e.setBrl p x).ctrs = e.ctrs := rfl
@[simp] theorem Eng.setBrl_recent (p : Nat) (x : Barrel) : (e.setBrl p x).recent = e.recent := rfl
@[simp] theorem Eng.setBrl_clk (p : Nat) (x : Barrel) : (e.setBrl p x).clk = e.clk := rfl
@[simp] theorem Eng.setBrl_tick (p : Nat) (x : Barrel) : (e.setBrl p x).tick = e.tick := rfl
@[simp] theorem Eng.setBrl_cwy (p : Nat) (x : Barrel) : (e.setBrl p x).cwy = e.cwy := rfl
@[simp] theorem Eng.setBrl_tmr (p : Nat) (x : Barrel) : (e.setBrl p x).tmr = e.tmr := rfl
@[simp] theorem Eng.setBrl_latch (p : Nat) (x : Barrel) : (e.setBrl p x).latch = e.latch := rfl
@[simp] theorem Eng.setBrl_rings (p : Nat) (x : Barrel) : (e.setBrl p x).rings = e.rings := rfl
@[simp] theorem Eng.setBrl_initq (p : Nat) (x : Barrel) : (e.setBrl p x).initq = e.initq := rfl
@[simp] theorem Eng.setBrl_matrix (p : Nat) (x : Barrel) : (e.setBrl p x).matrix = e.matrix := rfl
@[simp] theorem Eng.setBrl_thr (p : Nat) (x : Barrel) : (e.setBrl p x).thr = e.thr := rfl
@[simp] theorem Eng.setBrl_locks (p : Nat) (x : Barrel) : (e.setBrl p x).locks = e.locks := rfl
@[simp] theorem Eng.setBrl_waiters (p : Nat) (x : Barrel) : (e.setBrl p x).waiters = e.waiters := rfl
@[simp] theorem Eng.setBrl_cnd (p : Nat) (x : Barrel) : (e.setBrl p x).cnd = e.cnd := rfl
@[simp] theorem Eng.setBrl_heldBanks (p : Nat) (x : Barrel) : (e.setBrl p x).heldBanks = e.heldBanks := rfl
@[simp] theorem Eng.setBrl_passed (p : Nat) (x : Barrel) : (e.setBrl p x).passed = e.passed := rfl
@[simp] theorem Eng.setBrl_closing (p : Nat) (x : Barrel) : (e.setBrl p x).closing = e.closing := rfl
@[simp] theorem Eng.setBrl_hide (p : Nat) (x : Barrel) : (e.setBrl p x).hide = e.hide := rfl
@[simp] theorem Eng.setBrl_reeds (p : Nat) (x : Barrel) : (e.setBrl p x).reeds = e.reeds := rfl
@[simp] theorem Eng.setBrl_links (p : Nat) (x : Barrel) : (e.setBrl p x).links = e.links := rfl
@[simp] theorem Eng.setBrl_sw (p : Nat) (x : Barrel) : (e.setBrl p x).sw = e.sw := rfl
@[simp] theorem Eng.setBrl_sch (p : Nat) (x : Barrel) : (e.setBrl p x).sch = e.sch := rfl
@[simp] theorem Eng.setBrl_swSince (p : Nat) (x : Barrel) : (e.setBrl p x).swSince = e.swSince := rfl
@[simp] theorem Eng.setBrl_keys (p : Nat) (x : Barrel) : (e.setBrl p x).keys = e.keys := rfl
@[simp] theorem Eng.setBrl_pwr (p : Nat) (x : Barrel) : (e.setBrl p x).pwr = e.pwr := rfl
@[simp] theorem Eng.setBrl_sys (p : Nat) (x : Barrel) : (e.setBrl p x).sys = e.sys := rfl
@[simp] theorem Eng.setBrl_cells (p : Nat) (x : Barrel) : (e.setBrl p x).cells = e.cells := rfl
@[simp] theorem Eng.setBrl_ecc (p : Nat) (x : Barrel) : (e.setBrl p x).ecc = e.ecc := rfl
@[simp] theorem Eng.setBrl_freeCtr (p : Nat) (x : Barrel) : (e.setBrl p x).freeCtr = e.freeCtr := rfl

@[simp] theorem Eng.setTmr_regs (u : Nat) (x : Timer) : (e.setTmr u x).regs = e.regs := rfl
@[simp] theorem Eng.setTmr_ctrs (u : Nat) (x : Timer) : (e.setTmr u x).ctrs = e.ctrs := rfl
@[simp] theorem Eng.setTmr_recent (u : Nat) (x : Timer) : (e.setTmr u x).recent = e.recent := rfl
@[simp] theorem Eng.setTmr_clk (u : Nat) (x : Timer) : (e.setTmr u x).clk = e.clk := rfl
@[simp] theorem Eng.setTmr_tick (u : Nat) (x : Timer) : (e.setTmr u x).tick = e.tick := rfl
@[simp] theorem Eng.setTmr_cwy (u : Nat) (x : Timer) : (e.setTmr u x).cwy = e.cwy := rfl
@[simp] theorem Eng.setTmr_latch (u : Nat) (x : Timer) : (e.setTmr u x).latch = e.latch := rfl
@[simp] theorem Eng.setTmr_rings (u : Nat) (x : Timer) : (e.setTmr u x).rings = e.rings := rfl
@[simp] theorem Eng.setTmr_initq (u : Nat) (x : Timer) : (e.setTmr u x).initq = e.initq := rfl
@[simp] theorem Eng.setTmr_matrix (u : Nat) (x : Timer) : (e.setTmr u x).matrix = e.matrix := rfl
@[simp] theorem Eng.setTmr_thr (u : Nat) (x : Timer) : (e.setTmr u x).thr = e.thr := rfl
@[simp] theorem Eng.setTmr_brl (u : Nat) (x : Timer) : (e.setTmr u x).brl = e.brl := rfl
@[simp] theorem Eng.setTmr_locks (u : Nat) (x : Timer) : (e.setTmr u x).locks = e.locks := rfl
@[simp] theorem Eng.setTmr_waiters (u : Nat) (x : Timer) : (e.setTmr u x).waiters = e.waiters := rfl
@[simp] theorem Eng.setTmr_cnd (u : Nat) (x : Timer) : (e.setTmr u x).cnd = e.cnd := rfl
@[simp] theorem Eng.setTmr_heldBanks (u : Nat) (x : Timer) : (e.setTmr u x).heldBanks = e.heldBanks := rfl
@[simp] theorem Eng.setTmr_passed (u : Nat) (x : Timer) : (e.setTmr u x).passed = e.passed := rfl
@[simp] theorem Eng.setTmr_closing (u : Nat) (x : Timer) : (e.setTmr u x).closing = e.closing := rfl
@[simp] theorem Eng.setTmr_hide (u : Nat) (x : Timer) : (e.setTmr u x).hide = e.hide := rfl
@[simp] theorem Eng.setTmr_reeds (u : Nat) (x : Timer) : (e.setTmr u x).reeds = e.reeds := rfl
@[simp] theorem Eng.setTmr_links (u : Nat) (x : Timer) : (e.setTmr u x).links = e.links := rfl
@[simp] theorem Eng.setTmr_sw (u : Nat) (x : Timer) : (e.setTmr u x).sw = e.sw := rfl
@[simp] theorem Eng.setTmr_sch (u : Nat) (x : Timer) : (e.setTmr u x).sch = e.sch := rfl
@[simp] theorem Eng.setTmr_swSince (u : Nat) (x : Timer) : (e.setTmr u x).swSince = e.swSince := rfl
@[simp] theorem Eng.setTmr_keys (u : Nat) (x : Timer) : (e.setTmr u x).keys = e.keys := rfl
@[simp] theorem Eng.setTmr_pwr (u : Nat) (x : Timer) : (e.setTmr u x).pwr = e.pwr := rfl
@[simp] theorem Eng.setTmr_sys (u : Nat) (x : Timer) : (e.setTmr u x).sys = e.sys := rfl
@[simp] theorem Eng.setTmr_cells (u : Nat) (x : Timer) : (e.setTmr u x).cells = e.cells := rfl
@[simp] theorem Eng.setTmr_ecc (u : Nat) (x : Timer) : (e.setTmr u x).ecc = e.ecc := rfl
@[simp] theorem Eng.setTmr_freeCtr (u : Nat) (x : Timer) : (e.setTmr u x).freeCtr = e.freeCtr := rfl

@[simp] theorem Eng.setRing_regs (r : Nat) (x : Ring) : (e.setRing r x).regs = e.regs := rfl
@[simp] theorem Eng.setRing_ctrs (r : Nat) (x : Ring) : (e.setRing r x).ctrs = e.ctrs := rfl
@[simp] theorem Eng.setRing_recent (r : Nat) (x : Ring) : (e.setRing r x).recent = e.recent := rfl
@[simp] theorem Eng.setRing_clk (r : Nat) (x : Ring) : (e.setRing r x).clk = e.clk := rfl
@[simp] theorem Eng.setRing_tick (r : Nat) (x : Ring) : (e.setRing r x).tick = e.tick := rfl
@[simp] theorem Eng.setRing_cwy (r : Nat) (x : Ring) : (e.setRing r x).cwy = e.cwy := rfl
@[simp] theorem Eng.setRing_tmr (r : Nat) (x : Ring) : (e.setRing r x).tmr = e.tmr := rfl
@[simp] theorem Eng.setRing_latch (r : Nat) (x : Ring) : (e.setRing r x).latch = e.latch := rfl
@[simp] theorem Eng.setRing_initq (r : Nat) (x : Ring) : (e.setRing r x).initq = e.initq := rfl
@[simp] theorem Eng.setRing_matrix (r : Nat) (x : Ring) : (e.setRing r x).matrix = e.matrix := rfl
@[simp] theorem Eng.setRing_thr (r : Nat) (x : Ring) : (e.setRing r x).thr = e.thr := rfl
@[simp] theorem Eng.setRing_brl (r : Nat) (x : Ring) : (e.setRing r x).brl = e.brl := rfl
@[simp] theorem Eng.setRing_locks (r : Nat) (x : Ring) : (e.setRing r x).locks = e.locks := rfl
@[simp] theorem Eng.setRing_waiters (r : Nat) (x : Ring) : (e.setRing r x).waiters = e.waiters := rfl
@[simp] theorem Eng.setRing_cnd (r : Nat) (x : Ring) : (e.setRing r x).cnd = e.cnd := rfl
@[simp] theorem Eng.setRing_heldBanks (r : Nat) (x : Ring) : (e.setRing r x).heldBanks = e.heldBanks := rfl
@[simp] theorem Eng.setRing_passed (r : Nat) (x : Ring) : (e.setRing r x).passed = e.passed := rfl
@[simp] theorem Eng.setRing_closing (r : Nat) (x : Ring) : (e.setRing r x).closing = e.closing := rfl
@[simp] theorem Eng.setRing_hide (r : Nat) (x : Ring) : (e.setRing r x).hide = e.hide := rfl
@[simp] theorem Eng.setRing_reeds (r : Nat) (x : Ring) : (e.setRing r x).reeds = e.reeds := rfl
@[simp] theorem Eng.setRing_links (r : Nat) (x : Ring) : (e.setRing r x).links = e.links := rfl
@[simp] theorem Eng.setRing_sw (r : Nat) (x : Ring) : (e.setRing r x).sw = e.sw := rfl
@[simp] theorem Eng.setRing_sch (r : Nat) (x : Ring) : (e.setRing r x).sch = e.sch := rfl
@[simp] theorem Eng.setRing_swSince (r : Nat) (x : Ring) : (e.setRing r x).swSince = e.swSince := rfl
@[simp] theorem Eng.setRing_keys (r : Nat) (x : Ring) : (e.setRing r x).keys = e.keys := rfl
@[simp] theorem Eng.setRing_pwr (r : Nat) (x : Ring) : (e.setRing r x).pwr = e.pwr := rfl
@[simp] theorem Eng.setRing_sys (r : Nat) (x : Ring) : (e.setRing r x).sys = e.sys := rfl
@[simp] theorem Eng.setRing_cells (r : Nat) (x : Ring) : (e.setRing r x).cells = e.cells := rfl
@[simp] theorem Eng.setRing_ecc (r : Nat) (x : Ring) : (e.setRing r x).ecc = e.ecc := rfl
@[simp] theorem Eng.setRing_freeCtr (r : Nat) (x : Ring) : (e.setRing r x).freeCtr = e.freeCtr := rfl

@[simp] theorem Eng.setCnd_regs (c : Nat) (x : Conduit) : (e.setCnd c x).regs = e.regs := rfl
@[simp] theorem Eng.setCnd_ctrs (c : Nat) (x : Conduit) : (e.setCnd c x).ctrs = e.ctrs := rfl
@[simp] theorem Eng.setCnd_recent (c : Nat) (x : Conduit) : (e.setCnd c x).recent = e.recent := rfl
@[simp] theorem Eng.setCnd_clk (c : Nat) (x : Conduit) : (e.setCnd c x).clk = e.clk := rfl
@[simp] theorem Eng.setCnd_tick (c : Nat) (x : Conduit) : (e.setCnd c x).tick = e.tick := rfl
@[simp] theorem Eng.setCnd_cwy (c : Nat) (x : Conduit) : (e.setCnd c x).cwy = e.cwy := rfl
@[simp] theorem Eng.setCnd_tmr (c : Nat) (x : Conduit) : (e.setCnd c x).tmr = e.tmr := rfl
@[simp] theorem Eng.setCnd_latch (c : Nat) (x : Conduit) : (e.setCnd c x).latch = e.latch := rfl
@[simp] theorem Eng.setCnd_rings (c : Nat) (x : Conduit) : (e.setCnd c x).rings = e.rings := rfl
@[simp] theorem Eng.setCnd_initq (c : Nat) (x : Conduit) : (e.setCnd c x).initq = e.initq := rfl
@[simp] theorem Eng.setCnd_matrix (c : Nat) (x : Conduit) : (e.setCnd c x).matrix = e.matrix := rfl
@[simp] theorem Eng.setCnd_thr (c : Nat) (x : Conduit) : (e.setCnd c x).thr = e.thr := rfl
@[simp] theorem Eng.setCnd_brl (c : Nat) (x : Conduit) : (e.setCnd c x).brl = e.brl := rfl
@[simp] theorem Eng.setCnd_locks (c : Nat) (x : Conduit) : (e.setCnd c x).locks = e.locks := rfl
@[simp] theorem Eng.setCnd_waiters (c : Nat) (x : Conduit) : (e.setCnd c x).waiters = e.waiters := rfl
@[simp] theorem Eng.setCnd_heldBanks (c : Nat) (x : Conduit) : (e.setCnd c x).heldBanks = e.heldBanks := rfl
@[simp] theorem Eng.setCnd_passed (c : Nat) (x : Conduit) : (e.setCnd c x).passed = e.passed := rfl
@[simp] theorem Eng.setCnd_closing (c : Nat) (x : Conduit) : (e.setCnd c x).closing = e.closing := rfl
@[simp] theorem Eng.setCnd_hide (c : Nat) (x : Conduit) : (e.setCnd c x).hide = e.hide := rfl
@[simp] theorem Eng.setCnd_reeds (c : Nat) (x : Conduit) : (e.setCnd c x).reeds = e.reeds := rfl
@[simp] theorem Eng.setCnd_links (c : Nat) (x : Conduit) : (e.setCnd c x).links = e.links := rfl
@[simp] theorem Eng.setCnd_sw (c : Nat) (x : Conduit) : (e.setCnd c x).sw = e.sw := rfl
@[simp] theorem Eng.setCnd_sch (c : Nat) (x : Conduit) : (e.setCnd c x).sch = e.sch := rfl
@[simp] theorem Eng.setCnd_swSince (c : Nat) (x : Conduit) : (e.setCnd c x).swSince = e.swSince := rfl
@[simp] theorem Eng.setCnd_keys (c : Nat) (x : Conduit) : (e.setCnd c x).keys = e.keys := rfl
@[simp] theorem Eng.setCnd_pwr (c : Nat) (x : Conduit) : (e.setCnd c x).pwr = e.pwr := rfl
@[simp] theorem Eng.setCnd_sys (c : Nat) (x : Conduit) : (e.setCnd c x).sys = e.sys := rfl
@[simp] theorem Eng.setCnd_cells (c : Nat) (x : Conduit) : (e.setCnd c x).cells = e.cells := rfl
@[simp] theorem Eng.setCnd_ecc (c : Nat) (x : Conduit) : (e.setCnd c x).ecc = e.ecc := rfl
@[simp] theorem Eng.setCnd_freeCtr (c : Nat) (x : Conduit) : (e.setCnd c x).freeCtr = e.freeCtr := rfl

@[simp] theorem Eng.setLatch_regs (k : Nat) (x : Latches) : (e.setLatch k x).regs = e.regs := rfl
@[simp] theorem Eng.setLatch_ctrs (k : Nat) (x : Latches) : (e.setLatch k x).ctrs = e.ctrs := rfl
@[simp] theorem Eng.setLatch_recent (k : Nat) (x : Latches) : (e.setLatch k x).recent = e.recent := rfl
@[simp] theorem Eng.setLatch_clk (k : Nat) (x : Latches) : (e.setLatch k x).clk = e.clk := rfl
@[simp] theorem Eng.setLatch_tick (k : Nat) (x : Latches) : (e.setLatch k x).tick = e.tick := rfl
@[simp] theorem Eng.setLatch_cwy (k : Nat) (x : Latches) : (e.setLatch k x).cwy = e.cwy := rfl
@[simp] theorem Eng.setLatch_tmr (k : Nat) (x : Latches) : (e.setLatch k x).tmr = e.tmr := rfl
@[simp] theorem Eng.setLatch_rings (k : Nat) (x : Latches) : (e.setLatch k x).rings = e.rings := rfl
@[simp] theorem Eng.setLatch_initq (k : Nat) (x : Latches) : (e.setLatch k x).initq = e.initq := rfl
@[simp] theorem Eng.setLatch_matrix (k : Nat) (x : Latches) : (e.setLatch k x).matrix = e.matrix := rfl
@[simp] theorem Eng.setLatch_thr (k : Nat) (x : Latches) : (e.setLatch k x).thr = e.thr := rfl
@[simp] theorem Eng.setLatch_brl (k : Nat) (x : Latches) : (e.setLatch k x).brl = e.brl := rfl
@[simp] theorem Eng.setLatch_locks (k : Nat) (x : Latches) : (e.setLatch k x).locks = e.locks := rfl
@[simp] theorem Eng.setLatch_waiters (k : Nat) (x : Latches) : (e.setLatch k x).waiters = e.waiters := rfl
@[simp] theorem Eng.setLatch_cnd (k : Nat) (x : Latches) : (e.setLatch k x).cnd = e.cnd := rfl
@[simp] theorem Eng.setLatch_heldBanks (k : Nat) (x : Latches) : (e.setLatch k x).heldBanks = e.heldBanks := rfl
@[simp] theorem Eng.setLatch_passed (k : Nat) (x : Latches) : (e.setLatch k x).passed = e.passed := rfl
@[simp] theorem Eng.setLatch_closing (k : Nat) (x : Latches) : (e.setLatch k x).closing = e.closing := rfl
@[simp] theorem Eng.setLatch_hide (k : Nat) (x : Latches) : (e.setLatch k x).hide = e.hide := rfl
@[simp] theorem Eng.setLatch_reeds (k : Nat) (x : Latches) : (e.setLatch k x).reeds = e.reeds := rfl
@[simp] theorem Eng.setLatch_links (k : Nat) (x : Latches) : (e.setLatch k x).links = e.links := rfl
@[simp] theorem Eng.setLatch_sw (k : Nat) (x : Latches) : (e.setLatch k x).sw = e.sw := rfl
@[simp] theorem Eng.setLatch_sch (k : Nat) (x : Latches) : (e.setLatch k x).sch = e.sch := rfl
@[simp] theorem Eng.setLatch_swSince (k : Nat) (x : Latches) : (e.setLatch k x).swSince = e.swSince := rfl
@[simp] theorem Eng.setLatch_keys (k : Nat) (x : Latches) : (e.setLatch k x).keys = e.keys := rfl
@[simp] theorem Eng.setLatch_pwr (k : Nat) (x : Latches) : (e.setLatch k x).pwr = e.pwr := rfl
@[simp] theorem Eng.setLatch_sys (k : Nat) (x : Latches) : (e.setLatch k x).sys = e.sys := rfl
@[simp] theorem Eng.setLatch_cells (k : Nat) (x : Latches) : (e.setLatch k x).cells = e.cells := rfl
@[simp] theorem Eng.setLatch_ecc (k : Nat) (x : Latches) : (e.setLatch k x).ecc = e.ecc := rfl
@[simp] theorem Eng.setLatch_freeCtr (k : Nat) (x : Latches) : (e.setLatch k x).freeCtr = e.freeCtr := rfl

@[simp] theorem Eng.setReed_regs (k : Nat) (x : Reed) : (e.setReed k x).regs = e.regs := rfl
@[simp] theorem Eng.setReed_ctrs (k : Nat) (x : Reed) : (e.setReed k x).ctrs = e.ctrs := rfl
@[simp] theorem Eng.setReed_recent (k : Nat) (x : Reed) : (e.setReed k x).recent = e.recent := rfl
@[simp] theorem Eng.setReed_clk (k : Nat) (x : Reed) : (e.setReed k x).clk = e.clk := rfl
@[simp] theorem Eng.setReed_tick (k : Nat) (x : Reed) : (e.setReed k x).tick = e.tick := rfl
@[simp] theorem Eng.setReed_cwy (k : Nat) (x : Reed) : (e.setReed k x).cwy = e.cwy := rfl
@[simp] theorem Eng.setReed_tmr (k : Nat) (x : Reed) : (e.setReed k x).tmr = e.tmr := rfl
@[simp] theorem Eng.setReed_latch (k : Nat) (x : Reed) : (e.setReed k x).latch = e.latch := rfl
@[simp] theorem Eng.setReed_rings (k : Nat) (x : Reed) : (e.setReed k x).rings = e.rings := rfl
@[simp] theorem Eng.setReed_initq (k : Nat) (x : Reed) : (e.setReed k x).initq = e.initq := rfl
@[simp] theorem Eng.setReed_matrix (k : Nat) (x : Reed) : (e.setReed k x).matrix = e.matrix := rfl
@[simp] theorem Eng.setReed_thr (k : Nat) (x : Reed) : (e.setReed k x).thr = e.thr := rfl
@[simp] theorem Eng.setReed_brl (k : Nat) (x : Reed) : (e.setReed k x).brl = e.brl := rfl
@[simp] theorem Eng.setReed_locks (k : Nat) (x : Reed) : (e.setReed k x).locks = e.locks := rfl
@[simp] theorem Eng.setReed_waiters (k : Nat) (x : Reed) : (e.setReed k x).waiters = e.waiters := rfl
@[simp] theorem Eng.setReed_cnd (k : Nat) (x : Reed) : (e.setReed k x).cnd = e.cnd := rfl
@[simp] theorem Eng.setReed_heldBanks (k : Nat) (x : Reed) : (e.setReed k x).heldBanks = e.heldBanks := rfl
@[simp] theorem Eng.setReed_passed (k : Nat) (x : Reed) : (e.setReed k x).passed = e.passed := rfl
@[simp] theorem Eng.setReed_closing (k : Nat) (x : Reed) : (e.setReed k x).closing = e.closing := rfl
@[simp] theorem Eng.setReed_hide (k : Nat) (x : Reed) : (e.setReed k x).hide = e.hide := rfl
@[simp] theorem Eng.setReed_links (k : Nat) (x : Reed) : (e.setReed k x).links = e.links := rfl
@[simp] theorem Eng.setReed_sw (k : Nat) (x : Reed) : (e.setReed k x).sw = e.sw := rfl
@[simp] theorem Eng.setReed_sch (k : Nat) (x : Reed) : (e.setReed k x).sch = e.sch := rfl
@[simp] theorem Eng.setReed_swSince (k : Nat) (x : Reed) : (e.setReed k x).swSince = e.swSince := rfl
@[simp] theorem Eng.setReed_keys (k : Nat) (x : Reed) : (e.setReed k x).keys = e.keys := rfl
@[simp] theorem Eng.setReed_pwr (k : Nat) (x : Reed) : (e.setReed k x).pwr = e.pwr := rfl
@[simp] theorem Eng.setReed_sys (k : Nat) (x : Reed) : (e.setReed k x).sys = e.sys := rfl
@[simp] theorem Eng.setReed_cells (k : Nat) (x : Reed) : (e.setReed k x).cells = e.cells := rfl
@[simp] theorem Eng.setReed_ecc (k : Nat) (x : Reed) : (e.setReed k x).ecc = e.ecc := rfl
@[simp] theorem Eng.setReed_freeCtr (k : Nat) (x : Reed) : (e.setReed k x).freeCtr = e.freeCtr := rfl

@[simp] theorem Eng.setLink_regs (n : Nat) (x : Link) : (e.setLink n x).regs = e.regs := rfl
@[simp] theorem Eng.setLink_ctrs (n : Nat) (x : Link) : (e.setLink n x).ctrs = e.ctrs := rfl
@[simp] theorem Eng.setLink_recent (n : Nat) (x : Link) : (e.setLink n x).recent = e.recent := rfl
@[simp] theorem Eng.setLink_clk (n : Nat) (x : Link) : (e.setLink n x).clk = e.clk := rfl
@[simp] theorem Eng.setLink_tick (n : Nat) (x : Link) : (e.setLink n x).tick = e.tick := rfl
@[simp] theorem Eng.setLink_cwy (n : Nat) (x : Link) : (e.setLink n x).cwy = e.cwy := rfl
@[simp] theorem Eng.setLink_tmr (n : Nat) (x : Link) : (e.setLink n x).tmr = e.tmr := rfl
@[simp] theorem Eng.setLink_latch (n : Nat) (x : Link) : (e.setLink n x).latch = e.latch := rfl
@[simp] theorem Eng.setLink_rings (n : Nat) (x : Link) : (e.setLink n x).rings = e.rings := rfl
@[simp] theorem Eng.setLink_initq (n : Nat) (x : Link) : (e.setLink n x).initq = e.initq := rfl
@[simp] theorem Eng.setLink_matrix (n : Nat) (x : Link) : (e.setLink n x).matrix = e.matrix := rfl
@[simp] theorem Eng.setLink_thr (n : Nat) (x : Link) : (e.setLink n x).thr = e.thr := rfl
@[simp] theorem Eng.setLink_brl (n : Nat) (x : Link) : (e.setLink n x).brl = e.brl := rfl
@[simp] theorem Eng.setLink_locks (n : Nat) (x : Link) : (e.setLink n x).locks = e.locks := rfl
@[simp] theorem Eng.setLink_waiters (n : Nat) (x : Link) : (e.setLink n x).waiters = e.waiters := rfl
@[simp] theorem Eng.setLink_cnd (n : Nat) (x : Link) : (e.setLink n x).cnd = e.cnd := rfl
@[simp] theorem Eng.setLink_heldBanks (n : Nat) (x : Link) : (e.setLink n x).heldBanks = e.heldBanks := rfl
@[simp] theorem Eng.setLink_passed (n : Nat) (x : Link) : (e.setLink n x).passed = e.passed := rfl
@[simp] theorem Eng.setLink_closing (n : Nat) (x : Link) : (e.setLink n x).closing = e.closing := rfl
@[simp] theorem Eng.setLink_hide (n : Nat) (x : Link) : (e.setLink n x).hide = e.hide := rfl
@[simp] theorem Eng.setLink_reeds (n : Nat) (x : Link) : (e.setLink n x).reeds = e.reeds := rfl
@[simp] theorem Eng.setLink_sw (n : Nat) (x : Link) : (e.setLink n x).sw = e.sw := rfl
@[simp] theorem Eng.setLink_sch (n : Nat) (x : Link) : (e.setLink n x).sch = e.sch := rfl
@[simp] theorem Eng.setLink_swSince (n : Nat) (x : Link) : (e.setLink n x).swSince = e.swSince := rfl
@[simp] theorem Eng.setLink_keys (n : Nat) (x : Link) : (e.setLink n x).keys = e.keys := rfl
@[simp] theorem Eng.setLink_pwr (n : Nat) (x : Link) : (e.setLink n x).pwr = e.pwr := rfl
@[simp] theorem Eng.setLink_sys (n : Nat) (x : Link) : (e.setLink n x).sys = e.sys := rfl
@[simp] theorem Eng.setLink_cells (n : Nat) (x : Link) : (e.setLink n x).cells = e.cells := rfl
@[simp] theorem Eng.setLink_ecc (n : Nat) (x : Link) : (e.setLink n x).ecc = e.ecc := rfl
@[simp] theorem Eng.setLink_freeCtr (n : Nat) (x : Link) : (e.setLink n x).freeCtr = e.freeCtr := rfl

@[simp] theorem Eng.setCell_regs (c : Nat) (x : Cell) : (e.setCell c x).regs = e.regs := rfl
@[simp] theorem Eng.setCell_ctrs (c : Nat) (x : Cell) : (e.setCell c x).ctrs = e.ctrs := rfl
@[simp] theorem Eng.setCell_recent (c : Nat) (x : Cell) : (e.setCell c x).recent = e.recent := rfl
@[simp] theorem Eng.setCell_clk (c : Nat) (x : Cell) : (e.setCell c x).clk = e.clk := rfl
@[simp] theorem Eng.setCell_tick (c : Nat) (x : Cell) : (e.setCell c x).tick = e.tick := rfl
@[simp] theorem Eng.setCell_cwy (c : Nat) (x : Cell) : (e.setCell c x).cwy = e.cwy := rfl
@[simp] theorem Eng.setCell_tmr (c : Nat) (x : Cell) : (e.setCell c x).tmr = e.tmr := rfl
@[simp] theorem Eng.setCell_latch (c : Nat) (x : Cell) : (e.setCell c x).latch = e.latch := rfl
@[simp] theorem Eng.setCell_rings (c : Nat) (x : Cell) : (e.setCell c x).rings = e.rings := rfl
@[simp] theorem Eng.setCell_initq (c : Nat) (x : Cell) : (e.setCell c x).initq = e.initq := rfl
@[simp] theorem Eng.setCell_matrix (c : Nat) (x : Cell) : (e.setCell c x).matrix = e.matrix := rfl
@[simp] theorem Eng.setCell_thr (c : Nat) (x : Cell) : (e.setCell c x).thr = e.thr := rfl
@[simp] theorem Eng.setCell_brl (c : Nat) (x : Cell) : (e.setCell c x).brl = e.brl := rfl
@[simp] theorem Eng.setCell_locks (c : Nat) (x : Cell) : (e.setCell c x).locks = e.locks := rfl
@[simp] theorem Eng.setCell_waiters (c : Nat) (x : Cell) : (e.setCell c x).waiters = e.waiters := rfl
@[simp] theorem Eng.setCell_cnd (c : Nat) (x : Cell) : (e.setCell c x).cnd = e.cnd := rfl
@[simp] theorem Eng.setCell_heldBanks (c : Nat) (x : Cell) : (e.setCell c x).heldBanks = e.heldBanks := rfl
@[simp] theorem Eng.setCell_passed (c : Nat) (x : Cell) : (e.setCell c x).passed = e.passed := rfl
@[simp] theorem Eng.setCell_closing (c : Nat) (x : Cell) : (e.setCell c x).closing = e.closing := rfl
@[simp] theorem Eng.setCell_hide (c : Nat) (x : Cell) : (e.setCell c x).hide = e.hide := rfl
@[simp] theorem Eng.setCell_reeds (c : Nat) (x : Cell) : (e.setCell c x).reeds = e.reeds := rfl
@[simp] theorem Eng.setCell_links (c : Nat) (x : Cell) : (e.setCell c x).links = e.links := rfl
@[simp] theorem Eng.setCell_sw (c : Nat) (x : Cell) : (e.setCell c x).sw = e.sw := rfl
@[simp] theorem Eng.setCell_sch (c : Nat) (x : Cell) : (e.setCell c x).sch = e.sch := rfl
@[simp] theorem Eng.setCell_swSince (c : Nat) (x : Cell) : (e.setCell c x).swSince = e.swSince := rfl
@[simp] theorem Eng.setCell_keys (c : Nat) (x : Cell) : (e.setCell c x).keys = e.keys := rfl
@[simp] theorem Eng.setCell_pwr (c : Nat) (x : Cell) : (e.setCell c x).pwr = e.pwr := rfl
@[simp] theorem Eng.setCell_sys (c : Nat) (x : Cell) : (e.setCell c x).sys = e.sys := rfl
@[simp] theorem Eng.setCell_ecc (c : Nat) (x : Cell) : (e.setCell c x).ecc = e.ecc := rfl
@[simp] theorem Eng.setCell_freeCtr (c : Nat) (x : Cell) : (e.setCell c x).freeCtr = e.freeCtr := rfl

@[simp] theorem Eng.setFrame_regs (q : Nat) (x : Frame) : (e.setFrame q x).regs = e.regs := rfl
@[simp] theorem Eng.setFrame_ctrs (q : Nat) (x : Frame) : (e.setFrame q x).ctrs = e.ctrs := rfl
@[simp] theorem Eng.setFrame_recent (q : Nat) (x : Frame) : (e.setFrame q x).recent = e.recent := rfl
@[simp] theorem Eng.setFrame_clk (q : Nat) (x : Frame) : (e.setFrame q x).clk = e.clk := rfl
@[simp] theorem Eng.setFrame_tick (q : Nat) (x : Frame) : (e.setFrame q x).tick = e.tick := rfl
@[simp] theorem Eng.setFrame_cwy (q : Nat) (x : Frame) : (e.setFrame q x).cwy = e.cwy := rfl
@[simp] theorem Eng.setFrame_tmr (q : Nat) (x : Frame) : (e.setFrame q x).tmr = e.tmr := rfl
@[simp] theorem Eng.setFrame_latch (q : Nat) (x : Frame) : (e.setFrame q x).latch = e.latch := rfl
@[simp] theorem Eng.setFrame_rings (q : Nat) (x : Frame) : (e.setFrame q x).rings = e.rings := rfl
@[simp] theorem Eng.setFrame_initq (q : Nat) (x : Frame) : (e.setFrame q x).initq = e.initq := rfl
@[simp] theorem Eng.setFrame_matrix (q : Nat) (x : Frame) : (e.setFrame q x).matrix = e.matrix := rfl
@[simp] theorem Eng.setFrame_thr (q : Nat) (x : Frame) : (e.setFrame q x).thr = e.thr := rfl
@[simp] theorem Eng.setFrame_brl (q : Nat) (x : Frame) : (e.setFrame q x).brl = e.brl := rfl
@[simp] theorem Eng.setFrame_locks (q : Nat) (x : Frame) : (e.setFrame q x).locks = e.locks := rfl
@[simp] theorem Eng.setFrame_waiters (q : Nat) (x : Frame) : (e.setFrame q x).waiters = e.waiters := rfl
@[simp] theorem Eng.setFrame_cnd (q : Nat) (x : Frame) : (e.setFrame q x).cnd = e.cnd := rfl
@[simp] theorem Eng.setFrame_heldBanks (q : Nat) (x : Frame) : (e.setFrame q x).heldBanks = e.heldBanks := rfl
@[simp] theorem Eng.setFrame_passed (q : Nat) (x : Frame) : (e.setFrame q x).passed = e.passed := rfl
@[simp] theorem Eng.setFrame_closing (q : Nat) (x : Frame) : (e.setFrame q x).closing = e.closing := rfl
@[simp] theorem Eng.setFrame_hide (q : Nat) (x : Frame) : (e.setFrame q x).hide = e.hide := rfl
@[simp] theorem Eng.setFrame_reeds (q : Nat) (x : Frame) : (e.setFrame q x).reeds = e.reeds := rfl
@[simp] theorem Eng.setFrame_links (q : Nat) (x : Frame) : (e.setFrame q x).links = e.links := rfl
@[simp] theorem Eng.setFrame_sch (q : Nat) (x : Frame) : (e.setFrame q x).sch = e.sch := rfl
@[simp] theorem Eng.setFrame_swSince (q : Nat) (x : Frame) : (e.setFrame q x).swSince = e.swSince := rfl
@[simp] theorem Eng.setFrame_keys (q : Nat) (x : Frame) : (e.setFrame q x).keys = e.keys := rfl
@[simp] theorem Eng.setFrame_pwr (q : Nat) (x : Frame) : (e.setFrame q x).pwr = e.pwr := rfl
@[simp] theorem Eng.setFrame_sys (q : Nat) (x : Frame) : (e.setFrame q x).sys = e.sys := rfl
@[simp] theorem Eng.setFrame_cells (q : Nat) (x : Frame) : (e.setFrame q x).cells = e.cells := rfl
@[simp] theorem Eng.setFrame_ecc (q : Nat) (x : Frame) : (e.setFrame q x).ecc = e.ecc := rfl
@[simp] theorem Eng.setFrame_freeCtr (q : Nat) (x : Frame) : (e.setFrame q x).freeCtr = e.freeCtr := rfl

@[simp] theorem Eng.setLayer_regs (n : Nat) (x : Layer) : (e.setLayer n x).regs = e.regs := rfl
@[simp] theorem Eng.setLayer_ctrs (n : Nat) (x : Layer) : (e.setLayer n x).ctrs = e.ctrs := rfl
@[simp] theorem Eng.setLayer_recent (n : Nat) (x : Layer) : (e.setLayer n x).recent = e.recent := rfl
@[simp] theorem Eng.setLayer_clk (n : Nat) (x : Layer) : (e.setLayer n x).clk = e.clk := rfl
@[simp] theorem Eng.setLayer_tick (n : Nat) (x : Layer) : (e.setLayer n x).tick = e.tick := rfl
@[simp] theorem Eng.setLayer_cwy (n : Nat) (x : Layer) : (e.setLayer n x).cwy = e.cwy := rfl
@[simp] theorem Eng.setLayer_tmr (n : Nat) (x : Layer) : (e.setLayer n x).tmr = e.tmr := rfl
@[simp] theorem Eng.setLayer_latch (n : Nat) (x : Layer) : (e.setLayer n x).latch = e.latch := rfl
@[simp] theorem Eng.setLayer_rings (n : Nat) (x : Layer) : (e.setLayer n x).rings = e.rings := rfl
@[simp] theorem Eng.setLayer_initq (n : Nat) (x : Layer) : (e.setLayer n x).initq = e.initq := rfl
@[simp] theorem Eng.setLayer_matrix (n : Nat) (x : Layer) : (e.setLayer n x).matrix = e.matrix := rfl
@[simp] theorem Eng.setLayer_thr (n : Nat) (x : Layer) : (e.setLayer n x).thr = e.thr := rfl
@[simp] theorem Eng.setLayer_brl (n : Nat) (x : Layer) : (e.setLayer n x).brl = e.brl := rfl
@[simp] theorem Eng.setLayer_locks (n : Nat) (x : Layer) : (e.setLayer n x).locks = e.locks := rfl
@[simp] theorem Eng.setLayer_waiters (n : Nat) (x : Layer) : (e.setLayer n x).waiters = e.waiters := rfl
@[simp] theorem Eng.setLayer_cnd (n : Nat) (x : Layer) : (e.setLayer n x).cnd = e.cnd := rfl
@[simp] theorem Eng.setLayer_heldBanks (n : Nat) (x : Layer) : (e.setLayer n x).heldBanks = e.heldBanks := rfl
@[simp] theorem Eng.setLayer_passed (n : Nat) (x : Layer) : (e.setLayer n x).passed = e.passed := rfl
@[simp] theorem Eng.setLayer_closing (n : Nat) (x : Layer) : (e.setLayer n x).closing = e.closing := rfl
@[simp] theorem Eng.setLayer_hide (n : Nat) (x : Layer) : (e.setLayer n x).hide = e.hide := rfl
@[simp] theorem Eng.setLayer_reeds (n : Nat) (x : Layer) : (e.setLayer n x).reeds = e.reeds := rfl
@[simp] theorem Eng.setLayer_links (n : Nat) (x : Layer) : (e.setLayer n x).links = e.links := rfl
@[simp] theorem Eng.setLayer_sw (n : Nat) (x : Layer) : (e.setLayer n x).sw = e.sw := rfl
@[simp] theorem Eng.setLayer_swSince (n : Nat) (x : Layer) : (e.setLayer n x).swSince = e.swSince := rfl
@[simp] theorem Eng.setLayer_keys (n : Nat) (x : Layer) : (e.setLayer n x).keys = e.keys := rfl
@[simp] theorem Eng.setLayer_pwr (n : Nat) (x : Layer) : (e.setLayer n x).pwr = e.pwr := rfl
@[simp] theorem Eng.setLayer_sys (n : Nat) (x : Layer) : (e.setLayer n x).sys = e.sys := rfl
@[simp] theorem Eng.setLayer_cells (n : Nat) (x : Layer) : (e.setLayer n x).cells = e.cells := rfl
@[simp] theorem Eng.setLayer_ecc (n : Nat) (x : Layer) : (e.setLayer n x).ecc = e.ecc := rfl
@[simp] theorem Eng.setLayer_freeCtr (n : Nat) (x : Layer) : (e.setLayer n x).freeCtr = e.freeCtr := rfl

@[simp] theorem Eng.setSchBuf_regs (k : Nat) (x : SchBuf) : (e.setSchBuf k x).regs = e.regs := rfl
@[simp] theorem Eng.setSchBuf_ctrs (k : Nat) (x : SchBuf) : (e.setSchBuf k x).ctrs = e.ctrs := rfl
@[simp] theorem Eng.setSchBuf_recent (k : Nat) (x : SchBuf) : (e.setSchBuf k x).recent = e.recent := rfl
@[simp] theorem Eng.setSchBuf_clk (k : Nat) (x : SchBuf) : (e.setSchBuf k x).clk = e.clk := rfl
@[simp] theorem Eng.setSchBuf_tick (k : Nat) (x : SchBuf) : (e.setSchBuf k x).tick = e.tick := rfl
@[simp] theorem Eng.setSchBuf_cwy (k : Nat) (x : SchBuf) : (e.setSchBuf k x).cwy = e.cwy := rfl
@[simp] theorem Eng.setSchBuf_tmr (k : Nat) (x : SchBuf) : (e.setSchBuf k x).tmr = e.tmr := rfl
@[simp] theorem Eng.setSchBuf_latch (k : Nat) (x : SchBuf) : (e.setSchBuf k x).latch = e.latch := rfl
@[simp] theorem Eng.setSchBuf_rings (k : Nat) (x : SchBuf) : (e.setSchBuf k x).rings = e.rings := rfl
@[simp] theorem Eng.setSchBuf_initq (k : Nat) (x : SchBuf) : (e.setSchBuf k x).initq = e.initq := rfl
@[simp] theorem Eng.setSchBuf_matrix (k : Nat) (x : SchBuf) : (e.setSchBuf k x).matrix = e.matrix := rfl
@[simp] theorem Eng.setSchBuf_thr (k : Nat) (x : SchBuf) : (e.setSchBuf k x).thr = e.thr := rfl
@[simp] theorem Eng.setSchBuf_brl (k : Nat) (x : SchBuf) : (e.setSchBuf k x).brl = e.brl := rfl
@[simp] theorem Eng.setSchBuf_locks (k : Nat) (x : SchBuf) : (e.setSchBuf k x).locks = e.locks := rfl
@[simp] theorem Eng.setSchBuf_waiters (k : Nat) (x : SchBuf) : (e.setSchBuf k x).waiters = e.waiters := rfl
@[simp] theorem Eng.setSchBuf_cnd (k : Nat) (x : SchBuf) : (e.setSchBuf k x).cnd = e.cnd := rfl
@[simp] theorem Eng.setSchBuf_heldBanks (k : Nat) (x : SchBuf) : (e.setSchBuf k x).heldBanks = e.heldBanks := rfl
@[simp] theorem Eng.setSchBuf_passed (k : Nat) (x : SchBuf) : (e.setSchBuf k x).passed = e.passed := rfl
@[simp] theorem Eng.setSchBuf_closing (k : Nat) (x : SchBuf) : (e.setSchBuf k x).closing = e.closing := rfl
@[simp] theorem Eng.setSchBuf_hide (k : Nat) (x : SchBuf) : (e.setSchBuf k x).hide = e.hide := rfl
@[simp] theorem Eng.setSchBuf_reeds (k : Nat) (x : SchBuf) : (e.setSchBuf k x).reeds = e.reeds := rfl
@[simp] theorem Eng.setSchBuf_links (k : Nat) (x : SchBuf) : (e.setSchBuf k x).links = e.links := rfl
@[simp] theorem Eng.setSchBuf_sw (k : Nat) (x : SchBuf) : (e.setSchBuf k x).sw = e.sw := rfl
@[simp] theorem Eng.setSchBuf_swSince (k : Nat) (x : SchBuf) : (e.setSchBuf k x).swSince = e.swSince := rfl
@[simp] theorem Eng.setSchBuf_keys (k : Nat) (x : SchBuf) : (e.setSchBuf k x).keys = e.keys := rfl
@[simp] theorem Eng.setSchBuf_pwr (k : Nat) (x : SchBuf) : (e.setSchBuf k x).pwr = e.pwr := rfl
@[simp] theorem Eng.setSchBuf_sys (k : Nat) (x : SchBuf) : (e.setSchBuf k x).sys = e.sys := rfl
@[simp] theorem Eng.setSchBuf_cells (k : Nat) (x : SchBuf) : (e.setSchBuf k x).cells = e.cells := rfl
@[simp] theorem Eng.setSchBuf_ecc (k : Nat) (x : SchBuf) : (e.setSchBuf k x).ecc = e.ecc := rfl
@[simp] theorem Eng.setSchBuf_freeCtr (k : Nat) (x : SchBuf) : (e.setSchBuf k x).freeCtr = e.freeCtr := rfl

@[simp] theorem Eng.placeNote_regs (ws : List Nat) (k : Nat) (rd wr : Bool) : (e.placeNote ws k rd wr).regs = e.regs := rfl
@[simp] theorem Eng.placeNote_ctrs (ws : List Nat) (k : Nat) (rd wr : Bool) : (e.placeNote ws k rd wr).ctrs = e.ctrs := rfl
@[simp] theorem Eng.placeNote_clk (ws : List Nat) (k : Nat) (rd wr : Bool) : (e.placeNote ws k rd wr).clk = e.clk := rfl
@[simp] theorem Eng.placeNote_tick (ws : List Nat) (k : Nat) (rd wr : Bool) : (e.placeNote ws k rd wr).tick = e.tick := rfl
@[simp] theorem Eng.placeNote_cwy (ws : List Nat) (k : Nat) (rd wr : Bool) : (e.placeNote ws k rd wr).cwy = e.cwy := rfl
@[simp] theorem Eng.placeNote_tmr (ws : List Nat) (k : Nat) (rd wr : Bool) : (e.placeNote ws k rd wr).tmr = e.tmr := rfl
@[simp] theorem Eng.placeNote_latch (ws : List Nat) (k : Nat) (rd wr : Bool) : (e.placeNote ws k rd wr).latch = e.latch := rfl
@[simp] theorem Eng.placeNote_rings (ws : List Nat) (k : Nat) (rd wr : Bool) : (e.placeNote ws k rd wr).rings = e.rings := rfl
@[simp] theorem Eng.placeNote_initq (ws : List Nat) (k : Nat) (rd wr : Bool) : (e.placeNote ws k rd wr).initq = e.initq := rfl
@[simp] theorem Eng.placeNote_matrix (ws : List Nat) (k : Nat) (rd wr : Bool) : (e.placeNote ws k rd wr).matrix = e.matrix := rfl
@[simp] theorem Eng.placeNote_thr (ws : List Nat) (k : Nat) (rd wr : Bool) : (e.placeNote ws k rd wr).thr = e.thr := rfl
@[simp] theorem Eng.placeNote_brl (ws : List Nat) (k : Nat) (rd wr : Bool) : (e.placeNote ws k rd wr).brl = e.brl := rfl
@[simp] theorem Eng.placeNote_locks (ws : List Nat) (k : Nat) (rd wr : Bool) : (e.placeNote ws k rd wr).locks = e.locks := rfl
@[simp] theorem Eng.placeNote_waiters (ws : List Nat) (k : Nat) (rd wr : Bool) : (e.placeNote ws k rd wr).waiters = e.waiters := rfl
@[simp] theorem Eng.placeNote_cnd (ws : List Nat) (k : Nat) (rd wr : Bool) : (e.placeNote ws k rd wr).cnd = e.cnd := rfl
@[simp] theorem Eng.placeNote_heldBanks (ws : List Nat) (k : Nat) (rd wr : Bool) : (e.placeNote ws k rd wr).heldBanks = e.heldBanks := rfl
@[simp] theorem Eng.placeNote_passed (ws : List Nat) (k : Nat) (rd wr : Bool) : (e.placeNote ws k rd wr).passed = e.passed := rfl
@[simp] theorem Eng.placeNote_closing (ws : List Nat) (k : Nat) (rd wr : Bool) : (e.placeNote ws k rd wr).closing = e.closing := rfl
@[simp] theorem Eng.placeNote_hide (ws : List Nat) (k : Nat) (rd wr : Bool) : (e.placeNote ws k rd wr).hide = e.hide := rfl
@[simp] theorem Eng.placeNote_reeds (ws : List Nat) (k : Nat) (rd wr : Bool) : (e.placeNote ws k rd wr).reeds = e.reeds := rfl
@[simp] theorem Eng.placeNote_links (ws : List Nat) (k : Nat) (rd wr : Bool) : (e.placeNote ws k rd wr).links = e.links := rfl
@[simp] theorem Eng.placeNote_sw (ws : List Nat) (k : Nat) (rd wr : Bool) : (e.placeNote ws k rd wr).sw = e.sw := rfl
@[simp] theorem Eng.placeNote_sch (ws : List Nat) (k : Nat) (rd wr : Bool) : (e.placeNote ws k rd wr).sch = e.sch := rfl
@[simp] theorem Eng.placeNote_swSince (ws : List Nat) (k : Nat) (rd wr : Bool) : (e.placeNote ws k rd wr).swSince = e.swSince := rfl
@[simp] theorem Eng.placeNote_keys (ws : List Nat) (k : Nat) (rd wr : Bool) : (e.placeNote ws k rd wr).keys = e.keys := rfl
@[simp] theorem Eng.placeNote_pwr (ws : List Nat) (k : Nat) (rd wr : Bool) : (e.placeNote ws k rd wr).pwr = e.pwr := rfl
@[simp] theorem Eng.placeNote_sys (ws : List Nat) (k : Nat) (rd wr : Bool) : (e.placeNote ws k rd wr).sys = e.sys := rfl
@[simp] theorem Eng.placeNote_cells (ws : List Nat) (k : Nat) (rd wr : Bool) : (e.placeNote ws k rd wr).cells = e.cells := rfl
@[simp] theorem Eng.placeNote_ecc (ws : List Nat) (k : Nat) (rd wr : Bool) : (e.placeNote ws k rd wr).ecc = e.ecc := rfl
@[simp] theorem Eng.placeNote_freeCtr (ws : List Nat) (k : Nat) (rd wr : Bool) : (e.placeNote ws k rd wr).freeCtr = e.freeCtr := rfl

@[simp] theorem Eng.modThr_regs (t : Nat) (g : Thr → Thr) : (e.modThr t g).regs = e.regs := rfl
@[simp] theorem Eng.modThr_ctrs (t : Nat) (g : Thr → Thr) : (e.modThr t g).ctrs = e.ctrs := rfl
@[simp] theorem Eng.modThr_recent (t : Nat) (g : Thr → Thr) : (e.modThr t g).recent = e.recent := rfl
@[simp] theorem Eng.modThr_clk (t : Nat) (g : Thr → Thr) : (e.modThr t g).clk = e.clk := rfl
@[simp] theorem Eng.modThr_tick (t : Nat) (g : Thr → Thr) : (e.modThr t g).tick = e.tick := rfl
@[simp] theorem Eng.modThr_cwy (t : Nat) (g : Thr → Thr) : (e.modThr t g).cwy = e.cwy := rfl
@[simp] theorem Eng.modThr_tmr (t : Nat) (g : Thr → Thr) : (e.modThr t g).tmr = e.tmr := rfl
@[simp] theorem Eng.modThr_latch (t : Nat) (g : Thr → Thr) : (e.modThr t g).latch = e.latch := rfl
@[simp] theorem Eng.modThr_rings (t : Nat) (g : Thr → Thr) : (e.modThr t g).rings = e.rings := rfl
@[simp] theorem Eng.modThr_initq (t : Nat) (g : Thr → Thr) : (e.modThr t g).initq = e.initq := rfl
@[simp] theorem Eng.modThr_matrix (t : Nat) (g : Thr → Thr) : (e.modThr t g).matrix = e.matrix := rfl
@[simp] theorem Eng.modThr_brl (t : Nat) (g : Thr → Thr) : (e.modThr t g).brl = e.brl := rfl
@[simp] theorem Eng.modThr_locks (t : Nat) (g : Thr → Thr) : (e.modThr t g).locks = e.locks := rfl
@[simp] theorem Eng.modThr_waiters (t : Nat) (g : Thr → Thr) : (e.modThr t g).waiters = e.waiters := rfl
@[simp] theorem Eng.modThr_cnd (t : Nat) (g : Thr → Thr) : (e.modThr t g).cnd = e.cnd := rfl
@[simp] theorem Eng.modThr_heldBanks (t : Nat) (g : Thr → Thr) : (e.modThr t g).heldBanks = e.heldBanks := rfl
@[simp] theorem Eng.modThr_passed (t : Nat) (g : Thr → Thr) : (e.modThr t g).passed = e.passed := rfl
@[simp] theorem Eng.modThr_closing (t : Nat) (g : Thr → Thr) : (e.modThr t g).closing = e.closing := rfl
@[simp] theorem Eng.modThr_hide (t : Nat) (g : Thr → Thr) : (e.modThr t g).hide = e.hide := rfl
@[simp] theorem Eng.modThr_reeds (t : Nat) (g : Thr → Thr) : (e.modThr t g).reeds = e.reeds := rfl
@[simp] theorem Eng.modThr_links (t : Nat) (g : Thr → Thr) : (e.modThr t g).links = e.links := rfl
@[simp] theorem Eng.modThr_sw (t : Nat) (g : Thr → Thr) : (e.modThr t g).sw = e.sw := rfl
@[simp] theorem Eng.modThr_sch (t : Nat) (g : Thr → Thr) : (e.modThr t g).sch = e.sch := rfl
@[simp] theorem Eng.modThr_swSince (t : Nat) (g : Thr → Thr) : (e.modThr t g).swSince = e.swSince := rfl
@[simp] theorem Eng.modThr_keys (t : Nat) (g : Thr → Thr) : (e.modThr t g).keys = e.keys := rfl
@[simp] theorem Eng.modThr_pwr (t : Nat) (g : Thr → Thr) : (e.modThr t g).pwr = e.pwr := rfl
@[simp] theorem Eng.modThr_sys (t : Nat) (g : Thr → Thr) : (e.modThr t g).sys = e.sys := rfl
@[simp] theorem Eng.modThr_cells (t : Nat) (g : Thr → Thr) : (e.modThr t g).cells = e.cells := rfl
@[simp] theorem Eng.modThr_ecc (t : Nat) (g : Thr → Thr) : (e.modThr t g).ecc = e.ecc := rfl
@[simp] theorem Eng.modThr_freeCtr (t : Nat) (g : Thr → Thr) : (e.modThr t g).freeCtr = e.freeCtr := rfl

@[simp] theorem Thr.setFlags_g (x : Thr) (y : FlagSet) : (x.setFlags y).g = x.g := rfl
@[simp] theorem Thr.setGreg_pc (x : Thr) (i v : Nat) : (x.setGreg i v).pc = x.pc := rfl
@[simp] theorem Thr.setFlags_pc (x : Thr) (y : FlagSet) : (x.setFlags y).pc = x.pc := rfl
@[simp] theorem Thr.setGreg_flags (x : Thr) (i v : Nat) : (x.setGreg i v).flags = x.flags := rfl
@[simp] theorem Thr.setGreg_ipc (x : Thr) (i v : Nat) : (x.setGreg i v).ipc = x.ipc := rfl
@[simp] theorem Thr.setFlags_ipc (x : Thr) (y : FlagSet) : (x.setFlags y).ipc = x.ipc := rfl
@[simp] theorem Thr.setGreg_iflags (x : Thr) (i v : Nat) : (x.setGreg i v).iflags = x.iflags := rfl
@[simp] theorem Thr.setFlags_iflags (x : Thr) (y : FlagSet) : (x.setFlags y).iflags = x.iflags := rfl
@[simp] theorem Thr.setGreg_emPc (x : Thr) (i v : Nat) : (x.setGreg i v).emPc = x.emPc := rfl
@[simp] theorem Thr.setFlags_emPc (x : Thr) (y : FlagSet) : (x.setFlags y).emPc = x.emPc := rfl
@[simp] theorem Thr.setGreg_emLen (x : Thr) (i v : Nat) : (x.setGreg i v).emLen = x.emLen := rfl
@[simp] theorem Thr.setFlags_emLen (x : Thr) (y : FlagSet) : (x.setFlags y).emLen = x.emLen := rfl
@[simp] theorem Thr.setGreg_emb (x : Thr) (i v : Nat) : (x.setGreg i v).emb = x.emb := rfl
@[simp] theorem Thr.setFlags_emb (x : Thr) (y : FlagSet) : (x.setFlags y).emb = x.emb := rfl
@[simp] theorem Thr.setGreg_st (x : Thr) (i v : Nat) : (x.setGreg i v).st = x.st := rfl
@[simp] theorem Thr.setFlags_st (x : Thr) (y : FlagSet) : (x.setFlags y).st = x.st := rfl
@[simp] theorem Thr.setGreg_prev (x : Thr) (i v : Nat) : (x.setGreg i v).prev = x.prev := rfl
@[simp] theorem Thr.setFlags_prev (x : Thr) (y : FlagSet) : (x.setFlags y).prev = x.prev := rfl
@[simp] theorem Thr.setGreg_wait (x : Thr) (i v : Nat) : (x.setGreg i v).wait = x.wait := rfl
@[simp] theorem Thr.setFlags_wait (x : Thr) (y : FlagSet) : (x.setFlags y).wait = x.wait := rfl
@[simp] theorem Thr.setGreg_waitNext (x : Thr) (i v : Nat) : (x.setGreg i v).waitNext = x.waitNext := rfl
@[simp] theorem Thr.setFlags_waitNext (x : Thr) (y : FlagSet) : (x.setFlags y).waitNext = x.waitNext := rfl
@[simp] theorem Thr.setGreg_waitBase (x : Thr) (i v : Nat) : (x.setGreg i v).waitBase = x.waitBase := rfl
@[simp] theorem Thr.setFlags_waitBase (x : Thr) (y : FlagSet) : (x.setFlags y).waitBase = x.waitBase := rfl
@[simp] theorem Thr.setGreg_ev (x : Thr) (i v : Nat) : (x.setGreg i v).ev = x.ev := rfl
@[simp] theorem Thr.setFlags_ev (x : Thr) (y : FlagSet) : (x.setFlags y).ev = x.ev := rfl
@[simp] theorem Thr.setGreg_irq (x : Thr) (i v : Nat) : (x.setGreg i v).irq = x.irq := rfl
@[simp] theorem Thr.setFlags_irq (x : Thr) (y : FlagSet) : (x.setFlags y).irq = x.irq := rfl
@[simp] theorem Thr.setGreg_atTarget (x : Thr) (i v : Nat) : (x.setGreg i v).atTarget = x.atTarget := rfl
@[simp] theorem Thr.setFlags_atTarget (x : Thr) (y : FlagSet) : (x.setFlags y).atTarget = x.atTarget := rfl
@[simp] theorem Thr.setGreg_atDone (x : Thr) (i v : Nat) : (x.setGreg i v).atDone = x.atDone := rfl
@[simp] theorem Thr.setFlags_atDone (x : Thr) (y : FlagSet) : (x.setFlags y).atDone = x.atDone := rfl
@[simp] theorem Thr.setGreg_seq (x : Thr) (i v : Nat) : (x.setGreg i v).seq = x.seq := rfl
@[simp] theorem Thr.setFlags_seq (x : Thr) (y : FlagSet) : (x.setFlags y).seq = x.seq := rfl
@[simp] theorem Thr.setGreg_mem (x : Thr) (i v : Nat) : (x.setGreg i v).mem = x.mem := rfl
@[simp] theorem Thr.setFlags_mem (x : Thr) (y : FlagSet) : (x.setFlags y).mem = x.mem := rfl
@[simp] theorem Thr.setGreg_hostWin (x : Thr) (i v : Nat) : (x.setGreg i v).hostWin = x.hostWin := rfl
@[simp] theorem Thr.setFlags_hostWin (x : Thr) (y : FlagSet) : (x.setFlags y).hostWin = x.hostWin := rfl
@[simp] theorem Thr.setGreg_borrow (x : Thr) (i v : Nat) : (x.setGreg i v).borrow = x.borrow := rfl
@[simp] theorem Thr.setFlags_borrow (x : Thr) (y : FlagSet) : (x.setFlags y).borrow = x.borrow := rfl
@[simp] theorem Thr.setGreg_holdReq (x : Thr) (i v : Nat) : (x.setGreg i v).holdReq = x.holdReq := rfl
@[simp] theorem Thr.setFlags_holdReq (x : Thr) (y : FlagSet) : (x.setFlags y).holdReq = x.holdReq := rfl
@[simp] theorem Thr.setGreg_haltReq (x : Thr) (i v : Nat) : (x.setGreg i v).haltReq = x.haltReq := rfl
@[simp] theorem Thr.setFlags_haltReq (x : Thr) (y : FlagSet) : (x.setFlags y).haltReq = x.haltReq := rfl
@[simp] theorem Thr.setGreg_step (x : Thr) (i v : Nat) : (x.setGreg i v).step = x.step := rfl
@[simp] theorem Thr.setFlags_step (x : Thr) (y : FlagSet) : (x.setFlags y).step = x.step := rfl
@[simp] theorem Thr.setGreg_noBreak (x : Thr) (i v : Nat) : (x.setGreg i v).noBreak = x.noBreak := rfl
@[simp] theorem Thr.setFlags_noBreak (x : Thr) (y : FlagSet) : (x.setFlags y).noBreak = x.noBreak := rfl
@[simp] theorem Thr.setGreg_wtkCyc (x : Thr) (i v : Nat) : (x.setGreg i v).wtkCyc = x.wtkCyc := rfl
@[simp] theorem Thr.setFlags_wtkCyc (x : Thr) (y : FlagSet) : (x.setFlags y).wtkCyc = x.wtkCyc := rfl
@[simp] theorem Thr.setGreg_relCyc (x : Thr) (i v : Nat) : (x.setGreg i v).relCyc = x.relCyc := rfl
@[simp] theorem Thr.setFlags_relCyc (x : Thr) (y : FlagSet) : (x.setFlags y).relCyc = x.relCyc := rfl
@[simp] theorem Thr.setGreg_atHit (x : Thr) (i v : Nat) : (x.setGreg i v).atHit = x.atHit := rfl
@[simp] theorem Thr.setFlags_atHit (x : Thr) (y : FlagSet) : (x.setFlags y).atHit = x.atHit := rfl
@[simp] theorem Thr.setGreg_atSlept (x : Thr) (i v : Nat) : (x.setGreg i v).atSlept = x.atSlept := rfl
@[simp] theorem Thr.setFlags_atSlept (x : Thr) (y : FlagSet) : (x.setFlags y).atSlept = x.atSlept := rfl
@[simp] theorem Thr.setGreg_entered (x : Thr) (i v : Nat) : (x.setGreg i v).entered = x.entered := rfl
@[simp] theorem Thr.setFlags_entered (x : Thr) (y : FlagSet) : (x.setFlags y).entered = x.entered := rfl
@[simp] theorem Thr.setGreg_mark (x : Thr) (i v : Nat) : (x.setGreg i v).mark = x.mark := rfl
@[simp] theorem Thr.setFlags_mark (x : Thr) (y : FlagSet) : (x.setFlags y).mark = x.mark := rfl
@[simp] theorem Thr.setGreg_held (x : Thr) (i v : Nat) : (x.setGreg i v).held = x.held := rfl
@[simp] theorem Thr.setFlags_held (x : Thr) (y : FlagSet) : (x.setFlags y).held = x.held := rfl
@[simp] theorem Thr.setGreg_issued (x : Thr) (i v : Nat) : (x.setGreg i v).issued = x.issued := rfl
@[simp] theorem Thr.setFlags_issued (x : Thr) (y : FlagSet) : (x.setFlags y).issued = x.issued := rfl
@[simp] theorem Thr.setGreg_ready (x : Thr) (i v : Nat) : (x.setGreg i v).ready = x.ready := rfl
@[simp] theorem Thr.setFlags_ready (x : Thr) (y : FlagSet) : (x.setFlags y).ready = x.ready := rfl
@[simp] theorem Thr.setGreg_atLock (x : Thr) (i v : Nat) : (x.setGreg i v).atLock = x.atLock := rfl
@[simp] theorem Thr.setFlags_atLock (x : Thr) (y : FlagSet) : (x.setFlags y).atLock = x.atLock := rfl

@[simp] theorem Block.withEng_eng (e : Eng) : (b.withEng e).eng = e := rfl
@[simp] theorem Block.withEng_mem (e : Eng) : (b.withEng e).mem = b.mem := rfl
@[simp] theorem Block.onEng_eng (f : Eng → Eng) : (b.onEng f).eng = f b.eng := rfl
@[simp] theorem Block.onEng_mem (f : Eng → Eng) : (b.onEng f).mem = b.mem := rfl
@[simp] theorem State.onBlock_eq (f : Block → Block) : s.onBlock f = .next { s with block := f s.block } := rfl
@[simp] theorem State.onEng_eq (f : Eng → Eng) : s.onEng f = .next { s with block := { s.block with eng := f s.block.eng } } := rfl

end Sys2Proof.Machine
end

