-- ==== Sys2Proof/Laws/Tab.lean ====
section
/-! SUPPORT. Sparse tables: a read after a write, writes at one index and at two, and the canonical form of a memory. -/

namespace Sys2Proof.Machine

variable {α : Type}

@[simp] theorem Tab.get_put_same (d : α) (m : Tab α) (i : Nat) (v : α) : Tab.get d (Tab.put m i v) i = v := by
  induction m with
  | nil => simp [Tab.put, Tab.get]
  | cons x t ih =>
    obtain ⟨j, w⟩ := x
    simp only [Tab.put]
    split
    · simp [Tab.get]
    · split
      · simp [Tab.get]
      · next h => simp [Tab.get, Ne.symm h, ih]

theorem Tab.get_put_ne (d : α) (m : Tab α) {i k : Nat} (v : α) (h : k ≠ i) : Tab.get d (Tab.put m i v) k = Tab.get d m k := by
  induction m with
  | nil => simp [Tab.put, Tab.get, Ne.symm h]
  | cons x t ih =>
    obtain ⟨j, w⟩ := x
    simp only [Tab.put]
    split
    · simp [Tab.get, Ne.symm h]
    · split
      · next hj => subst hj; simp [Tab.get, Ne.symm h]
      · simp [Tab.get, ih]

@[simp] theorem Tab.put_put (m : Tab α) (i : Nat) (v w : α) : Tab.put (Tab.put m i v) i w = Tab.put m i w := by
  induction m with
  | nil => simp [Tab.put]
  | cons x t ih =>
    obtain ⟨j, u⟩ := x
    by_cases h : i < j
    · simp [Tab.put, h]
    · by_cases h' : i = j
      · simp [Tab.put, h']
      · simp [Tab.put, h, h', ih]

theorem Tab.get_del_same (d : α) (m : Tab α) (i : Nat) : Tab.get d (Tab.del m i) i = d := by
  induction m with
  | nil => rfl
  | cons x t ih =>
    obtain ⟨j, w⟩ := x
    by_cases h : j = i
    · simp [Tab.del, h, ih]
    · simp [Tab.del, Tab.get, h, ih]

theorem Tab.get_del_ne (d : α) (m : Tab α) {i k : Nat} (h : k ≠ i) : Tab.get d (Tab.del m i) k = Tab.get d m k := by
  induction m with
  | nil => rfl
  | cons x t ih =>
    obtain ⟨j, w⟩ := x
    by_cases hj : j = i
    · subst hj; simp [Tab.del, Tab.get, Ne.symm h, ih]
    · simp [Tab.del, Tab.get, hj, ih]

variable [DecidableEq α]

@[simp] theorem Tab.get_write_same (d : α) (m : Tab α) (i : Nat) (v : α) : Tab.get d (Tab.write d m i v) i = v := by
  unfold Tab.write
  split
  · next h => rw [Tab.get_del_same, h]
  · exact Tab.get_put_same d m i v

theorem Tab.get_write_ne (d : α) (m : Tab α) {i k : Nat} (v : α) (h : k ≠ i) :
    Tab.get d (Tab.write d m i v) k = Tab.get d m k := by
  unfold Tab.write
  split
  · exact Tab.get_del_ne d m h
  · exact Tab.get_put_ne d m v h

/-! ### The canonical form -/

theorem Tab.wfFrom_mono (d : α) {a b : Nat} (m : Tab α) (hab : a ≤ b) (h : Tab.wfFrom d b m = true) : Tab.wfFrom d a m = true := by
  cases m with
  | nil => rfl
  | cons x t =>
    obtain ⟨j, v⟩ := x
    simp only [Tab.wfFrom, Bool.and_eq_true, decide_eq_true_eq] at h ⊢
    exact ⟨⟨by omega, h.1.2⟩, h.2⟩

theorem Tab.wfFrom_put (d : α) (m : Tab α) {lo i : Nat} {v : α} (hi : lo ≤ i) (hv : v ≠ d) (h : Tab.wfFrom d lo m = true) :
    Tab.wfFrom d lo (Tab.put m i v) = true := by
  induction m generalizing lo with
  | nil => simp [Tab.put, Tab.wfFrom, hi, hv]
  | cons x t ih =>
    obtain ⟨j, w⟩ := x
    simp only [Tab.wfFrom, Bool.and_eq_true, decide_eq_true_eq] at h
    simp only [Tab.put]
    split
    · simp only [Tab.wfFrom, Bool.and_eq_true, decide_eq_true_eq]
      exact ⟨⟨hi, hv⟩, ⟨by omega, h.1.2⟩, h.2⟩
    · split
      · next hj => subst hj; simp only [Tab.wfFrom, Bool.and_eq_true, decide_eq_true_eq]; exact ⟨⟨hi, hv⟩, h.2⟩
      · simp only [Tab.wfFrom, Bool.and_eq_true, decide_eq_true_eq]
        exact ⟨h.1, ih (by omega) h.2⟩

theorem Tab.wfFrom_del (d : α) (m : Tab α) {lo i : Nat} (h : Tab.wfFrom d lo m = true) : Tab.wfFrom d lo (Tab.del m i) = true := by
  induction m generalizing lo with
  | nil => rfl
  | cons x t ih =>
    obtain ⟨j, w⟩ := x
    simp only [Tab.wfFrom, Bool.and_eq_true, decide_eq_true_eq] at h
    simp only [Tab.del]
    split
    · exact ih (Tab.wfFrom_mono d t (by omega) h.2)
    · simp only [Tab.wfFrom, Bool.and_eq_true, decide_eq_true_eq]
      exact ⟨h.1, ih h.2⟩

/-- A write keeps the canonical form. -/
theorem Tab.wf_write (d : α) (m : Tab α) (i : Nat) (v : α) (h : Tab.wf d m = true) : Tab.wf d (Tab.write d m i v) = true := by
  unfold Tab.write Tab.wf at *
  split
  · exact Tab.wfFrom_del d m h
  · next hv => exact Tab.wfFrom_put d m (Nat.zero_le i) hv h

end Sys2Proof.Machine
end

