-- ==== Sys2Proof/Laws/Ops.lean ====
section
/-! SUPPORT. The shared operations: reads after writes of registers and unit records, a legal register write as a command, the issue of
an instruction that nothing disturbs. -/

namespace Sys2Proof.Machine

variable (e : Eng) (b : Block) (s : State)

/-! ### Reads after writes -/

@[simp] theorem Eng.reg_setReg (r : Reg) (i : Nat) (v : Word) : (e.setReg r i v).reg r i = v := Tab.get_put_same _ _ _ _

theorem Eng.reg_setReg_ne {r q : Reg} {i j : Nat} (v : Word) (h : q.key j ≠ r.key i) : (e.setReg r i v).reg q j = e.reg q j :=
  Tab.get_put_ne _ _ _ h

@[simp] theorem Eng.getThr_setThr (t : Nat) (x : Thr) : (e.setThr t x).getThr t = x := Tab.get_put_same _ _ _ _
theorem Eng.getThr_setThr_ne {t u : Nat} (x : Thr) (h : u ≠ t) : (e.setThr t x).getThr u = e.getThr u := Tab.get_put_ne _ _ _ h
@[simp] theorem Eng.setThr_setThr (t : Nat) (x y : Thr) : (e.setThr t x).setThr t y = e.setThr t y := by simp [Eng.setThr]
@[simp] theorem Eng.getThr_setReg (r : Reg) (i : Nat) (v : Word) (t : Nat) : (e.setReg r i v).getThr t = e.getThr t := rfl
@[simp] theorem Eng.getThr_setFld (f : Fld) (i n t : Nat) : (e.setFld f i n).getThr t = e.getThr t := rfl
@[simp] theorem Eng.getThr_bump (f : Fld) (i n t : Nat) : (e.bump f i n).getThr t = e.getThr t := rfl
@[simp] theorem Eng.getThr_bumpReg (r : Reg) (i n t : Nat) : (e.bumpReg r i n).getThr t = e.getThr t := rfl
@[simp] theorem Eng.reg_setThr (t : Nat) (x : Thr) (r : Reg) (i : Nat) : (e.setThr t x).reg r i = e.reg r i := rfl
@[simp] theorem Eng.fld_setThr (t : Nat) (x : Thr) (f : Fld) (i : Nat) : (e.setThr t x).fld f i = e.fld f i := rfl
@[simp] theorem Eng.flag_setThr (t : Nat) (x : Thr) (f : Fld) (i : Nat) : (e.setThr t x).flag f i = e.flag f i := rfl
@[simp] theorem Eng.getBrl_setBrl (p : Nat) (x : Barrel) : (e.setBrl p x).getBrl p = x := Tab.get_put_same _ _ _ _
theorem Eng.getBrl_setBrl_ne {p q : Nat} (x : Barrel) (h : q ≠ p) : (e.setBrl p x).getBrl q = e.getBrl q := Tab.get_put_ne _ _ _ h
@[simp] theorem Eng.getTmr_setTmr (u : Nat) (x : Timer) : (e.setTmr u x).getTmr u = x := Tab.get_put_same _ _ _ _
theorem Eng.getTmr_setTmr_ne {u w : Nat} (x : Timer) (h : w ≠ u) : (e.setTmr u x).getTmr w = e.getTmr w := Tab.get_put_ne _ _ _ h
@[simp] theorem Eng.getRing_setRing (r : Nat) (x : Ring) : (e.setRing r x).getRing r = x := Tab.get_put_same _ _ _ _
theorem Eng.getRing_setRing_ne {r q : Nat} (x : Ring) (h : q ≠ r) : (e.setRing r x).getRing q = e.getRing q := Tab.get_put_ne _ _ _ h
@[simp] theorem Eng.getCnd_setCnd (c : Nat) (x : Conduit) : (e.setCnd c x).getCnd c = x := Tab.get_put_same _ _ _ _
theorem Eng.getCnd_setCnd_ne {c d : Nat} (x : Conduit) (h : d ≠ c) : (e.setCnd c x).getCnd d = e.getCnd d := Tab.get_put_ne _ _ _ h
@[simp] theorem Eng.ctr_setCtr (k u i v : Nat) : (e.setCtr k u i v).ctr k u i = v := Tab.get_put_same _ _ _ _

/-- Two changes of one thread are one. -/
theorem Eng.modThr_modThr (t : Nat) (f g : Thr → Thr) : (e.modThr t f).modThr t g = e.modThr t (fun x => g (f x)) := by
  simp [Eng.modThr]

@[simp] theorem Eng.getThr_modThr (t : Nat) (f : Thr → Thr) : (e.modThr t f).getThr t = f (e.getThr t) := by simp [Eng.modThr]

theorem Eng.getThr_modThr_ne {t u : Nat} (f : Thr → Thr) (h : u ≠ t) : (e.modThr t f).getThr u = e.getThr u :=
  Eng.getThr_setThr_ne e _ h

/-! ### Register accesses as commands -/

/-- What a legal write of a register does: the effect of its word, answered DONE, or the failure of the action it starts. -/
theorem Block.regWrite_legal (who : Acc) (r : Reg) (i a v : Nat) (hf : who.find a = some (r, i)) (hc : b.eng.writeCode who r i v = 0)
    (hk : (b.writeWord who r i v).1 = 0) :
    b.regWrite who a v = b.withEng ((b.writeWord who r i v).2.answer who 0 0) := by
  simp [Block.regWrite, Block.devWrite, Block.settleAns, Block.withEng, hf, hc, hk]

/-- A write that fails its checks changes nothing but what records the failure. -/
theorem Block.regWrite_illegal (who : Acc) (r : Reg) (i a v : Nat) (hf : who.find a = some (r, i)) (hc : b.eng.writeCode who r i v ≠ 0) :
    b.regWrite who a v = b.settleAns who a (.fault (b.eng.writeCode who r i v) b.eng) := by
  simp [Block.regWrite, Block.devWrite, hf, hc]

/-- What a legal read of a register does: the value answered and the side effect of the read. -/
theorem Block.regRead_legal (who : Acc) (r : Reg) (i a : Nat) (hf : who.find a = some (r, i)) (hc : b.eng.readCode who r i = 0) :
    b.regRead who a = b.withEng ((b.eng.readWord who r i).2.answer who 0 (b.eng.readWord who r i).1) := by
  simp [Block.regRead, Block.devRead, Block.settleAns, Block.withEng, hf, hc]

/-- A register action that starts. -/
theorem State.action_starts (who : Acc) (r : Reg) (i : Nat) (v : Word) (st : Nat → Bool) (hw : who ≠ .thread 0) (hs : st v.toNat = true) :
    s.action who r i v st = .next { s with block := s.block.regWrite who (r.addr i) v.toNat } := by
  simp [State.action, State.onAcc, hw, hs]

/-- A register action whose word does not start it. -/
theorem State.action_idle (who : Acc) (r : Reg) (i : Nat) (v : Word) (st : Nat → Bool) (hw : who ≠ .thread 0) (hs : st v.toNat = false) :
    s.action who r i v st = .next s := by
  simp [State.action, State.onAcc, hw, hs]

/-! ### Instructions of a thread -/

/-- With no delivery due, there is nothing to make before an issue (R369). -/
theorem Eng.deliverDue_eq (h : e.chansDue = []) : e.deliverDue = e := by simp [Eng.deliverDue, h, foldS]

/-- An instruction that writes only registers of its thread. -/
theorem Ctx.regs_eq (c : Ctx) (f : Thr → Thr) (h : c.fed = false) :
    c.regs f b = b.onEng (fun e => e.modThr c.t (fun x => (f { x with pc := word c.next }).completeAt (e.now + 8 + c.ld))) := by
  simp [Ctx.regs, Block.onEng, h]

theorem State.insn_eq (t : Tid) (p : List Prefix) (o : Op) (h : t ≠ 0) :
    s.insn t p o = .next { s with block := (s.block.onEng Eng.deliverDue).issue t.val p o.rules o.ok o.run } := by
  simp [State.insn, h]

end Sys2Proof.Machine
end

