-- ==== Sys2Proof/Laws/Fields.lean ====
section
/-! SUPPORT. Register fields: reading a field back after a field write, and what the write leaves alone. -/

namespace Sys2Proof.Machine
theorem Reg.ctorIdx_inj {r q : Reg} (h : r.ctorIdx = q.ctorIdx) : r = q := by
  rw [← Reg.ofNat_ctorIdx r, h, Reg.ofNat_ctorIdx]

theorem Reg.key_inj {r q : Reg} {i j : Nat} (hi : i < 1024) (hj : j < 1024) (h : r.key i = q.key j) : r = q ∧ i = j := by
  unfold Reg.key at h
  have hk : r.ctorIdx = q.ctorIdx := by omega
  exact ⟨Reg.ctorIdx_inj hk, by omega⟩

theorem setBits_eq (n hi lo v : Nat) : setBits n hi lo v =
    n % 2 ^ lo + 2 ^ lo * (v % 2 ^ (hi + 1 - lo) + 2 ^ (hi + 1 - lo) * (n / 2 ^ lo / 2 ^ (hi + 1 - lo))) := by
  unfold setBits bits
  simp only [Nat.shiftRight_eq_div_pow, Nat.shiftLeft_eq]
  generalize hw : 2 ^ (hi + 1 - lo) = W
  generalize hp : 2 ^ lo = P
  have h1 := Nat.mod_add_div n P
  have h2 := Nat.mod_add_div (n / P) W
  have h3 : n = n % P + P * (n / P % W) + P * (W * (n / P / W)) := by
    rw [Nat.add_assoc, ← Nat.mul_add, h2, h1]
  have h4 : n - n / P % W * P = n % P + P * (W * (n / P / W)) := by
    have : n / P % W * P = P * (n / P % W) := Nat.mul_comm _ _
    omega
  rw [h4, Nat.mul_add, Nat.mul_comm P (v % W)]
  omega

theorem bits_setBits (n hi lo v : Nat) : bits (setBits n hi lo v) hi lo = v % 2 ^ (hi + 1 - lo) := by
  rw [setBits_eq]
  unfold bits
  rw [Nat.shiftRight_eq_div_pow, Nat.add_mul_div_left _ _ (Nat.two_pow_pos lo), Nat.div_eq_of_lt (Nat.mod_lt _ (Nat.two_pow_pos lo)),
    Nat.zero_add, Nat.add_mul_mod_self_left, Nat.mod_mod]

theorem testBit_bits (n hi lo k : Nat) : (bits n hi lo).testBit k = (decide (k < hi + 1 - lo) && n.testBit (lo + k)) := by
  unfold bits
  rw [Nat.testBit_mod_two_pow, Nat.testBit_shiftRight]

theorem testBit_setBits (n hi lo v k : Nat) :
    (setBits n hi lo v).testBit k = if k < lo then n.testBit k else if k < lo + (hi + 1 - lo) then v.testBit (k - lo) else n.testBit k := by
  rw [setBits_eq, Nat.add_comm, Nat.testBit_two_pow_mul_add _ (Nat.mod_lt _ (Nat.two_pow_pos lo)), Nat.add_comm (v % _),
    Nat.testBit_two_pow_mul_add _ (Nat.mod_lt _ (Nat.two_pow_pos _))]
  split
  · simp [Nat.testBit_mod_two_pow, *]
  · split
    · have : k < lo + (hi + 1 - lo) := by omega
      simp [Nat.testBit_mod_two_pow, *]
    · have h : ¬ k < lo + (hi + 1 - lo) := by omega
      simp only [h, if_false, Nat.testBit_div_two_pow]
      congr 1; omega

theorem bits_setBits_ne (n hi lo v a b : Nat) (h : hi < b ∨ a < lo) : bits (setBits n hi lo v) a b = bits n a b := by
  apply Nat.eq_of_testBit_eq
  intro k
  rw [testBit_bits, testBit_bits, testBit_setBits]
  by_cases hk : k < a + 1 - b
  · have : (b + k < lo) ∨ (¬ b + k < lo ∧ ¬ b + k < lo + (hi + 1 - lo)) := by omega
    rcases this with h1 | ⟨h1, h2⟩ <;> simp [*]
  · simp [hk]

theorem setBits_lt (n hi lo v : Nat) (hn : n < 2 ^ 20) (hh : hi < 20) : setBits n hi lo v < 2 ^ 20 := by
  apply Nat.lt_pow_two_of_testBit
  intro k hk
  rw [testBit_setBits]
  have h : n.testBit k = false := Nat.testBit_lt_two_pow (Nat.lt_of_lt_of_le hn (Nat.pow_le_pow_right (by omega) hk))
  split
  · exact h
  · split
    · omega
    · exact h

variable (e : Eng)
theorem Eng.val_lt (r : Reg) (i : Nat) : e.val r i < 2 ^ 20 := (e.reg r i).isLt

theorem Eng.val_setFld (f : Fld) (i n : Nat) (h : f.hi < 20) : (e.setFld f i n).val f.reg i = setBits (e.val f.reg i) f.hi f.lo n := by
  unfold Eng.setFld
  rw [Eng.val, Eng.reg, Eng.setReg, Tab.get_put_same]
  exact Nat.mod_eq_of_lt (setBits_lt _ _ _ _ (e.val_lt _ _) h)

theorem Eng.fld_setFld (f : Fld) (i n : Nat) (h : f.hi < 20) : (e.setFld f i n).fld f i = n % 2 ^ (f.hi + 1 - f.lo) := by
  rw [Eng.fld, Eng.val_setFld e f i n h, bits_setBits]

theorem Eng.fld_setFld_ne (f g : Fld) (i n : Nat) (h : f.hi < 20) (hr : g.reg = f.reg) (hd : f.hi < g.lo ∨ g.hi < f.lo) :
    (e.setFld f i n).fld g i = e.fld g i := by
  rw [Eng.fld, Eng.fld, hr, Eng.val_setFld e f i n h, bits_setBits_ne _ _ _ _ _ _ hd]

theorem Eng.reg_setFld_ne (f : Fld) (q : Reg) (i j n : Nat) (h : q.key j ≠ f.reg.key i) : (e.setFld f i n).reg q j = e.reg q j :=
  Tab.get_put_ne _ _ _ h

theorem Eng.fld_setFld_far (f g : Fld) (i j n : Nat) (h : g.reg.key j ≠ f.reg.key i) : (e.setFld f i n).fld g j = e.fld g j := by
  simp only [Eng.fld, Eng.val, Eng.reg_setFld_ne e f g.reg i j n h]

theorem Eng.flag_setFld (f : Fld) (i n : Nat) (h : f.hi < 20) : (e.setFld f i n).flag f i = decide (n % 2 ^ (f.hi + 1 - f.lo) ≠ 0) := by
  rw [Eng.flag, Eng.fld_setFld e f i n h]
end Sys2Proof.Machine
end

