-- ==== Sys2Proof/Laws/Issue.lean ====
section
/-! SUPPORT. The issue of an instruction that nothing disturbs: what it leaves, for every instruction, for those that write registers
of their thread alone, and for an annulled one. -/

namespace Sys2Proof.Machine

open Sys2Proof.Safety

variable (b : Block) (s : State)

theorem foldS_id {α σ : Type} (f : α → σ → σ) (l : List α) (a : σ) (h : ∀ x ∈ l, f x a = a) : foldS f l a = a := by
  unfold foldS
  induction l with
  | nil => rfl
  | cons x t ih =>
    simp only [List.foldl_cons]
    rw [h x (by simp)]
    exact ih (fun y hy => h y (by simp [hy]))

theorem Eng.codeEcc_clean (e : Eng) (p pc len : Nat) (h : codeClean e p pc len = true) : e.codeEcc p pc len = (false, e) := by
  unfold Eng.codeEcc
  apply foldS_id
  intro k hk
  rw [List.mem_eraseDups, List.mem_filterMap] at hk
  obtain ⟨i, hi, he⟩ := hk
  unfold codeClean at h
  rw [List.all_eq_true] at h
  have hx := h i hi
  cases hc : codeKey p (pc + i) with
  | none => rw [hc] at he; simp at he
  | some c =>
    rw [hc] at he hx
    simp at he hx
    simp [Eng.eccRead, ← he, hx]

theorem Eng.breakMatch_none (e : Eng) (t pc : Nat) (h : noBreakAt e t pc = true) : e.breakMatch t pc = (none, e) := by
  unfold noBreakAt at h
  simp only [List.all_cons, List.all_nil, Bool.and_true, Bool.and_eq_true, Bool.not_eq_true'] at h
  obtain ⟨h0, h1, h2, h3, h4, h5, h6, h7⟩ := h
  simp only [Eng.breakMatch, Eng.compMatch, List.foldl_cons, List.foldl_nil, h0, h1, h2, h3, h4, h5, h6, h7, Bool.false_eq_true, if_false]

@[simp] theorem Eng.countSpare_ecc (e : Eng) (t : Nat) : (e.countSpare t).ecc = e.ecc := by unfold Eng.countSpare; split <;> rfl
@[simp] theorem Eng.countSpare_clk (e : Eng) (t : Nat) : (e.countSpare t).clk = e.clk := by unfold Eng.countSpare; split <;> rfl
@[simp] theorem Eng.countSpare_thr (e : Eng) (t : Nat) : (e.countSpare t).thr = e.thr := by unfold Eng.countSpare; split <;> rfl
@[simp] theorem Eng.countSpare_getThr (e : Eng) (t u : Nat) : (e.countSpare t).getThr u = e.getThr u := by simp [Eng.getThr]

@[simp] theorem Eng.getThr_post (e : Eng) (f : Fld) (i t : Nat) : (e.post f i).getThr t = e.getThr t := rfl

/-- A change of the thread that keeps its mark of an interrupt entry does not matter to the count of spare issues (R243). -/
theorem Eng.countSpare_modThr (e : Eng) (t : Nat) (f : Thr → Thr) (h : (f (e.getThr t)).entered = (e.getThr t).entered) :
    (e.modThr t f).countSpare t = (e.countSpare t).modThr t f := by
  have hl : (e.modThr t f).entryLane t = e.entryLane t := rfl
  simp only [Eng.countSpare, hl, Eng.getThr_modThr, h]
  split <;> rfl

/-- Changes of a thread and of a register field commute. -/
theorem Eng.modThr_setFld (e : Eng) (t : Nat) (f : Thr → Thr) (g : Fld) (i n : Nat) :
    (e.modThr t f).setFld g i n = (e.setFld g i n).modThr t f := rfl

theorem Eng.modThr_post (e : Eng) (t : Nat) (f : Thr → Thr) (g : Fld) (i : Nat) :
    (e.modThr t f).post g i = (e.post g i).modThr t f := rfl

theorem Eng.modThr_bump (e : Eng) (t : Nat) (f : Thr → Thr) (g : Fld) (i n : Nat) :
    (e.modThr t f).bump g i n = (e.bump g i n).modThr t f := rfl

theorem pfx_bad (r : Rules) (p : Pfx) (h : r.pfxOk p = true) : p.bad = none := by
  unfold Rules.pfxOk at h
  simp only [Bool.and_eq_true] at h
  simpa using h.1.1.1.1.1.1.1.1

/-- An undisturbed instruction whose condition holds executes in the state its issue leaves. -/
theorem Block.issue_runs (t : Nat) (ps : List Prefix) (r : Rules) (ok : Nat → Bool) (ex : Ctx → Block → Block)
    (h : canRun b.eng t ps r (ok (widthOf ps)) = true) (hn : notAnnulled b.eng t (parsePfx ps) = true) :
    b.issue t ps r ok ex =
      (ex ⟨t, widthOf ps, nextPc b.eng t ps r.len, (b.eng.getThr t).pc.toNat, (parsePfx ps).lock, false, 0⟩
        (b.withEng (issued b.eng t ps))).onEng (fun e => e.stepEnd t) := by
  simp only [canRun, undisturbed, Bool.and_eq_true, Bool.not_eq_true'] at h
  obtain ⟨⟨⟨⟨⟨⟨⟨⟨⟨⟨⟨-, hc⟩, hh⟩, hr⟩, hs⟩, hi⟩, hb⟩, hcode⟩, hecc⟩, hp⟩, hok⟩, ht⟩ := h
  have hbad := pfx_bad r _ hp
  have hecc' : ∀ e' : Eng, e'.ecc = b.eng.ecc → codeClean e' (pavOf t) (b.eng.getThr t).pc.toNat ((parsePfx ps).len + r.len) = true := by
    intro e' he; simpa [codeClean, he] using hecc
  have hbm : (if (b.eng.getThr t).noBreak = true ∨ (b.eng.getThr t).atDone = true then ((none, b.eng) : Option (Nat × Nat) × Eng)
      else b.eng.breakMatch t (b.eng.getThr t).pc.toNat) = (none, b.eng) := by
    split
    · rfl
    · next hx =>
      apply Eng.breakMatch_none
      simp only [not_or, Bool.not_eq_true] at hx
      simpa [hx.1, hx.2] using hb
  have hr' : (b.eng.getThr t).haltReq = none := by simpa using hr
  unfold widthOf at hok
  simp only [Block.issue, hbm, hbad, hp, hok, hc, hh, hr', hi, hcode, Bool.and_true, Bool.not_true, Bool.false_eq_true, if_false,
    Option.isSome_none, false_or, false_and]
  rw [Eng.codeEcc_clean _ _ _ _ (by apply hecc'; split <;> simp)]
  have hns : ∀ f, (b.eng.modThr t f).ns = b.eng.ns := fun _ => rfl
  unfold timeCome at ht
  unfold notAnnulled at hn
  rcases hatp : (parsePfx ps).atp with _ | a <;> rcases hpred : (parsePfx ps).pred with _ | c <;>
    rcases hl : (parsePfx ps).lock with _ | _ <;> rcases hd : (b.eng.getThr t).atDone with _ | _ <;>
    simp only [hatp, hpred, hd, Bool.false_or, Bool.true_or] at ht hn <;>
    simp only [issued, widthOf, nextPc, Block.withEng, Eng.takeIssue, Eng.atLate, Eng.countSpare_modThr, Eng.modThr_post, Eng.modThr_bump, Eng.modThr_modThr, hns, hatp, hl, hd, ht, hn, Option.isSome_none,
      Option.isSome_some, Bool.false_eq_true, Bool.not_true, Bool.not_false, false_and, and_false, and_true, and_self,
      if_true, if_false, Bool.and_true, Bool.and_false] <;>
    rfl

/-- A thread that is not stepped ends its issue with nothing more. -/
theorem Eng.stepEnd_eq (e : Eng) (t : Nat) (h : (e.getThr t).step = false) : e.stepEnd t = e := by simp [Eng.stepEnd, h]

theorem issued_step (e : Eng) (t : Nat) (ps : List Prefix) : ((issued e t ps).getThr t).step = (e.getThr t).step := by
  simp only [issued, Eng.getThr_modThr]
  split <;> simp

theorem issued_clk (e : Eng) (t : Nat) (ps : List Prefix) : (issued e t ps).clk = e.clk := by
  simp only [issued, Eng.modThr_clk]
  split <;> simp

/-- An undisturbed instruction that writes registers of its thread alone: the thread at the next instruction, with what `f` writes. -/
theorem Block.issue_regs (t : Nat) (ps : List Prefix) (r : Rules) (ok : Nat → Bool) (f : Ctx → Thr → Thr)
    (hf : ∀ c x, (f c x).step = x.step)
    (h : canRun b.eng t ps r (ok (widthOf ps)) = true) (hn : notAnnulled b.eng t (parsePfx ps) = true) :
    b.issue t ps r ok (fun c => c.regs (f c)) =
      b.withEng ((issued b.eng t ps).modThr t (fun x =>
        f ⟨t, widthOf ps, nextPc b.eng t ps r.len, (b.eng.getThr t).pc.toNat, (parsePfx ps).lock, false, 0⟩
          { x with pc := word (nextPc b.eng t ps r.len) } |>.completeAt (b.eng.clk.cycle + 8))) := by
  have hs : (b.eng.getThr t).step = false := by
    simp only [canRun, undisturbed, Bool.and_eq_true, Bool.not_eq_true'] at h
    exact h.1.1.1.1.1.1.1.2
  rw [Block.issue_runs b t ps r ok _ h hn, Ctx.regs_eq _ _ _ rfl]
  simp only [Block.onEng, Block.withEng, Eng.now, issued_clk]
  rw [Eng.stepEnd_eq, Nat.add_zero]
  · simp [hf, issued_step, hs, Thr.completeAt]

end Sys2Proof.Machine
end

