-- ==== Sys2Proof/Laws/Mem.lean ====
section
/-! SUPPORT. Memory operations: each keeps the canonical form of every memory, and writes its own word or byte alone. -/

namespace Sys2Proof.Machine

variable (m : Mem)

theorem Mem.wf_setData (k v : Nat) (h : m.wf = true) : (m.setData k v).wf = true := by
  simp only [Mem.wf, Bool.and_eq_true, Mem.setData] at h ⊢
  exact ⟨⟨⟨h.1.1.1, Tab.wf_write _ _ _ _ h.1.1.2⟩, h.1.2⟩, h.2⟩

theorem Mem.wf_setBasin (k : Nat) (v : Byte) (h : m.wf = true) : (m.setBasin k v).wf = true := by
  simp only [Mem.wf, Bool.and_eq_true, Mem.setBasin] at h ⊢
  exact ⟨⟨⟨Tab.wf_write _ _ _ _ h.1.1.1, h.1.1.2⟩, h.1.2⟩, h.2⟩

theorem Mem.wf_setCode (k : Nat) (v : Byte) (h : m.wf = true) : (m.setCode k v).wf = true := by
  simp only [Mem.wf, Bool.and_eq_true, Mem.setCode] at h ⊢
  exact ⟨⟨h.1.1, Tab.wf_write _ _ _ _ h.1.2⟩, h.2⟩

theorem Mem.wf_setLedger (k v : Nat) (h : m.wf = true) : (m.setLedger k v).wf = true := by
  simp only [Mem.wf, Bool.and_eq_true, Mem.setLedger] at h ⊢
  exact ⟨h.1, Tab.wf_write _ _ _ _ h.2⟩

theorem Mem.wf_setBasinBytes (l : List Byte) (k : Nat) (h : m.wf = true) : (m.setBasinBytes k l).wf = true := by
  induction l generalizing m k with
  | nil => exact h
  | cons v t ih => exact ih (m.setBasin k v) (k + 1) (Mem.wf_setBasin m k v h)

theorem Mem.wf_setCodeBytes (l : List Byte) (k : Nat) (h : m.wf = true) : (m.setCodeBytes k l).wf = true := by
  induction l generalizing m k with
  | nil => exact h
  | cons v t ih => exact ih (m.setCode k v) (k + 1) (Mem.wf_setCode m k v h)

theorem Mem.wf_setDataWords (l : List Nat) (k : Nat) (h : m.wf = true) : (m.setDataWords k l).wf = true := by
  induction l generalizing m k with
  | nil => exact h
  | cons v t ih => exact ih (m.setData k v) (k + 1) (Mem.wf_setData m k v h)

theorem Mem.wf_setLedgerWords (l : List Nat) (k : Nat) (h : m.wf = true) : (m.setLedgerWords k l).wf = true := by
  induction l generalizing m k with
  | nil => exact h
  | cons v t ih => exact ih (m.setLedger k v) (k + 1) (Mem.wf_setLedger m k v h)

theorem Mem.wf_cleared (h : m.wf = true) : m.cleared.wf = true := by
  simp only [Mem.wf, Bool.and_eq_true] at h
  simp only [Mem.wf, Mem.cleared, Bool.and_eq_true]
  exact ⟨⟨⟨rfl, rfl⟩, rfl⟩, h.2⟩

theorem Mem.wf_loadSect (x : Sect) (h : m.wf = true) : (m.loadSect x).wf = true := by
  unfold Mem.loadSect
  split
  · exact Mem.wf_setCodeBytes m _ _ h
  · exact Mem.wf_setCodeBytes m _ _ h
  · exact Mem.wf_setDataWords m _ _ h
  · exact Mem.wf_setDataWords m _ _ h
  · exact h

/-- A fold of operations that keep the form keeps it. -/
theorem Mem.wf_foldl {β : Type} (f : Mem → β → Mem) (hf : ∀ m x, m.wf = true → (f m x).wf = true) (l : List β) (h : m.wf = true) :
    (l.foldl f m).wf = true := by
  induction l generalizing m with
  | nil => exact h
  | cons x t ih => exact ih (f m x) (hf m x h)

theorem Mem.wf_loadImage (l : List Sect) (h : m.wf = true) : (m.loadImage l).wf = true := by
  apply Mem.wf_foldl _ _ (fun m x => Mem.wf_loadSect m x)
  simp only [Mem.wf, Bool.and_eq_true] at h
  simp only [Mem.wf, Bool.and_eq_true]
  exact ⟨⟨⟨h.1.1.1, rfl⟩, rfl⟩, h.2⟩

/-! ### What a write changes -/

@[simp] theorem Mem.setData_basin (k v : Nat) : (m.setData k v).basin = m.basin := rfl
@[simp] theorem Mem.setData_code (k v : Nat) : (m.setData k v).code = m.code := rfl
@[simp] theorem Mem.setData_ledger (k v : Nat) : (m.setData k v).ledger = m.ledger := rfl
@[simp] theorem Mem.setBasin_data (k : Nat) (v : Byte) : (m.setBasin k v).data = m.data := rfl
@[simp] theorem Mem.setBasin_code (k : Nat) (v : Byte) : (m.setBasin k v).code = m.code := rfl
@[simp] theorem Mem.setBasin_ledger (k : Nat) (v : Byte) : (m.setBasin k v).ledger = m.ledger := rfl
@[simp] theorem Mem.setCode_data (k : Nat) (v : Byte) : (m.setCode k v).data = m.data := rfl
@[simp] theorem Mem.setCode_basin (k : Nat) (v : Byte) : (m.setCode k v).basin = m.basin := rfl
@[simp] theorem Mem.setCode_ledger (k : Nat) (v : Byte) : (m.setCode k v).ledger = m.ledger := rfl
@[simp] theorem Mem.setLedger_data (k v : Nat) : (m.setLedger k v).data = m.data := rfl
@[simp] theorem Mem.setLedger_basin (k v : Nat) : (m.setLedger k v).basin = m.basin := rfl
@[simp] theorem Mem.setLedger_code (k v : Nat) : (m.setLedger k v).code = m.code := rfl

/-- The word written reads back; every other data word reads as before. -/
theorem Mem.get_setData (k v a : Nat) :
    Tab.get 0 (m.setData k v).data a = if a = k then BitVec.ofNat 20 v else Tab.get 0 m.data a := by
  unfold Mem.setData
  split
  · next h => subst h; exact Tab.get_write_same 0 m.data a _
  · next h => exact Tab.get_write_ne 0 m.data _ h

/-- The byte written reads back; every other Basin byte reads as before. -/
theorem Mem.get_setBasin (k : Nat) (v : Byte) (a : Nat) :
    Tab.get 0 (m.setBasin k v).basin a = if a = k then v else Tab.get 0 m.basin a := by
  unfold Mem.setBasin
  split
  · next h => subst h; exact Tab.get_write_same 0 m.basin a v
  · next h => exact Tab.get_write_ne 0 m.basin v h

end Sys2Proof.Machine
end

