-- ==== Sys2Proof/Tests/Slice0.lean ====
section
/-! SUPPORT. The model's own tests: the checks of WellFormed refuse ill-formed commands; single steps on small states, with what each expects taken from the
rules of spec/; and for each statement with hypotheses a state that meets them (the theorems named witness_…, which show the conclusion there as well
where it is cheap). -/

set_option Elab.async false

namespace Sys2Proof.Tests

open Sys2Proof.Machine Sys2Proof.Safety Sys2Proof.Claims

/-! ### Small states -/

/-- Memory initialisation over, engine RUNNING, thread 1 RUN at 0x100. -/
def eng0 : Eng :=
  (((State.reset.block.eng.setFld F.RST_STAT_INIT 0 0).setFld F.RST_STAT_PLLLOCK 0 1).setFld F.JX_STATE_STATE 0 3).setThr 1 { st := .run, pc := 0x100 }

/-- Registers set: name, copy, value. -/
def regs (e : Eng) : List (Reg × Nat × Nat) → Eng
  | [] => e
  | x :: l => regs (e.setReg x.1 x.2.1 (word x.2.2)) l

def mk (e : Eng) (m : Mem := {}) : State := { block := ⟨m, e⟩ }

/-- Thread 1 changed. -/
def thr1 (f : Thr → Thr) (e : Eng := eng0) : Eng := e.modThr 1 f

/-- The state that a command answers, and whether it is the one given. -/
def post (c : Instr) (s : State) : State :=
  match exec c s with
  | .next u => u
  | _ => s

def goes (c : Instr) (s t : State) : Bool :=
  match exec c s with
  | .next u => decide (u = t)
  | _ => false

/-- The engine after a command. -/
def eng (c : Instr) (s : State) : Eng := (post c s).block.eng

/-- The command answers a next state whose engine state, but for the record of the answer, is `f`; memory stays. -/
def leavesEng (c : Instr) (s : State) (p : Eng → Bool) : Bool :=
  match exec c s with
  | .next u => decide (u.block.mem = s.block.mem) && decide (u.pending = s.pending) && p u.block.eng
  | _ => false

/-- The record of a fault of thread 1 as the statements give it. -/
def faulted1 (e : Eng) (cause : Nat) (pc : Word) (addr : Nat) : Bool :=
  decide ((e.getThr 1).st = .faulted) && decide ((e.getThr 1).pc = pc) && decide (e.reg .THR_FCAUSE 1 = word cause) && decide (e.reg .THR_FPC 1 = pc) &&
    decide (e.reg .THR_FADDR 1 = word addr) && (e.reg .THR_FPEND 0).getLsbD 1

/-- The host in SETUP. -/
def setup (l : List (Reg × Nat × Nat) := []) : State := mk (regs (eng0.setFld F.JX_STATE_STATE 0 1) l)
/-- The Keeper in RUNNING. -/
def keeper : Acc := .thread 1
def keep (l : List (Reg × Nat × Nat) := []) : State := mk (regs eng0 l)

/-- Link n UP in a mode. -/
def linkUp (n mode : Nat) (e : Eng) : Eng := ((e.setFld F.LNK_CFG_MODE n mode).setFld F.LNK_CTL_EN n 1).setFld F.LNK_STAT_STATE n 2

/-! ### WellFormed -/

theorem test_thread_zero_refused : (Instr.nop 0 []).ok = false ∧ (Instr.nop 1 []).ok = true := by decide
theorem test_accessor_zero_refused : (Instr.threadHold (.thread 0) 2).ok = false ∧ (Instr.threadHold .host 2).ok = true := by decide
theorem test_reader_zero_refused : (Instr.readClear (.reg (.thread 0) 0)).ok = false := by decide
theorem test_writer_zero_refused : (Instr.registerWrite (.reg (.thread 0) 0 0)).ok = false := by decide

/-! ### Instructions of threads -/

def alu0 : State := mk (thr1 (fun x => { x with g := [(1, 0xFFFFF), (2, 1)], flags := 4 }))

/-- ADD of 0xF_FFFF and 1 wraps: result 0, Z and C (R268, R294). -/
theorem test_add_wraps : ((eng (.add 1 [] (.reg 0x12)) alu0).getThr 1).g = [(1, 0), (2, 1)] ∧
    ((eng (.add 1 [] (.reg 0x12)) alu0).getThr 1).flags = 5 := by decide +kernel
/-- SUB 0 − 1 borrows: C 0, N (R268). -/
theorem test_sub_borrows : ((eng (.sub 1 [] (.imm8 0x30 1)) alu0).getThr 1).flags = 2 ∧
    ((eng (.sub 1 [] (.imm8 0x30 1)) alu0).getThr 1).greg 3 = 0xFFFFF := by decide +kernel
/-- ADC counts C in (R294). -/
theorem test_adc_takes_carry : ((eng (.adc 1 [] (.imm8 0x20 1)) alu0).getThr 1).greg 2 = 3 := by decide +kernel
/-- MULH gives the high word of the product 0xF_FFFF × 0xF_FFFF (R294). -/
theorem test_mulh_high : ((eng (.mulh 1 [] (.reg 0x11)) alu0).getThr 1).greg 1 = 0xFFFFE := by decide +kernel
/-- SAR keeps the sign (R295). -/
theorem test_sar_sign : ((eng (.sar 1 [] (.imm8 0x10 4)) (mk (thr1 (fun x => { x with g := [(1, 0x80010)] })))).getThr 1).greg 1 = 0xF8001 := by
  decide +kernel
/-- QPERM with SEL 0x1B reverses the quints (R275, R299). -/
theorem test_qperm_reverses :
    ((eng (.qperm 1 [.ext] 0x21 0x1B) (mk (thr1 (fun x => { x with g := [(1, 0x08864)] })))).getThr 1).greg 2 = 0x20C41 := by decide +kernel
/-- BSR writes the address of the next instruction to G14 and branches from it (R273, R301). -/
theorem test_bsr_link : ((eng (.bsr 1 [] (.b8 0xFE)) alu0).getThr 1).greg 14 = 0x102 ∧ ((eng (.bsr 1 [] (.b8 0xFE)) alu0).getThr 1).pc = 0x100 := by
  decide +kernel

theorem witness_alu : ([AluOp.mov, .add, .adc, .sub, .sbc, .and, .or, .xor, .cmp, .tst, .shl, .shr, .sar, .rol, .mul, .mulh].all (fun k =>
    [AluOperand.reg 0x12, .imm8 0x10 0x85].all (fun o => [[], [Prefix.width 0]].all (fun ps =>
      !(runs alu0 1 ps (k.rules o) (o.ok k.shifts (widthOf ps))) ||
        goes (k.cmd 1 ps o) alu0 (leaves alu0 1 ps o.len (fun _ y => aluWrites k o (widthOf ps) y)))))) = true := by decide +kernel

theorem witness_alu_runs : ([AluOp.mov, .add, .adc, .sub, .sbc, .and, .or, .xor, .cmp, .tst, .shl, .shr, .sar, .rol, .mul, .mulh].all (fun k =>
    runs alu0 1 [.width 0] (k.rules (.reg 0x12)) ((AluOperand.reg 0x12).ok k.shifts 0))) = true := by decide +kernel

def fieldOps : List (FieldOp × List Prefix) :=
  [(.not 0x12, []), (.neg 0x12, []), (.clz 0x12, []), (.sxt 0x12, [.width 0, .ext]), (.mfs 0x10 10, [.ext]), (.mts 0x10 2, [.ext]),
   (.bfx 0x12 0x063, [.ext]), (.bfi 0x12 0x063, [.ext]), (.qperm 0x12 0x1B, [.ext]), (.bperm 0x20 0x4E, [.ext])]

theorem witness_fields : (fieldOps.all (fun x =>
    runs alu0 1 x.2 x.1.rules (x.1.ok (widthOf x.2)) &&
      goes (x.1.cmd 1 x.2) alu0 (leaves alu0 1 x.2 x.1.rules.len (fun _ y => x.1.writes 1 (widthOf x.2) y)))) = true := by decide +kernel

def controlOps : List ControlOp :=
  [.nop, .ret, .reti, .ei, .di, .bcc 0 (.b8 4), .bcc 13 (.b16 0xFF00), .bra (.b8 0x80), .bsr (.b16 4), .jmp (.reg 1), .jsr (.abs 0x200),
   .lea 0x12 (.d8 0xFF), .lea 0x10 (.abs 0x12345)]

theorem witness_control : (controlOps.all (fun i =>
    runs alu0 1 [] i.rules (i.ok wWord) &&
      goes (i.cmd 1 []) alu0 (leaves alu0 1 [] i.rules.len (fun n y => i.writes wWord n y)))) = true := by decide +kernel

/-- PRED 1 (NE) does not hold where Z is set. -/
def z0 : State := mk (thr1 (fun x => { x with flags := 1 }))
theorem witness_annulled :
    canRun z0.block.eng 1 [.pred 1] (AluOp.add.rules (.reg 0x12)) true = true ∧ notAnnulled z0.block.eng 1 (parsePfx [.pred 1]) = false ∧
    goes (.add 1 [.pred 1] (.reg 0x12)) z0 (leaves z0 1 [.pred 1] 2 (fun _ y => y)) = true ∧
    canRun z0.block.eng 1 [.pred 1] (FieldOp.not 0x12).rules true = true ∧ goes (.not 1 [.pred 1] 0x12) z0 (leaves z0 1 [.pred 1] 2 (fun _ y => y)) = true ∧
    canRun z0.block.eng 1 [.pred 1] ControlOp.nop.rules true = true ∧ goes (.nop 1 [.pred 1]) z0 (leaves z0 1 [.pred 1] 1 (fun _ y => y)) = true := by
  decide +kernel

/-- An instruction outside the code regions, and one with reserved bits. -/
def lost0 : State := mk (thr1 (fun x => { x with pc := 0x60000 }))
theorem witness_rejected :
    undisturbed lost0.block.eng 1 false = true ∧ codeOk 0x60000 2 = false ∧ faulted1 (eng (.add 1 [] (.reg 0x12)) lost0) 4 0x60000 0 = true ∧
    codeOk 0x100 3 = true ∧ codeClean alu0.block.eng 0 0x100 3 = true ∧ (AluOperand.imm8 0x11 0).ok false wWord = false ∧
    faulted1 (eng (.add 1 [] (.imm8 0x11 0)) alu0) 1 0x100 0 = true ∧ faulted1 (eng (.ret 1 [.lock, .width 0]) alu0) 0 0 0 = false := by decide +kernel

/-! ### Waits, conduits, the emulation trap -/

def wait0 : State := mk (thr1 (fun x => { x with g := [(1, 6)], ev := [(2, 3)] }))
theorem witness_wtk : runs wait0 1 [] (waitRules 1) true = true ∧
    goes (.wtk 1 []) wait0 (waits wait0 1 [] 1 .wtk (fun x => { x with wtkCyc := wait0.block.eng.clk.cycle + 1 })) = true := by decide +kernel
theorem witness_wev : runs wait0 1 [] (waitRules 2) true = true ∧ lowestEvent (wait0.block.eng.getThr 1) 6 = some 2 ∧
    goes (.wev 1 [] 6) wait0 (leaves wait0 1 [] 2 (fun _ y => oneLess y 2)) = true ∧
    lowestEvent (wait0.block.eng.getThr 1) 3 = none ∧ goes (.wev 1 [] 3) wait0 (waits wait0 1 [] 2 (.wev 3 none) (fun x => x)) = true := by
  decide +kernel
theorem witness_wevr : goes (.wevr 1 [] 1) wait0 (leaves wait0 1 [] 2 (fun _ y => (oneLess y 2).setGreg 1 0x406)) = true ∧
    goes (.wevr 1 [] 1) (mk (thr1 (fun x => { x with g := [(1, 6)] })))
      (waits (mk (thr1 (fun x => { x with g := [(1, 6)] }))) 1 [] 2 (.wev 6 (some 1)) (fun x => x)) = true := by decide +kernel

def trap0 : State := mk (regs (thr1 (fun x => { x with flags := 0x1F })) [(.THR_EMVEC, 1, 0x800)])
/-- The bytes of the trapped instruction are captured, the earlier in [15:8] (R289). -/
theorem test_trap_captures : runs trap0 1 [.width 0] { w := .all, len := 3 } true = true ∧
    ((eng (.emulationTrap 1 [.width 0] 4 [0xAB, 0xCD]) trap0).getThr 1).emLen = 4 ∧
    ((eng (.emulationTrap 1 [.width 0] 4 [0xAB, 0xCD]) trap0).getThr 1).emb = [(0, 0xF0E4), (1, 0xABCD), (2, 0), (3, 0), (4, 0)] ∧
    ((eng (.emulationTrap 1 [.width 0] 4 [0xAB, 0xCD]) trap0).getThr 1).pc = 0x800 ∧
    ((eng (.emulationTrap 1 [.width 0] 4 [0xAB, 0xCD]) trap0).getThr 1).flags = 0xF ∧
    ((eng (.emulationTrap 1 [.width 0] 4 [0xAB, 0xCD]) trap0).getThr 1).ipc = 0x104 := by decide +kernel
theorem witness_trap :
    (let l := trapBytes [.width 0] 4 [0xAB, 0xCD]
     goes (.emulationTrap 1 [.width 0] 4 [0xAB, 0xCD]) trap0 (leaves trap0 1 [.width 0] 3 (fun next y =>
      { y with emPc := 0x100, emLen := word l.length,
               emb := [(0, twoBytes l 0), (1, twoBytes l 1), (2, twoBytes l 2), (3, twoBytes l 3), (4, twoBytes l 4)],
               ipc := word next, iflags := y.flags, flags := y.flags &&& 0xFFFEF, pc := 0x800 }))) = true ∧
    runs wait0 1 [] { w := .all, len := 2 } true = true ∧ faulted1 (eng (.emulationTrap 1 [] 3 [0]) wait0) 6 0x100 0 = true := by decide +kernel

/-- Conduit 5: writer and reader are thread 1. -/
def cnd0 (x : Conduit) : State := mk ((regs (thr1 (fun x => { x with g := [(1, 0x12345)] })) [(.CND_CFG, 5, 0x81040)]).setCnd 5 x)
theorem witness_conduit_cfg : cndWriter (cnd0 {}).block.eng 1 5 = true ∧ cndReader (cnd0 {}).block.eng 1 5 = true ∧
    runs (cnd0 {}) 1 [] (waitRules 3) true = true := by decide +kernel
theorem witness_send :
    goes (.csnd 1 [] 0x10 5) (cnd0 {}) (withEng (cnd0 {}) ((leavesAfter 16 (cnd0 {}) 1 [] 3 (fun _ y => y)).block.eng.setCnd 5
      (appended (cnd0 {}).block.eng 5 0x12345 false))) = true ∧
    goes (.csnc 1 [] 0x10 5) (cnd0 { opened := some [1] }) (withEng (cnd0 { opened := some [1] })
      ((leavesAfter 16 (cnd0 { opened := some [1] }) 1 [] 3 (fun _ y => y)).block.eng.setCnd 5
      (appended (cnd0 { opened := some [1] }).block.eng 5 0x12345 true))) = true := by decide +kernel
def cnd1 : State := withEng (cnd0 { closed := [([7, 8], 0)] }) { (cnd0 { closed := [([7, 8], 0)] }).block.eng with clk := { cycle := 40 } }
theorem witness_receive :
    (let k := taken cnd1.block.eng 5 [7, 8] []
     goes (.crcv 1 [] 0x10 5) cnd1 (withEng cnd1
      ((leavesAfter 16 cnd1 1 [] 3 (fun _ y => (y.setGreg 1 k.1.toNat).setFlags { c := some k.2.1 })).block.eng.setCnd 5 k.2.2))) = true ∧
    lag cnd1.block.eng 5 = 1 := by decide +kernel
theorem witness_abort :
    goes (.cabt 1 [] 0 5) (cnd0 {}) (leavesAfter 16 (cnd0 {}) 1 [] 3 (fun _ y => y.setFlags { z := some true })) = true ∧
    (let s := cnd0 { opened := some [1] }
     goes (.cabt 1 [] 0 5) s (withEng s (((leavesAfter 16 s 1 [] 3 (fun _ y => y.setFlags { z := some false })).block.eng.setCnd 5
          { s.block.eng.getCnd 5 with opened := none, freeing := stillFreeing s.block.eng 5 ++ [s.block.eng.clk.cycle + 1] }).bump F.CND_CNT_ABORTS 0 1))) =
      true := by decide +kernel
theorem witness_conduit_waits :
    (let s := cnd0 { closed := [([1], 0), ([2], 0)] }
     buffersUsed s.block.eng 5 = 2 ∧ goes (.csnd 1 [] 0x10 5) s (waits s 1 [] 3 (.csend 1 5 false) (fun x => x)) = true ∧
     s.block.eng.clk.cycle < 0 + lag s.block.eng 5 ∧ goes (.crcv 1 [] 0x10 5) s (waits s 1 [] 3 (.crecv 1 5) (fun x => x)) = true) := by decide +kernel

/-! ### Memory instructions and locks -/

/-- Local data word 4 of PAV0, canonical address 0x1_0004, with two words set. -/
def mem0 : State := mk (thr1 (fun x => { x with g := [(1, 4), (2, 0xABCDE), (3, 1), (4, 0x80005)] })) { data := [(0x10004, 0x12345), (0x10005, 0xFEDCB)] }

def dataOk (k : DataOp) (ps : List Prefix) (rb : Byte) (m : MemMode) (s : State) (canon : Nat) : Bool :=
  let w := widthOf ps
  let old := memVal s w canon
  let v := (s.block.eng.getThr 1).oper w (rbHi rb)
  let t := post (k.cmd 1 ps rb m) s
  let out := leavesAfter (k.cycles 1 w canon false) s 1 ps (1 + m.len) (fun _ y => { k.writes w (rbHi rb) old v (stepped rb m ps y) with hostWin := false })
  runs s 1 ps (dataRules m) (m.ok rb false w) && addresses s 1 ps rb m canon false && plainData s.block.eng 1 w canon &&
    decide (t.block.eng = { out.block.eng with recent := { out.block.eng.recent with acc := t.block.eng.recent.acc } }) && decide (t.block.mem.basin = s.block.mem.basin) &&
    [canon - 1, canon, canon + 1, canon + 2].all (fun a => Tab.get 0 t.block.mem.data a == k.stores s w canon old v a)

theorem witness_data : ([DataOp.ld, .st, .xch, .addm].all (fun k =>
    dataOk k [] 0x21 .reg mem0 0x10004 && dataOk k [.width 3] 0x21 .post mem0 0x10004 && dataOk k [.width 9] 0x21 (.d8 0) mem0 0x10004)) = true := by
  decide +kernel
/-- Quint 1 of a word is bits [14:10] (R271): a store changes it alone (R281). -/
theorem test_store_quint : (post (.st 1 [.width 3] 0x21 .reg) mem0).block.mem.data = [(0x10004, 0x17B45), (0x10005, 0xFEDCB)] := by decide +kernel
/-- ADDM answers the old word; N and C of the sum (R300). -/
theorem test_addm : (post (.addm 1 [] 0x21 (.d8 1)) mem0).block.mem.data = [(0x10004, 0x12345), (0x10005, 0xAAAA9)] ∧
    ((eng (.addm 1 [] 0x21 (.d8 1)) mem0).getThr 1).greg 2 = 0xFEDCB ∧ ((eng (.addm 1 [] 0x21 (.d8 1)) mem0).getThr 1).flags = 6 := by decide +kernel

/-- G1 points at shared word 0 in the aperture; `v` is the lock word there. -/
def lock0 (v : Nat) (l : Tab LockSlot := []) (w : List (Nat × Nat) := []) : State :=
  mk { (thr1 (fun x => { x with g := [(1, 0x60000), (2, 0x3C5)] })).setThr 2 { st := .wait, wait := .lock 3 0x40000 none } with locks := l, waiters := w }
    { data := [(0x40000, word v)] }

theorem witness_try_acquire : runs (lock0 0xA5) 1 [] (dataRules .reg) (MemMode.reg.ok 0x21 false wWord) = true ∧
    locksAt (lock0 0xA5) 1 [] 0x21 .reg 0x40000 false = true ∧ (lockWord (lock0 0xA5) 0x40000).getLsbD 19 = false ∧
    ((lock0 0xA5).block.eng.emptySlot 1).isSome = true ∧
    (post (.lockTryAcquire 1 [] 0x21 .reg) (lock0 0xA5)).block.mem.data = [(0x40000, heldBy 1 0xA5)] ∧
    ((eng (.ld 1 [] 0x21 .reg) (lock0 0xA5)).getThr 1).greg 2 = 0xA5 := by decide +kernel
/-- Thread 2 owns the lock; thread 3 waits. -/
def lock1 : State := lock0 0xA5 [(8, ⟨false, 0x40000, false⟩)]
theorem witness_try_acquire_held : (lockWord lock1 0x40000).getLsbD 19 = true ∧ locksAt lock1 1 [] 0x21 .reg 0x40000 false = true ∧
    (eng (.ld 1 [] 0x21 .reg) lock1).locks = lock1.block.eng.locks ∧ ((eng (.ld 1 [] 0x21 .reg) lock1).getThr 1).greg 2 = 0x820A5 := by decide +kernel
theorem witness_lkw : runs (lock0 0xA5) 1 [] (lkwRules .reg) (MemMode.reg.ok 0x21 false wWord) = true ∧
    locksAt (lock0 0xA5) 1 [] 0x21 .reg 0x40000 true = true ∧
    (post (.lkw 1 [] 0x21 .reg) (lock0 0xA5)).block.mem.data = [(0x40000, heldBy 1 0xA5)] ∧
    ((eng (.lkw 1 [] 0x21 .reg) (lock0 0xA5)).getThr 1).greg 2 = (heldBy 1 0xA5).toNat ∧
    ((eng (.lkw 1 [] 0x21 .reg) (lock0 0xA5)).getThr 1).st = .run ∧
    locksAt lock1 1 [] 0x21 .reg 0x40000 true = true ∧ (lock1.block.eng.emptySlot 1).isSome = true ∧
    (lockWord lock1 0x40000).extractLsb' 12 6 = 2 ∧ (eng (.lkw 1 [] 0x21 .reg) lock1).waiters = [(1, 0x40000)] ∧
    ((eng (.lkw 1 [] 0x21 .reg) lock1).getThr 1).st = .wait ∧ ((eng (.lkw 1 [] 0x21 .reg) lock1).getThr 1).pc = 0x100 := by decide +kernel
/-- Thread 1 owns the lock; thread 2 waits for it. -/
def lock2 : State := lock0 0xA5 [(4, ⟨false, 0x40000, false⟩)] [(2, 0x40000)]
def lock3 : State := lock0 0xA5 [(4, ⟨false, 0x40000, false⟩)]
theorem witness_lkr : runs lock3 1 [] (lkrRules .reg) (MemMode.reg.ok 0x21 false wWord) = true ∧ locksAt lock3 1 [] 0x21 .reg 0x40000 true = true ∧
    lock3.block.eng.lockSlot 0x40000 = some (4, ⟨false, 0x40000, false⟩) ∧ lock3.block.eng.waitersOf 0x40000 = [] ∧
    (post (.lkr 1 [] 0x21 .reg) lock3).block.mem.data = [(0x40000, 0xC5)] ∧ (eng (.lkr 1 [] 0x21 .reg) lock3).locks = [] ∧
    ((eng (.lkr 1 [] 0x21 .reg) lock3).getThr 1).flags = 0 := by decide +kernel
theorem witness_lkr_hands_over : runs lock2 1 [] (lkrRules .reg) (MemMode.reg.ok 0x21 false wWord) = true ∧
    lock2.block.eng.firstWaiter 0x40000 = some 2 ∧ (lock2.block.eng.emptySlot 2).isSome = true ∧
    (post (.lkr 1 [] 0x21 .reg) lock2).block.mem.data =
      [(0x40000, word (2 ^ 19 + 2 * 2 ^ 12 + (eng (.lkr 1 [] 0x21 .reg) lock2).waitMax 0x40000 * 2 ^ 8 + 0xC5))] ∧
    (eng (.lkr 1 [] 0x21 .reg) lock2).waiters = [] ∧ ((eng (.lkr 1 [] 0x21 .reg) lock2).getThr 1).flags = 4 := by decide +kernel

/-! ### The ends of waits, interrupts, holds and halts, held accesses, host responses -/

def waiting (w : Wait) (x : Thr := {}) : State :=
  mk { (thr1 (fun _ => { x with st := .wait, wait := w, waitNext := 0x200, pc := 0x1FE, ev := [(2, 3)], g := [(1, 0x55)] })) with clk := { cycle := 50 } }
theorem witness_event_wait_ends :
    goes (.wevWaitEnd 1) (waiting (.wev 6 (some 1))) (withThr (waiting (.wev 6 (some 1))) 1
      ((oneLess (ended ((waiting (.wev 6 (some 1))).block.eng.getThr 1)) 2).setGreg 1 0x455)) = true ∧
    goes (.wevWaitEnd 1) (waiting (.wev 4 none)) (withThr (waiting (.wev 4 none)) 1 (oneLess (ended ((waiting (.wev 4 none)).block.eng.getThr 1)) 2)) =
      true := by decide +kernel
/-- A lock wait whose grant stands. -/
def granted : State :=
  let s := waiting (.lock 2 0x40000 (some (50, true, 7))) { waitBase := some (1, 0x60001) }
  { s with block := ⟨{ data := [(0x40000, 0xA5)] }, { s.block.eng with locks := [(4, ⟨false, 0x40000, true⟩)] }⟩ }
theorem witness_lock_wait_ends :
    ((eng (.lkwWaitEnd 1) granted).getThr 1 = ((baseStepped (granted.block.eng.getThr 1) (ended (granted.block.eng.getThr 1))).setGreg 2
      (2 ^ 19 + 2 ^ 12 + 7 * 2 ^ 8 + 0xA5)).setFlags { c := some true }) ∧
    (eng (.lkwWaitEnd 1) granted).locks = [(4, ⟨false, 0x40000, false⟩)] := by decide +kernel
def receiving : State := withEng (waiting (.crecv 1 5)) ((regs (waiting (.crecv 1 5)).block.eng [(.CND_CFG, 5, 0x81040)]).setCnd 5 { closed := [([7], 3)] })
theorem witness_receive_wait_ends :
    goes (.crcvWaitEnd 1) receiving (withEng receiving ((receiving.block.eng.setCnd 5 (taken receiving.block.eng 5 [7] []).2.2).setThr 1
      (((ended (receiving.block.eng.getThr 1)).setGreg 1 7).setFlags { c := some true }))) = true := by decide +kernel
def opening : State := withEng (waiting (.csend 1 5 true)) (regs (waiting (.csend 1 5 true)).block.eng [(.CND_CFG, 5, 0x81040)])
theorem witness_send_wait_ends :
    goes (.sendOpenWaitEnd 1) opening (withEng opening ((opening.block.eng.setCnd 5 (appended opening.block.eng 5 0x55 true)).setThr 1
      (ended (opening.block.eng.getThr 1)))) = true := by decide +kernel
def timed : State := waiting .atTime { atTarget := 100, atHit := some 48 }
theorem witness_at_release :
    goes (.atRelease 1) timed (withThr timed 1 { putState (timed.block.eng.getThr 1) .run with wait := .none, atDone := true, atHit := none }) = true ∧
    goes (.atRelease 1) (waiting .atTime { atTarget := 100 }) (waiting .atTime { atTarget := 100 }) = true := by decide +kernel

/-- Thread 1 with an interrupt pending on its input and IE set. -/
def irq0 : State := mk (regs (thr1 (fun x => { x with flags := 0x1F, irq := 2 })) [(.THR_IVEC, 1, 0x400)])
theorem witness_interrupt : irq0.block.eng.canInterrupt 1 = true ∧
    goes (.interruptEntry 1) irq0 (withEng irq0 ((irq0.block.eng.countSpare 1).setThr 1
      { irq0.block.eng.getThr 1 with irq := 1, ipc := 0x100, iflags := 0x1F, flags := 0xF, pc := 0x400, st := .run, wait := .none, seq := none, entered := true, issued := 1, atLock := false })) = true ∧
    irq0.block.eng.chansDue = [] := by
  decide +kernel

def held0 : State := mk (thr1 (fun x => { x with holdReq := true, st := .wait, wait := .lock 3 0x40000 none }))
theorem witness_thread_held :
    goes (.threadHeld 1) held0 (withEng held0 ({ held0.block.eng with waiters := [] }.setThr 1
      { putState (held0.block.eng.getThr 1) .held with wait := .none, atDone := false, holdReq := false })) = true := by decide +kernel
def halt0 : State := mk (thr1 (fun x => { x with haltReq := some (2, 3, true) }))
theorem witness_thread_halted :
    (eng (.threadHalted 1) halt0).getThr 1 = { halt0.block.eng.getThr 1 with st := .halted, prev := .run, haltReq := none, step := false, entered := false } ∧
    (eng (.threadHalted 1) halt0).reg .HIDE_HCAUSE 1 = word (128 + 2 * 16 + 3) := by decide +kernel

def heldSt : MemOp := { late := true, tid := 1, kind := .st, width := wWord, r := 2, ea := 4, val := 0xABCDE, base := none, next := 0x102, pc := 0x100, locked := false, fed := false }
def bank0 : State := mk { thr1 (fun x => { x with mem := some heldSt }) with heldBanks := [1] }
theorem witness_held_store : regionOf 0 4 = .data 0x10004 false ∧ bankOf 0x10004 = 0 ∧ plainData bank0.block.eng 1 wWord 0x10004 = true ∧
    (post (.bankHoldRelease 0) bank0).block = ⟨{ data := [(0x10004, 0xABCDE)] },
      { bank0.block.eng with heldBanks := [], recent := { acc := (eng (.bankHoldRelease 0) bank0).recent.acc } }.setThr 1
      (readyFrom 3 { bank0.block.eng.getThr 1 with mem := none, hostWin := false, pc := 0x102 })⟩ := by decide +kernel

def winOp (k : MemKind) : MemOp := { heldSt with kind := k, ea := 0xF0004 }
def win0 (k : MemKind) : State :=
  mk { thr1 (fun x => { x with mem := some (winOp k), hostWin := true }) with initq := [⟨0x20, false, 0x1000, 8, [], .window 1⟩], matrix := { out := [(2, 1)] } }
theorem witness_host_window :
    (eng (.hostWindowResponse 0 0 0xFFF12345) (win0 .ld)).initq = [] ∧
    (eng (.hostWindowResponse 0 0 0xFFF12345) (win0 .ld)).getThr 1 =
      readyFrom 3 (({ (win0 .ld).block.eng.getThr 1 with mem := none, hostWin := false, pc := 0x102 } : Thr).setGreg 2 0x12345) ∧
    (eng (.hostWindowResponse 0 0 0) (win0 .st)).getThr 1 =
      readyFrom 3 { (win0 .st).block.eng.getThr 1 with mem := none, hostWin := false, pc := 0x102 } ∧
    faulted1 (eng (.hostWindowResponse 0 1 0) (win0 .ld)) 2 0x100 0xF0004 = true ∧
    faulted1 (eng (.hostWindowResponse 0 2 0) (win0 .st)) 3 0x100 0xF0004 = true := by decide +kernel

/-! ### Register writes and reads as commands -/

theorem witness_action :
    mayWrite (keep [(.THR_SEL, 1, 2)]).block.eng keeper .THR_CTL 0 2 = true ∧ mayWrite (setup [(.THR_SEL, 64, 2)]).block.eng .host .THR_CTL 0 2 = true ∧
    ((keep [(.THR_SEL, 1, 2)]).block.writeWord keeper .THR_CTL 0 2).1 = 0 ∧
    goes (.threadHold keeper 2) (keep [(.THR_SEL, 1, 2)]) (done (keep [(.THR_SEL, 1, 2)]) keeper
      ((keep [(.THR_SEL, 1, 2)]).block.writeWord keeper .THR_CTL 0 2).2) = true ∧
    goes (.threadHold keeper 1) (keep) (keep) = true ∧
    goes (.unmute .host 3 9) (setup) (done (setup) .host ((setup).block.writeWord .host .CWY_MUTE 3 9).2) = true := by decide +kernel
/-- A write of 1 in a reserved bit of THR_CTL by the host: code FIELD 6 of R403. -/
theorem witness_illegal_host : (setup).block.eng.writeCode .host .THR_CTL 0 0x12 = 6 ∧
    Acc.host.find (Reg.addr .THR_CTL 0) = some (.THR_CTL, 0) ∧
    goes (.threadHold .host 0x12) (setup) (withEng (setup) (((((setup).block.eng.answer .host 1 0).post F.JX_SETUP_ERR_VALID 0).setFld F.JX_SETUP_ERR_CODE 0 6).setReg
        .JX_SETUP_EADDR 0 (word (Reg.addr .THR_CTL 0)))) = true := by decide +kernel
theorem witness_illegal_thread : (keep).block.eng.writeCode keeper .THR_CTL 0 0x12 = 6 ∧
    Reg.ofAddr (Reg.addr .THR_CTL 0) = some (.THR_CTL, 0) ∧
    ((eng (.threadHold keeper 0x12) (keep)).getThr 1).st = .faulted ∧ (eng (.threadHold keeper 0x12) (keep)).reg .THR_FCAUSE 1 = 2 ∧
    (eng (.threadHold keeper 0x12) (keep)).reg .THR_FADDR 1 = word (Reg.addr .THR_CTL 0) := by decide +kernel
/-- Does the read command answer the register's value? -/
def readsOk (c : Instr) (who : Acc) (r : Reg) (i : Nat) (s : State) : Bool :=
  mayRead s.block.eng who r i && goes c s (withEng s ((s.block.eng.readWord who r i).2.answer who 0 (s.block.eng.readWord who r i).1))
theorem witness_reads : readsOk (.ecapRead keeper 3) keeper .SUN_ECAP_T 12 (keep) = true ∧ readsOk (.trapPop keeper) keeper .BSN_TRAP0 0 (keep) = true ∧
    readsOk (.noticePop keeper) keeper .FWD_NOTE0 0 (keep) = true ∧ readsOk (.timerCountRead keeper 23) keeper .TMR_CNT 23 (keep) = true ∧
    readsOk (.timerCaptureRead keeper 0) keeper .TMR_CAP 0 (keep) = true ∧ readsOk (.reedFifoRead keeper 0) keeper .REED_FIFO 0 (keep) = true ∧
    readsOk (.vtTxRead .tap 1) .tap .HIDE_TXD 1 (keep [(.HIDE_AUTH, 0, 4 * Acc.path .tap + 2)]) = true ∧
    mayRead (keep).block.eng keeper .HIDE_RXD 0 = true := by decide +kernel
/-- A plain register by its word address, and at the target port. -/
theorem witness_plain : plainReg .TIK_SLACK = true ∧ plainReg .HRG_DBBASE0 = true ∧
    ([Reg.TIK_PERIOD_LO, .TIK_SLACK, .TIK_FRAME, .TIK_MATRIX, .SUN_OWN, .LNK_OWN, .LNK_MAXLEN, .THR_SEL, .THR_CIDX, .THR_IVEC, .THR_EMVEC, .THR_SWVEC,
      .JX_HWBASE0, .CWY_PSEL, .CWY_CHSEL, .TMR_PRE, .TMR_OWN, .HRG_RSEL, .HRG_DBBASE0].all plainReg) = true ∧
    mayWrite (setup).block.eng .host .TIK_SLACK 0 5 = true ∧
    (eng (.registerWrite (.reg .host (word (Reg.addr .TIK_SLACK 0)) 5)) (setup)).reg .TIK_SLACK 0 = 5 ∧
    (let a := Reg.addr .TIK_SLACK 0
     let q : HostReq := { addr := BitVec.ofNat 22 (a / 2 * 8), len := 0, be := if a % 2 = 0 then 0x0F else 0xF0, data := if a % 2 = 0 then 5 else 5 <<< 32 }
     (eng (.registerWrite (.target q)) (setup)).reg .TIK_SLACK 0 = 5) := by decide +kernel

/-! ### Control of threads, slot tables -/

/-- The Keeper selects thread 2, which is in state `x`. -/
def sel2 (x : Thr) : State := mk ((regs eng0 [(.THR_SEL, 1, 2), (.THR_CIDX, 1, 17), (.THR_FCAUSE, 2, 2)]).setThr 2 x)
theorem witness_hold :
    mayWrite (sel2 { st := .run }).block.eng keeper .THR_CTL 0 2 = true ∧ selThr (sel2 {}) keeper = 2 ∧
    goes (.threadHold keeper 2) (sel2 { st := .run, pc := 9 }) (done (sel2 { st := .run, pc := 9 }) keeper
      ({ (sel2 { st := .run, pc := 9 }).block.eng with waiters := [] }.setThr 2
        { st := .held, pc := 9, mark := (1, 2), held := some (.run, .none, 0) })) = true ∧
    goes (.threadHold keeper 2) (sel2 { st := .run, seq := some (1, 2) }) (done (sel2 { st := .run, seq := some (1, 2) }) keeper
      ((sel2 { st := .run, seq := some (1, 2) }).block.eng.setThr 2 { st := .run, seq := some (1, 2), holdReq := true, mark := (1, 2) })) = true ∧
    ((sel2 {}).block.eng.getThr 2).mark.1 ≠ 1 ∧ (sel2 {}).block.eng.sys.resetAt ≠ 1 := by decide +kernel
theorem witness_release :
    mayWrite (sel2 { st := .held }).block.eng keeper .THR_CTL 0 1 = true ∧
    goes (.threadRelease keeper 1) (sel2 { st := .held }) (done (sel2 { st := .held }) keeper
      ((sel2 { st := .held }).block.eng.setThr 2 { st := .run, relCyc := 1, mark := (1, 1), ready := 2 })) = true ∧
    (eng (.threadRelease keeper 1) (sel2 { st := .faulted })).getThr 2 = { st := .run, relCyc := 1, mark := (1, 1), ready := 2 } ∧
    (eng (.threadRelease keeper 1) (sel2 { st := .faulted })).reg .THR_FCAUSE 2 = 0 := by decide +kernel
theorem witness_thread_reset :
    mayWrite (sel2 { st := .faulted }).block.eng keeper .THR_CTL 0 4 = true ∧
    (eng (.threadReset keeper 4) (sel2 { st := .faulted, pc := 7, g := [(3, 4)], wtkCyc := 5 })).getThr 2 = { wtkCyc := 5, mark := (1, 5) } ∧
    (eng (.threadReset keeper 4) (sel2 { st := .faulted })).reg .THR_FCAUSE 2 = 0 ∧
    (eng (.threadReset keeper 4) (sel2 { st := .faulted })).getThr 1 = (sel2 {}).block.eng.getThr 1 := by decide +kernel
theorem witness_context_write :
    mayWrite (sel2 {}).block.eng keeper .THR_CDATA 0 0x1F = true ∧ ((eng (.contextWrite keeper 0x1F) (sel2 {})).getThr 2).flags = 0x1F ∧
    ((eng (.contextWrite keeper 0xABCDE) (withEng (sel2 {}) (regs (sel2 {}).block.eng [(.THR_CIDX, 1, 16)]))).getThr 2).pc = 0xABCDE := by decide +kernel

/-- Still water has held since cycle 0, two rounds ago. -/
def still (vec : Nat) : State :=
  mk { (regs (thr1 (fun x => { x with st := .wait, wait := .wtk })) [(.THR_SWVEC, 0, vec)]) with swSince := some 0, clk := { cycle := 640 } }
theorem witness_still_water : (still 0x300).block.eng.stillDue = true ∧ (still 0x300).block.eng.awake = true ∧
    ((eng .stillWaterWake (still 0x300)).getThr 1).pc = 0x300 ∧ ((eng .stillWaterWake (still 0x300)).getThr 1).st = .run ∧
    (eng .stillWaterWake (still 0x300)).reg .THR_SWPC 0 = 0x100 ∧ (eng .stillWaterWake (still 0x300)).flag F.THR_SWSTAT_PEND 0 = true ∧
    (eng .stillWaterWake (still 0)).getThr 1 = (still 0).block.eng.getThr 1 ∧ (eng .stillWaterWake (still 0)).flag F.THR_SWSTAT_PEND 0 = true := by decide +kernel
theorem witness_still_water_ack : mayWrite (keep [(.THR_SWSTAT, 0, 1)]).block.eng keeper .THR_SWCTL 0 0x205 = true ∧
    (eng (.stillWaterAck keeper 0x205) (keep [(.THR_SWSTAT, 0, 1)])).flag F.THR_SWSTAT_PEND 0 = false := by decide +kernel

/-- Barrel 0 in state `x`. -/
def brl0 (x : Barrel) (l : List (Reg × Nat × Nat) := []) (c : Nat := 0) : State := mk { (regs eng0 l).setBrl 0 x with clk := { cycle := c, roundBase := 0 } }
def tab1 : Tab Nat := [(0, 1), (8, 1), (16, 1), (24, 1)]
theorem witness_slot_write : mayWrite (brl0 { force := tab1 } [(.BRL_SSEL, 0, 127)]).block.eng keeper .BRL_SENT 0 5 = true ∧
    ((eng (.slotEntryWrite keeper 0 5) (brl0 { force := tab1 } [(.BRL_SSEL, 0, 127)])).getBrl 0).staged = [(127, 5)] ∧
    (eng (.slotEntryWrite keeper 0 5) (brl0 { force := tab1 } [(.BRL_SSEL, 0, 127)])).fld F.BRL_SSEL_ADDR 0 = 0 := by decide +kernel
theorem witness_slot_copy : mayWrite (brl0 { force := tab1 }).block.eng keeper .BRL_CTL 0 1 = true ∧
    (eng (.slotTableCopy keeper 0 1) (brl0 { force := tab1 })).getBrl 0 = { force := tab1, staged := tab1 } := by decide +kernel
theorem witness_slot_apply : mayWrite (brl0 { force := tab1, staged := tab1 }).block.eng keeper .BRL_CTL 0 2 = true ∧
    (brl0 { staged := tab1 }).block.eng.applyFail 0 tab1 = none ∧
    (eng (.slotTableApply keeper 0 2) (brl0 { staged := tab1 })).getBrl 0 = { staged := tab1, check := some ⟨tab1, false, 140, none⟩ } ∧
    (eng (.slotTableApply keeper 0 2) (brl0 { staged := tab1 })).flag F.BRL_STAT_BUSY 0 = true := by decide +kernel
theorem witness_slot_checks : (brl0 { check := some ⟨tab1, true, 140, none⟩ } [(.BRL_STAT, 0, 2)] 140).block.eng.awake = true ∧
    (eng (.slotChecksEnd 0) (brl0 { check := some ⟨tab1, true, 140, none⟩ } [] 140)).getBrl 0 = { pend := some (tab1, true), pendAt := 140 } := by decide +kernel
/-- Slot 0 of PAV0 names a thread of PAV1: the apply is answered FAULT and the failure is recorded as the checks end. -/
def badTab : State := mk ((regs (eng0.setFld F.JX_STATE_STATE 0 1) []).setBrl 0 { force := tab1, staged := [(0, 30)] })
def badCheck : State := brl0 { check := some ⟨[(0, 30)], true, 140, some (1, 30, false, 0)⟩ } [] 140
theorem witness_slot_apply_fails : (badTab.block.eng.applyFail 0 [(0, 30)]).isSome = true ∧ mayWrite badTab.block.eng .host .BRL_CTL 0 2 = true ∧
    (eng (.slotTableApply .host 0 2) badTab).sys.ans = (Acc.host.key, 1, 0) ∧
    ((eng (.slotTableApply .host 0 2) badTab).getBrl 0).check = some ⟨[(0, 30)], false, 140, badTab.block.eng.applyFail 0 [(0, 30)]⟩ ∧
    ((eng (.slotTableApply .host 0 2) badTab).getBrl 0).force = tab1 := by decide +kernel
theorem witness_slot_checks_fail : (eng (.slotChecksEnd 0) badCheck).getBrl 0 = {} ∧ (eng (.slotChecksEnd 0) badCheck).flag F.BRL_STAT_APPLY_ERR 0 = true ∧
    (eng (.slotChecksEnd 0) badCheck).fld F.BRL_STAT_ERR 0 = 1 ∧ (eng (.slotChecksEnd 0) badCheck).fld F.BRL_ERR_TID 0 = 30 := by decide +kernel
theorem witness_slot_cancel : mayWrite (brl0 { pend := some (tab1, true) } [] 5).block.eng keeper .BRL_CTL 0 8 = true ∧
    (brl0 { pend := some (tab1, true) } [] 5).block.eng.atRound = false ∧ (brl0 {}).block.eng.tick.dec = none ∧
    (eng (.slotTableCancel keeper 0 8) (brl0 { pend := some (tab1, true) } [] 5)).getBrl 0 = {} := by decide +kernel
theorem witness_slot_effect : (brl0 { pend := some (tab1, true), pendAt := 5 } [] 320).block.eng.running = false ∧
    (brl0 { pend := some (tab1, true), pendAt := 5 } [] 320).block.eng.atRound = true ∧
    (eng (.slotTableTakeEffect 0) (brl0 { pend := some (tab1, true), pendAt := 5 } [] 320)).getBrl 0 = { force := tab1, pendAt := 5 } := by decide +kernel

/-! ### Ticks, Sundial, latched reads, the Causeway, timers -/

/-- At cycle c, with registers set. -/
def on (c : Nat) (l : List (Reg × Nat × Nat) := []) : State := mk { regs eng0 l with clk := { cycle := c, sun := BitVec.ofNat 100 (1000 * 2 ^ 40 + 5 * 2 ^ 20) } }
theorem witness_tick_apply :
    mayWrite (on 10).block.eng keeper .TIK_CTL 0 2 = true ∧ (on 10).block.eng.flag F.TIK_CTL_RUN 0 = false ∧
    (on 10).block.eng.stagedTicks.p = 128 ∧ (on 10).block.eng.stagedTicks.s = 0 ∧ (on 10).block.eng.budgetsMet (on 10).block.eng.stagedTicks = true ∧
    (eng (.tickApply keeper 2) (on 10)).tick = { pend := some ((on 10).block.eng.stagedTicks, false), takeNext := true } ∧
    (eng (.tickApply keeper 2) (on 10)).flag F.TIK_STAT_PENDING 0 = true ∧
    (on 10 [(.TIK_CTL, 0, 1), (.TIK_SLACK, 0, 8)]).block.eng.flag F.TIK_CTL_RUN 0 = true ∧
    mayWrite (on 10 [(.TIK_CTL, 0, 1), (.TIK_SLACK, 0, 8)]).block.eng keeper .TIK_CTL 0 7 = true ∧
    (eng (.tickApply keeper 7) (on 10 [(.TIK_CTL, 0, 1), (.TIK_SLACK, 0, 8)])).tick =
      { pend := some ((on 10 [(.TIK_SLACK, 0, 8)]).block.eng.stagedTicks, true) } := by
  decide +kernel
def pendTicks : State := withEng (on 10) { (on 10).block.eng with tick := { pend := some ({}, false) } }
theorem witness_tick_cancel : noBoundary pendTicks.block.eng ∧ pendTicks.block.eng.tick.pend ≠ none ∧
    mayWrite pendTicks.block.eng keeper .TIK_CTL 0 8 = true ∧ (eng (.tickCancel keeper 8) pendTicks).tick = {} := by
  refine ⟨?_, by decide +kernel⟩
  intro d h; exact absurd h.symm (show some d ≠ none by simp)
theorem witness_tick_run :
    mayWrite (on 10).block.eng keeper .TIK_CTL 0 1 = true ∧ (on 10).block.eng.running = false ∧
    (eng (.tickRunSet keeper 1) (on 10)).tick = { armed := some (1000 * 2 ^ 20 + 5) } ∧
    (eng (.tickRunSet keeper 1) (on 10)).flag F.TIK_CTL_RUN 0 = true ∧
    mayWrite (on 10 [(.TIK_CTL, 0, 1), (.TIK_STAT, 0, 2)]).block.eng keeper .TIK_CTL 0 0 = true ∧
    (on 10 [(.TIK_CTL, 0, 1), (.TIK_STAT, 0, 2)]).block.eng.running = true ∧
    (eng (.tickRunClear keeper 0) (on 10 [(.TIK_CTL, 0, 1), (.TIK_STAT, 0, 2)])).tick = { stopping := true } ∧
    (on 10 [(.TIK_CTL, 0, 1)]).block.eng.running = false ∧
    (eng (.tickRunClear keeper 0) (withEng (on 10) { (on 10 [(.TIK_CTL, 0, 1)]).block.eng with tick := { armed := some 5 } })).tick = {} := by decide +kernel
/-- Ticks of E = 992 ns, first launch decided at the boundary of cycle 320. -/
def armed0 : State :=
  withEng (on 320) { (on 320).block.eng with tick := { set := { e := 992 }, armed := some (990 * 2 ^ 20), dec := some ⟨320, 990, true, { e := 992 }, some (990 * 2 ^ 20)⟩ } }
theorem witness_first_launch : armed0.block.eng.awake = true ∧ decided armed0.block.eng ⟨320, 990, true, { e := 992 }, some (990 * 2 ^ 20)⟩ ∧
    armed0.block.eng.running = false ∧ firstFrom armed0.block.eng.tick.set (990 * 2 ^ 20) 0 ∧
    launchNs armed0.block.eng.tick.set 0 ≤ armed0.block.eng.clk.sun.toNat / 2 ^ 40 ∧
    (eng .tickLaunch armed0).tick.k = 0 ∧ (eng .tickLaunch armed0).tick.armed = none ∧ (eng .tickLaunch armed0).tick.base = 320 ∧
    (eng .tickLaunch armed0).tick.count = 1 ∧ (eng .tickLaunch armed0).tick.launch = BitVec.ofNat 80 armed0.block.eng.t80 ∧
    (eng .tickLaunch armed0).sys.passReq = true ∧ (eng .tickLaunch armed0).tick.dec = none := by
  refine ⟨by decide +kernel, ⟨by decide +kernel, by decide +kernel⟩, by decide +kernel, ⟨by decide +kernel, by decide +kernel, ?_⟩, by decide +kernel⟩
  intro i hi; omega
/-- The tick of index 7 began at cycle 0 with S as given; round P - S has come, and the launch time of index 8 or 9 lies 2 ns ahead of the decision. -/
def going (s k now : Nat) : State :=
  let set : TickSet := { p := 128, s, e := 1000 }
  withEng (on 4096 [(.TIK_STAT, 0, 2)]) { (on 4096 [(.TIK_STAT, 0, 2)]).block.eng with tick := { k, set, dec := some ⟨4096, now, true, set, none⟩ } }
theorem witness_next_launch : (going 0 (2 ^ 47 - 1) 0).block.eng.awake = true ∧ (going 0 7 0).block.eng.running = true ∧
    (going 0 7 0).block.eng.tick.dec = some ⟨4096, 0, true, (going 0 7 0).block.eng.tick.set, none⟩ ∧
    (going 0 7 0).block.eng.tick.set.p * 32 ≤ (going 0 7 0).block.eng.clk.cycle - (going 0 7 0).block.eng.tick.base ∧
    (eng .tickLaunch (going 0 7 0)).tick.k = 8 ∧ (eng .tickLaunch (going 0 (2 ^ 47 - 1) 0)).tick.k = 0 ∧
    launchNs (going 8 7 66534).block.eng.tick.set 8 = 66536 ∧
    (eng .tickLaunch (going 8 7 66534)).tick.k = 8 ∧ (eng .tickLaunch (going 8 7 74726)).tick.k = 9 ∧ (eng .tickLaunch (going 8 7 66534)).tick.base = 4096 ∧
    (eng .tickLaunch (going 8 7 74726)).flag F.TIK_STAT_SKIP 0 = true ∧ (eng .tickLaunch (going 8 7 66534)).flag F.TIK_STAT_SKIP 0 = false := by
  decide +kernel
def stop0 : State :=
  withEng (on 320 [(.TIK_STAT, 0, 2)]) { (on 320 [(.TIK_STAT, 0, 2)]).block.eng with tick := { pend := some ({ p := 200 }, true), dec := some ⟨320, 990, false, {}, none⟩ } }
theorem witness_ticks_stop : stop0.block.eng.running = true ∧ stop0.block.eng.awake = true ∧ (eng .tickRunningClear stop0).tick.floodBase = 320 ∧
    (eng .tickRunningClear stop0).tick.pollBase = 320 ∧ (eng .tickRunningClear stop0).tick.pend = none ∧
    (eng .tickRunningClear stop0).tick.set = { p := 200 } ∧ (eng .tickRunningClear stop0).tick.dec = none := by decide +kernel
/-- Thread 2 owns Sundial's control; `a` was applied in this cycle. -/
def owned (a : Nat) : State :=
  withEng (on 10) { regs eng0 [(.SUN_OWN, 0, 0x42)] with clk := { (on 10).block.eng.clk with applied := a } }
theorem witness_sundial_writes : mayWrite (on 10).block.eng keeper .SUN_CTL 0 1 = true ∧ mayWrite (on 10).block.eng keeper .SUN_CTL 0 2 = true ∧
    mayWrite (on 10).block.eng keeper .SUN_CTL 0 3 = true ∧ (on 10).block.eng.clk.applied = 0 ∧
    appliesAtOnce keeper = true ∧ appliesAtOnce (.thread 2) = false ∧ mayWrite (owned 0).block.eng (.thread 2) .SUN_CTL 0 1 = true ∧
    (owned 0).block.eng.clk.owner = 0 ∧
    goes (.sundialLoad (.thread 2) 2) (owned 0) (done (owned 0) (.thread 2) { (owned 0).block.eng with clk := { (owned 0).block.eng.clk with owner := 2 } }) = true ∧
    mayWrite (owned 1).block.eng keeper .SUN_CTL 0 3 = true ∧
    goes (.sundialRate keeper 3) (owned 1) (done (owned 1) keeper { (owned 1).block.eng with clk := { (owned 1).block.eng.clk with owed := [3] } }) = true ∧
    (eng (.sundialStep (.thread 2) 1) (owned 1)).clk.owner = 1 ∧ (eng (.sundialStep (.thread 2) 1) (owned 1)).sunOwner.clk.owed = [1] := by decide +kernel
theorem witness_sundial_step :
    (let s := on 10 [(.SUN_ADJ, 0, 0xFFFFF), (.SUN_ADJ, 1, 0xFFFFF), (.SUN_ADJ, 2, 0xFFFFF), (.SUN_ADJ, 3, 0xFFFFF)]
     (eng (.sundialStep keeper 1) s).clk.seen = s.block.eng.clk.sun + BitVec.ofNat 100 (s.block.eng.sunAdj * 2 ^ 20) ∧
     (eng (.sundialStep keeper 1) s).clk.seen = s.block.eng.clk.sun - BitVec.ofNat 100 (2 ^ 20) ∧
     (eng (.sundialLoad keeper 2) s).clk.seen = BitVec.ofNat 100 (s.block.eng.sunAdj * 2 ^ 20) ∧ (eng (.sundialLoad keeper 2) s).clk.loaded = true) ∧
    (let s := on 10 [(.SUN_RATE0, 0, 5)]
     (eng (.sundialRate keeper 3) s).clk.rateNext = 5 ∧ (eng (.sundialRate keeper 3) s).clk.rate = 0 ∧
     (eng (.sundialRate keeper 3) s).flag F.SUN_STAT_RATE_SET 0 = true) := by decide +kernel
/-- A read of word 0 latches word 1 to 3 for its reader (R57). -/
theorem witness_t80 : mayRead (on 10).block.eng keeper .SUN_TIME 0 = true ∧
    (eng (.t80Read keeper (word (Reg.addr .SUN_TIME 0))) (on 10)).sys.ans = (keeper.key, 0, (wordAt (t80Seen (on 10).block.eng) 0).toNat) ∧
    (let s' := withEng (on 700) { eng (.t80Read keeper (word (Reg.addr .SUN_TIME 0))) (on 10) with clk := { cycle := 700, sun := 99 <<< 60 } }
     mayRead s'.block.eng keeper .SUN_TIME 1 = true ∧
     (eng (.readClear (.reg keeper (word (Reg.addr .SUN_TIME 1)))) s').sys.ans = (keeper.key, 0, (wordAt (t80Seen (on 10).block.eng) 1).toNat) ∧
     (eng (.readClear (.reg keeper (word (Reg.addr .SUN_TIME 3)))) s').sys.ans = (keeper.key, 0, (wordAt (t80Seen (on 10).block.eng) 3).toNat)) := by decide +kernel
def cnt0 : State := withEng (on 10) { (on 10).block.eng with tick := { count := 2 ^ 21 + 7 } }
theorem witness_count_latch : mayRead cnt0.block.eng keeper .TIK_COUNT0 0 = true ∧
    (eng (.countLatchRead keeper (word (Reg.addr .TIK_COUNT0 0))) cnt0).sys.ans = (keeper.key, 0, 7) ∧
    ((eng (.countLatchRead keeper (word (Reg.addr .TIK_COUNT0 0))) cnt0).getLatch keeper.key).count = 2 := by decide +kernel
def win1 (k : Nat) : State := withEng (on 10 [(.LNK_CSEL, 5, k)]) { (on 10 [(.LNK_CSEL, 5, k)]).block.eng with ctrs := [(64 * 5 + k, 2 ^ 20 + 9)] }
theorem witness_counter_window : mayRead (win1 2).block.eng keeper .LNK_CNT0 5 = true ∧ (win1 2).block.eng.ctr 0 5 2 = 2 ^ 20 + 9 ∧
    (eng (.counterWindowRead keeper (word (Reg.addr .LNK_CNT0 5))) (win1 2)).sys.ans = (keeper.key, 0, 9) ∧
    ((eng (.counterWindowRead keeper (word (Reg.addr .LNK_CNT0 5))) (win1 2)).getLatch keeper.key).count = 1 ∧
    (eng (.counterWindowRead keeper (word (Reg.addr .LNK_CNT0 5))) (win1 2)).ctr 0 5 2 = 2 ^ 20 + 9 ∧
    (win1 2).block.eng.recent.ctrs = [] ∧ (eng (.counterWindowRead keeper (word (Reg.addr .LNK_CNT0 5))) (win1 4)).ctr 0 5 4 = 0 ∧
    (let s := withEng (win1 4) { (win1 4).block.eng with recent := { ctrs := [(ctrKey 0 5 4, 6, 3)] } }
     (eng (.counterWindowRead keeper (word (Reg.addr .LNK_CNT0 5))) s).ctr 0 5 4 = 3 ∧
     (eng (.counterWindowRead keeper (word (Reg.addr .LNK_CNT0 5))) s).sys.ans = (keeper.key, 0, 6)) := by decide +kernel
theorem witness_ecap : mayRead (on 10 [(.SUN_ECAP_CFG, 3, 0x100)]).block.eng keeper .SUN_ECAP_T 12 = true ∧ (on 10).block.eng.recent.ecap = [] ∧
    (eng (.ecapRead keeper 3) (withEng (on 10) ((on 10).block.eng.setFld F.SUN_ECAP_CFG_FRESH 3 1))).flag F.SUN_ECAP_CFG_FRESH 3 = false := by decide +kernel
def rcRegs : List Reg := [.TIK_EVCNT, .TIK_OVR_CNT, .SUN_LATECNT, .BRL_SPCNT, .THR_FCNT, .JX_HWCNT, .JX_ECCCNT, .LCK_CNT, .CND_CNT, .CWY_SATCNT, .CWY_DROPCNT]
theorem witness_read_clear : (rcRegs.all (fun r =>
    let s := on 10 [(r, 0, 0x10003)]
    mayRead s.block.eng keeper r 0 && decide ((eng (.readClear (.reg keeper (word (r.addr 0)))) s).sys.ans = (keeper.key, 0, 0x10003)) &&
      decide ((eng (.readClear (.reg keeper (word (r.addr 0)))) s).val r 0 = 0))) = true ∧ (on 10).block.eng.recent.rc = [] ∧ Reg.addr .THR_FCNT 0 < 2 ^ 20 ∧
    (let s := on 10 [(.THR_FCNT, 0, 9)]
     let s := withEng s { s.block.eng with recent := { rc := [(Reg.key .THR_FCNT 0 * 32, 5, 4)] } }
     mayRead s.block.eng keeper .THR_FCNT 0 = true ∧ (eng (.readClear (.reg keeper (word (Reg.addr .THR_FCNT 0)))) s).sys.ans = (keeper.key, 0, 5) ∧
     (eng (.readClear (.reg keeper (word (Reg.addr .THR_FCNT 0)))) s).val .THR_FCNT 0 = 4) := by decide +kernel

theorem witness_fire : mayWrite (on 10).block.eng keeper .CWY_FIRE 0 90 = true ∧ (on 10).block.eng.muted 90 = false ∧
    1 ≤ (on 10).block.eng.fld F.CWY_FLOOD_LIMIT 0 ∧
    (eng (.softwareFire keeper 90) (on 10)).cwy.inflight = [⟨90, 0, 10, BitVec.ofNat 80 (on 10).block.eng.t80, false⟩] ∧
    Tab.get 0 (eng (.softwareFire keeper 90) (on 10)).cwy.count 90 = 1 := by decide +kernel
theorem witness_unmute : mayWrite (setup [(.CWY_MUTE, 6, 0x81)]).block.eng .host .CWY_MUTE 6 1 = true ∧
    (eng (.unmute .host 6 1) (setup [(.CWY_MUTE, 6, 0x81)])).reg .CWY_MUTE 6 = 0x80 ∧
    (let s := setup [(.CWY_MUTE, 6, 0x83)]
     let s := withEng s { s.block.eng with recent := { bits := [(Reg.key .CWY_MUTE 6, 2)] }, cwy := { count := [(120, 9), (121, 8)] } }
     (eng (.unmute .host 6 3) s).reg .CWY_MUTE 6 = 0x82 ∧ (eng (.unmute .host 6 3) s).cwy.count = [(120, 0), (121, 8)]) := by decide +kernel
theorem witness_flood : (on 131072).block.eng.awake = true ∧ (eng .floodCountReset (on 131072)).cwy.count = [] ∧
    (eng .floodCountReset (withEng (on 131072) { (on 131072).block.eng with cwy := { count := [(90, 7)] }, recent := { fired := [(90, 1)] } })).cwy.count = [(90, 1)] ∧
    (eng .floodCountReset (on 131072)).tick.floodBase = 131072 := by decide +kernel
def flying : State := withEng (on 13) { regs (thr1 (fun x => { x with ev := [(2, 15)] })) [(.THR_EVCFG, 10, 0), (.THR_EVCFG, 17, 0)] with
  clk := { cycle := 13 }, cwy := { inflight := [⟨90, 0, 10, 0, false⟩] } }
/-- Inputs 2 of thread 1 and 1 of thread 2 subscribe channel 90. -/
def flying2 : State := withEng flying ((((flying.block.eng.setFld F.THR_EVCFG_EN 10 1).setFld F.THR_EVCFG_CH 10 90).setFld F.THR_EVCFG_EN 17 1).setFld
  F.THR_EVCFG_CH 17 90)
theorem witness_delivery : flying2.block.eng.awake = true ∧ flying2.block.eng.recent.was = [] ∧ subscribes flying2.block.eng 1 2 90 ∧
    subscribes flying2.block.eng 2 1 90 ∧ ¬subscribes flying2.block.eng 2 2 90 ∧ flying2.block.eng.cwy.inflight = [⟨90, 0, 10, 0, false⟩] ∧
    (eng (.channelDelivery 90) flying2).cwy.inflight = [] ∧ Tab.get 0 ((eng (.channelDelivery 90) flying2).getThr 1).ev 2 = 15 ∧
    Tab.get 0 ((eng (.channelDelivery 90) flying2).getThr 2).ev 1 = 1 ∧ Tab.get 0 ((eng (.channelDelivery 90) flying2).getThr 2).ev 2 = 0 := by
  refine ⟨by decide +kernel, by decide +kernel, ⟨by decide +kernel, by decide +kernel⟩, ⟨by decide +kernel, by decide +kernel⟩, ?_, by decide +kernel⟩
  intro h; exact absurd h.1 (by decide +kernel)

def tmr0 (u : Nat) (x : Timer) (l : List (Reg × Nat × Nat) := []) : State := mk ((regs eng0 l).setTmr u x)
theorem witness_timer_start : mayWrite (tmr0 9 {}).block.eng keeper .TMR_CTL 9 1 = true ∧
    ((eng (.timerStart keeper 9 1) (tmr0 9 {})).getTmr 9).cnt = 0x20000 ∧ ((eng (.timerStart keeper 9 1) (tmr0 9 {})).getTmr 9).run = true ∧
    (let s := withEng (tmr0 9 {}) (((tmr0 9 {}).block.eng.setFld F.TMR_CFG_LINKSTART 10 1).setFld F.TMR_CFG_LINKSTART 11 0)
     mayWrite s.block.eng keeper .TMR_CTL 8 1 = true ∧ ((eng (.timerStart keeper 8 1) s).getTmr 10).run = true ∧
     (eng (.timerStart keeper 8 1) s).getTmr 11 = {} ∧ (eng (.timerStart keeper 9 1) s).getTmr 10 = {}) := by decide +kernel
theorem witness_timer_stop : mayWrite (tmr0 9 { run := true }).block.eng keeper .TMR_CTL 9 2 = true ∧ mayWrite (tmr0 9 {}).block.eng keeper .TMR_CTL 9 4 = true ∧
    ((tmr0 9 { run := true }).block.eng.getTmr 9).act.1 ≠ 1 ∧ ((tmr0 9 {}).block.eng.getTmr 9).act.1 ≠ 1 ∧
    goes (.timerStop keeper 9 2) (tmr0 9 { run := true }) (done (tmr0 9 { run := true }) keeper
      ((tmr0 9 { run := true }).block.eng.setTmr 9 { run := false, act := (1, 3) })) = true ∧
    goes (.timerCont keeper 9 4) (tmr0 9 {}) (done (tmr0 9 {}) keeper ((tmr0 9 {}).block.eng.setTmr 9 { run := true, phase := 0, act := (1, 4) })) = true ∧
    mayWrite (tmr0 9 { run := true }).block.eng keeper .TMR_CTL 9 4 = true ∧
    goes (.timerCont keeper 9 4) (tmr0 9 { run := true }) (done (tmr0 9 { run := true }) keeper (tmr0 9 { run := true }).block.eng) = true ∧
    mayWrite (tmr0 9 { run := true, act := (1, 2) }).block.eng keeper .TMR_CTL 9 2 = true ∧
    mayWrite (tmr0 9 { run := true, act := (1, 2) }).block.eng keeper .TMR_CNT 9 5 = true ∧
    goes (.timerStop keeper 9 2) (tmr0 9 { run := true, act := (1, 2) }) (done (tmr0 9 { run := true, act := (1, 2) }) keeper
      (tmr0 9 { run := true, act := (1, 2) }).block.eng) = true ∧
    goes (.timerCountWrite keeper 9 5) (tmr0 9 { run := true, act := (1, 2) }) (done (tmr0 9 { run := true, act := (1, 2) }) keeper
      (tmr0 9 { run := true, act := (1, 2) }).block.eng) = true := by
  decide +kernel
theorem witness_timer_capture : mayWrite (tmr0 9 { caps := [1, 2] }).block.eng keeper .TMR_CTL 9 8 = true ∧ (tmr0 9 {}).block.eng.awake = true ∧
    (tmr0 9 {}).block.eng.underWide 9 = false ∧ (eng (.timerCaptureNow keeper 9 8) (tmr0 9 { cnt := 7 })).getTmr 9 = { cnt := 7, capAt := 1 } ∧
    ((eng (.timerCaptureNow keeper 9 8) (tmr0 9 { cnt := 7, caps := [1, 2] })).tmrCapEnd 9).getTmr 9 = { cnt := 7, capAt := 1, caps := [1, 7] } ∧
    ((eng (.timerCaptureNow keeper 9 8) (tmr0 9 { cnt := 7, caps := [1, 2] })).tmrCapEnd 9).flag F.TMR_STAT_OVER 9 = true ∧
    (((eng (.timerCaptureNow keeper 9 8) (tmr0 9 { cnt := 7 })).tmrCapEnd 9).getTmr 9).caps = [7] := by decide +kernel
theorem witness_timer_count : mayWrite (tmr0 9 {}).block.eng keeper .TMR_CNT 9 0xFFFFF = true ∧ mayWrite (tmr0 9 {}).block.eng keeper .TMR_GSTART 0 0x101 = true ∧
    goes (.timerCountWrite keeper 9 0xFFFFF) (tmr0 9 {}) (done (tmr0 9 {}) keeper ((tmr0 9 {}).block.eng.setTmr 9 { cnt := 0xFFFFF, setAt := 1 })) = true ∧
    (eng (.globalStart keeper 0x101) (tmr0 9 {})).sys.gstart = 1 ∧
    mayRead (tmr0 9 {}).block.eng keeper .TMR_CNT 9 = true ∧ (eng (.timerCountRead keeper 9) (tmr0 9 { cnt := 77 })).sys.ans = (keeper.key, 0, 77) ∧
    mayRead (tmr0 9 {}).block.eng keeper .TMR_CAP 9 = true ∧ (tmr0 9 {}).block.eng.underWide 9 = false ∧
    (eng (.timerCaptureRead keeper 9) (tmr0 9 { caps := [5, 6] })).sys.ans = (keeper.key, 0, 5) ∧
    (eng (.timerCaptureRead keeper 9) (tmr0 9 { caps := [5, 6] })).getTmr 9 = { caps := [6] } := by decide +kernel
/-- Unit 7 counts every cycle; the first after the start has come. -/
def tmr7 (c : Word) : State :=
  withEng (tmr0 7 { run := true, cnt := c }) { (regs (tmr0 7 { run := true, cnt := c }).block.eng [(.TMR_CMP, 7, 6)]).setFld F.TMR_CFG_SRC 7 1 with
    clk := { cycle := 1, runCyc := 1 } }
theorem witness_timer_increment : (tmr7 5).block.eng.tmrDue 7 = true ∧ (tmr7 5).block.eng.awake = true ∧ (tmr7 5).block.eng.flag F.TMR_CFG_WIDE 7 = false ∧
    ((tmr7 5).block.eng.getTmr 7).act.1 ≠ 2 ∧ (eng (.timerIncrement 7) (tmr7 5)).getTmr 7 = { run := true, cnt := 5, incAt := 2 } ∧
    (eng (.timerIncrement 7) (tmr7 5)).tmrDue 7 = true ∧
    (((eng (.timerIncrement 7) (tmr7 5)).tmrStep 7).getTmr 7).cnt = 6 ∧ ((eng (.timerIncrement 7) (tmr7 5)).tmrStep 7).flag F.TMR_STAT_MF 7 = true ∧
    (((eng (.timerIncrement 7) (tmr7 0xFFFFF)).tmrStep 7).getTmr 7).cnt = 0 ∧
    ((eng (.timerIncrement 7) (tmr7 0xFFFFF)).tmrStep 7).flag F.TMR_STAT_OF 7 = true := by decide +kernel
/-- The producer SUN_STEP (5) is mapped to channel 9. -/
def stepMapped : State := on 10 [(.CWY_PMAP, 5, 0x89), (.CWY_FLOOD, 0, 0x400)]
theorem witness_step_fires : mayWrite stepMapped.block.eng keeper .SUN_CTL 0 1 = true ∧ stepMapped.block.eng.clk.applied = 0 ∧
    stepMapped.block.eng.flag F.CWY_PMAP_EN 5 = true ∧ stepMapped.block.eng.fld F.CWY_PMAP_CH 5 = 9 ∧ stepMapped.block.eng.muted 9 = false ∧
    Tab.get 0 stepMapped.block.eng.cwy.last (4 * 9 + domEngine) ≠ 11 ∧ Tab.get 0 stepMapped.block.eng.cwy.unmuted 9 ≠ 11 ∧
    Tab.get 0 stepMapped.block.eng.cwy.count 9 + 1 ≤ stepMapped.block.eng.fld F.CWY_FLOOD_LIMIT 0 ∧
    (eng (.sundialStep keeper 1) stepMapped).cwy.inflight = [⟨9, 3, 10, BitVec.ofNat 80 stepMapped.block.eng.t80, false⟩] ∧
    (eng (.sundialStep keeper 1) stepMapped).cwy = (stepMapped.block.eng.produce 5 domEngine).cwy ∧
    (eng (.sundialStep keeper 1) stepMapped).flag F.SUN_STAT_STEPPED 0 = true ∧
    (eng (.sundialLoad keeper 2) stepMapped).cwy.inflight = [⟨9, 3, 10, BitVec.ofNat 80 stepMapped.block.eng.t80, false⟩] ∧
    (eng (.sundialRate keeper 3) stepMapped).cwy = stepMapped.block.eng.cwy := by decide +kernel

/-! ### Links, frames, cells -/

/-- Link 0 in a state and mode, at cycle 100. -/
def lk (mode st : Nat) (l : List (Reg × Nat × Nat) := []) (x : Link := {}) : State :=
  mk { regs (((eng0.setFld F.LNK_CFG_MODE 0 mode).setFld F.LNK_CTL_EN 0 (if st = 0 then 0 else 1)).setFld F.LNK_STAT_STATE 0 st) l with
    clk := { cycle := 100 }, links := [(0, x)] }
theorem witness_link_en : mayWrite (lk 1 0).block.eng keeper .LNK_CTL 0 1 = true ∧ (eng (.linkEnSet keeper 0 1) (lk 1 0)).linkState 0 = 1 ∧
    (eng (.linkEnSet keeper 0 1) (lk 1 0)).flag F.LNK_CTL_EN 0 = true ∧ goes (.linkEnSet keeper 0 1) (lk 1 2) (done (lk 1 2) keeper (lk 1 2).block.eng) = true ∧
    mayWrite (lk 1 2).block.eng keeper .LNK_CTL 0 0 = true ∧ (eng (.linkEnClear keeper 0 0) (lk 1 2)).linkState 0 = 0 ∧
    (eng (.linkEnClear keeper 0 0) (lk 1 2)).flag F.LNK_CTL_EN 0 = false := by decide +kernel
theorem witness_up_request : mayWrite (lk 1 3).block.eng keeper .LNK_CTL 0 3 = true ∧ (lk 1 3).block.eng.flag F.LNK_CTL_EN 0 = true ∧
    goes (.upRequest keeper 0 3) (lk 1 3) (done (lk 1 3) keeper ((lk 1 3).block.eng.setLink 0 { upReq := true })) = true ∧
    ((lk 1 1 [] { upReq := true }).block.eng.linkEvents 0).linkState 0 = 2 ∧
    ((lk 1 3 [] { upReq := true, expire := true, ing := { discard := true } }).block.eng.linkEvents 0).linkState 0 = 2 ∧
    (ing ((lk 1 3 [] { upReq := true, ing := { discard := true } }).block.eng.linkEvents 0) 0).discard = true ∧
    ((lk 1 3 [] { upReq := true }).block.eng.linkEvents 0).ctr 0 0 16 = 1 ∧
    ((lk 1 1 [] { upReq := true, enAt := 101 }).block.eng.linkEvents 0).linkState 0 = 1 := by decide +kernel
theorem witness_link_loss : mayWrite (lk 1 2).block.eng keeper .LNK_CTL 0 5 = true ∧
    goes (.linkLossWrite keeper 0 5) (lk 1 2) (done (lk 1 2) keeper ((lk 1 2).block.eng.setLink 0 { loss := 2 })) = true ∧
    ((lk 1 2 [] { loss := 2, upReq := true }).block.eng.linkEvents 0).linkState 0 = 3 ∧
    ((lk 1 2 [] { loss := 2 }).block.eng.linkEvents 0).fld F.LNK_STAT_LOSS_SRC 0 = 2 ∧
    ((lk 1 2 [(.LNK_HOLD, 0, 0)] { loss := 2 }).block.eng.linkEvents 0).linkState 0 = 1 ∧
    ((lk 1 1 [] { loss := 2, upReq := true }).block.eng.linkEvents 0).linkState 0 = 1 ∧ (lk 1 2).block.eng.awake = true ∧
    (lk 2 2).block.eng.linkMode 0 = 2 ∧ (lk 2 2).block.eng.flag F.LNK_CFG_REFOUT 0 = false ∧
    goes (.linkLossClock ⟨0, false⟩) (lk 2 2) (withEng (lk 2 2) ((lk 2 2).block.eng.setLink 0 { loss := 1 })) = true ∧
    goes (.linkLossClock ⟨0, true⟩) (lk 1 2) (withEng (lk 1 2) ((lk 1 2).block.eng.setLink 0 { loss := 4 })) = true ∧
    ((lk 1 2 [] { loss := 4 }).block.eng.linkEvents 0).fld F.LNK_STAT_LOSS_SRC 0 = 1 ∧
    (ing ((lk 1 2 [] { loss := 1, ing := { seq := some 4 } }).block.eng.linkEvents 0) 0).seq = none := by decide +kernel
theorem witness_training : (eng (.trainingTimeout 0) (lk 1 1 [(.LNK_TRAIN, 0, 3)] { ticks := 3 })).flag F.LNK_STAT_TRAIN_TO 0 = true ∧
    ((eng (.trainingTimeout 0) (lk 1 1 [(.LNK_TRAIN, 0, 3)] { ticks := 3 })).getLink 0).ticks = 0 ∧
    (eng (.trainingTimeout 0) (lk 1 1 [(.LNK_TRAIN, 0, 3)] { ticks := 3 })).linkState 0 = 1 ∧
    (lk 1 3).block.eng.running = false ∧
    goes (.flapHoldExpiry 0) (lk 1 3) (withEng (lk 1 3) ((lk 1 3).block.eng.setLink 0 { expire := true })) = true ∧
    ((lk 1 3 [] { expire := true }).block.eng.linkEvents 0).linkState 0 = 1 := by decide +kernel

/-- Link 0 with a switch state. -/
def swst (mode : Nat) (x : Link) (w : Switch) (l : List (Reg × Nat × Nat) := []) (c : Tab Cell := []) : State :=
  withEng (lk mode 2 l x) { (lk mode 2 l x).block.eng with sw := w, cells := c }
def fr0 : Frame := { head := 0, cells := 1, inPort := 1, cls := 3, len := 64, ended := true, written := 64, committed := true, queued := [0] }
theorem witness_flush :
    (let s := swst 1 { flush := [(7, 3), (8, 0)], flushAt := 100 } { frames := [(7, fr0)], queues := [(3, [7, 9])] }
     (eng (.flushRelease 0) s).queue 0 3 = [9] ∧ ((eng (.flushRelease 0) s).getLink 0).flush = [(8, 0)] ∧ (eng (.flushRelease 0) s).ctr 0 0 13 = 1) := by decide +kernel
def recs : Link := { tsi := [⟨1, 2, 3⟩, ⟨4, 5, 6⟩], tse := [⟨7, 8, 9⟩] }
theorem witness_ts_pop : mayWrite (lk 1 2 [] recs).block.eng keeper .LNK_TSCTL 0 1 = true ∧
    goes (.tsPopIngress keeper 0 1) (lk 1 2 [] recs) (done (lk 1 2 [] recs) keeper ((lk 1 2 [] recs).block.eng.setLink 0 { recs with tsi := [⟨4, 5, 6⟩] })) = true ∧
    goes (.tsPopEgress keeper 0 2) (lk 1 2 [] recs) (done (lk 1 2 [] recs) keeper ((lk 1 2 [] recs).block.eng.setLink 0 { recs with tse := [] })) = true := by
  decide +kernel

/-- Link 0 learns by MAC addresses; a miss goes to port 1. -/
def sw0 : State := withEng (lk 1 2) (linkUp 1 1 (regs ((lk 1 2).block.eng.setFld F.FWD_PCFG_KIND 0 1) [(.FWD_MISS_LO, 0, 2)]))
def fr1 : State := post (.frameStart 0 0x1A1B2 ⟨0, 0⟩) sw0
theorem witness_frame_start : sw0.block.eng.sw.free.voided = [] ∧ headOfFree sw0.block.eng.sw.free 0 ∧ sw0.block.eng.freeCells = 16384 ∧ (ing fr1.block.eng 0).seq = some 0 ∧ (ing fr1.block.eng 0).hdr = [0xA1, 0xB2] ∧
    (ing fr1.block.eng 0).n = 2 ∧ fr1.block.eng.reg .BSN_NEXTSEQ 0 = 1 ∧ (fr1.block.eng.cell 0).owner = .frame ∧ fr1.block.eng.sw.free.fresh = 1 ∧
    (fr1.block.eng.frame 0).map (fun f => (f.head, f.cells, f.len, f.inPort, f.ended)) = some (0, 1, 2, 0, false) ∧
    (eng (.frameStart 0 0x1A1B2 ⟨0, 0⟩) (lk 1 1)).ctr 0 0 9 = 1 ∧ (ing (eng (.frameStart 0 0x1A1B2 ⟨0, 0⟩) (lk 1 1)) 0).mid = true ∧
    goes (.discardRun 0 0x20000) (lk 1 2 [] { ing := { discard := true } }) (lk 1 2) = true ∧
    goes (.discardRun 0 0x5) (lk 1 2 [] { ing := { discard := true } }) (lk 1 2 [] { ing := { discard := true } }) = true := by
  refine ⟨by decide +kernel, .inr (.inl (by decide +kernel)), by decide +kernel⟩
/-- Six words later the next one holds the last byte of the addresses. -/
def words (k : Nat) (s : State) : State := (List.replicate k ()).foldl (fun s _ => post (.lookup 0 0x00304) s) s
def fr6 : State := words 5 fr1
def fr7 : State := post (.lookup 0 0x00304) fr6
theorem witness_lookup : fr6.block.eng.lastLookup 0 (hdrWith fr6.block.eng 0 0x00304) = some 14 ∧ (ing fr6.block.eng 0).n = 12 ∧
    (ing fr6.block.eng 0).looked = false ∧ (ing fr6.block.eng 0).reject = false ∧
    (fr6.block.eng.frame 0).map (fun f => (f.done, f.noVerdict, f.dueAt)) = some (false, false, none) ∧
    (ing fr7.block.eng 0).looked = true ∧ (ing fr7.block.eng 0).n = 14 ∧
    (fr7.block.eng.frame 0).map (fun f => (f.dueAt, f.committed, f.look)) =
      some (some 260, false, some { at' := 100, key := some (fr6.block.eng.frameKey 0 (hdrWith fr6.block.eng 0 0x00304)), tagged := false }) := by decide +kernel
/-- The look of frame 0 ends: a miss; a hit of entry 2 of the key's bucket. -/
def miss0 : Frame := { head := 0, cells := 1, len := 14, inPort := 0, cls := 0, dueAt := some 260, look := some { at' := 100, key := some (0x5A5, 3), tagged := true } }
def hit0 : Eng :=
  let e := fr7.block.eng.modFrame 0 (fun _ => miss0)
  { e with sw := { e.sw with fwd := [(4 * e.fwdBucket 0x5A5 + 2, { w0 := 0xAA000, key := 0x5A5, mask := 2 })] } }
def look0 : Look := { at' := 100, key := some (0x5A5, 3), tagged := true }
theorem witness_look_end : (fr7.block.eng.lookupEnd 0 miss0 look0).frame 0 =
      some { miss0 with verdict := missVerdict fr7.block.eng 0, look := some { look0 with ready := true, hit := none } } ∧
    fr7.block.eng.sw.fwd = [] ∧ ((hit0.lookupEnd 0 miss0 look0).frame 0).map (fun f => (f.verdict.trap, f.verdict.mask, f.verdict.cls)) = some (true, 2, 5) ∧
    ((hit0.lookupEnd 0 miss0 look0).frame 0).map (fun f => f.look) = some (some { look0 with ready := true, hit := some (4 * hit0.fwdBucket 0x5A5 + 2) }) ∧
    ((Tab.get {} (hit0.lookupEnd 0 miss0 look0).sw.fwd (4 * hit0.fwdBucket 0x5A5 + 2) : FwdEntry).w0.getLsbD 18 = true) := by
  decide +kernel
/-- The same at cycle 260. -/
def fr8 : State := withEng fr7 { fr7.block.eng.modFrame 0 (fun f => { f with verdict := missVerdict fr7.block.eng 0 }) with clk := { cycle := 260 } }
theorem witness_commit : (fr8.block.eng.frame 0).map (fun f => (f.override, f.recog, f.verdict.mask, f.verdict.trap, f.ended)) = some (none, false, 2, false, false) ∧
    fr8.block.eng.flag F.SLU_TBCFG_EN 0 = false ∧ fr8.block.eng.linkState 1 = 2 ∧ (fr8.block.eng.frame 0).map (fun f => (f.dueAt, f.committed, f.noVerdict)) = some (some 260, false, false) ∧ (fr8.block.eng.getLink 1).flush = [] ∧ (fr8.block.eng.getLink 1).flushAt < 268 ∧ fr8.block.eng.fld F.SLU_QUOTA_CELLS 8 = 0 ∧ fr8.block.eng.entriesUsed = 0 ∧
    (eng (.verdictCommit 0) fr8).queue 1 0 = [0] ∧
    ((eng (.verdictCommit 0) fr8).frame 0).map (fun f => (f.committed, f.cls, f.queued)) = some (true, 0, [1]) := by decide +kernel
def noPort : State := withEng fr8 (fr8.block.eng.modFrame 0 (fun f => { f with verdict := {} }))
theorem witness_commit_no_port : (eng (.verdictCommit 0) noPort).ctr 1 0 9 = 1 ∧ (eng (.verdictCommit 0) noPort).sw.queues = noPort.block.eng.sw.queues := by
  decide +kernel

/-- An open frame of 62 bytes whose CRC accumulator has taken two of the four bytes 0 of a right check. -/
def tail0 (crc : Nat) : State :=
  swst 1 { ing := { seq := some 0, n := 62, crc := crc, looked := true, hdr := List.replicate 62 0 } }
    { frames := [(0, { head := 0, cells := 1, len := 62, inPort := 0, cls := 0, dueAt := some 300 })] } [] [(0, { owner := .frame })]
theorem witness_frame_end :
    crc32 (crc32 0xFFFFFFFF [0, 0]) (twoOf 0x30000) = 0xDEBB20E3 ∧ (tail0 0).block.eng.recognises 0 (hdrWith (tail0 0).block.eng 0 0x30000) = false ∧
    (tail0 0).block.eng.val .LNK_MINLEN 0 = 64 ∧
    (let e := eng (.frameEnd 0 0x30000) (tail0 (crc32 0xFFFFFFFF [0, 0]))
     (ing e 0).seq = none ∧ (e.frame 0).map (fun f => (f.ended, f.len, f.bad)) = some (true, 64, false) ∧ e.ctr 0 0 0 = 1 ∧ e.ctr 0 0 1 = 64) ∧
    (let e := eng (.frameEnd 0 0x30000) (tail0 5)
     (ing e 0).seq = none ∧ (e.frame 0).map (fun f => (f.ended, f.len, f.bad)) = some (true, 64, true) ∧ e.ctr 0 0 4 = 1) := by decide +kernel
/-- A complete beat of 16 bytes waits in the slot of mover 0 at a round boundary. -/
def beat0 : State :=
  let s := swst 1 { ing := { seq := some 0, n := 40, beats := [⟨0, 16, [1, 2, 3, 4, 5, 6, 7, 8, 9, 10, 11, 12, 13, 14, 15, 16], false, 127⟩] } }
    { frames := [(0, { head := 3, cells := 1, len := 40, inPort := 0, cls := 0 })] } [] [(3, { owner := .frame })]
  withEng s { s.block.eng with clk := { cycle := 128 } }
theorem witness_beat_write : beat0.block.eng.frameCell { head := 3, cells := 1, len := 40, inPort := 0, cls := 0 } 16 = some 3 ∧
    (ing (eng (.beatWrite 0) beat0) 0).beats = [] ∧ ((eng (.beatWrite 0) beat0).frame 0).map (·.written) = some 32 ∧
    [399, 400, 415, 416].map (fun a => basinByte (post (.beatWrite 0) beat0).block.mem a) = [0, 1, 16, 0] := by decide +kernel

/-- Port 1 with a frame of class 3 at the head of its queues. -/
def tx0 (f : Frame) (q : Tab (List Nat)) (x : Link := {}) (c : Nat := 100) : State :=
  mk { linkUp 1 1 eng0 with clk := { cycle := c }, links := [(1, x)], sw := { frames := [(7, f)], queues := q }, cells := [(0, { owner := .frame, seq := 7 })] }
def fr2 : Frame := { fr0 with inPort := 0, queued := [1] }
def snd (f : Sending → Sending) : Link := { eg := some (f { seq := some 7, gen := none, cls := 3, startCyc := 90, started := true, rd := 64 }) }
theorem witness_tx_start :
    (let s := tx0 fr2 [(11, [7, 9])]
     heads s.block.eng 1 3 7 fr2 ∧ (s.block.eng.layer 1).st = 0 ∧ s.block.eng.schEn 1 = false ∧ s.block.eng.linkMode 1 = 1 ∧ s.block.eng.linkState 1 = 2 ∧
     (eng (.frameTxStart ⟨1, 3⟩) s).queue 1 3 = [9] ∧ ((eng (.frameTxStart ⟨1, 3⟩) s).frame 7).map (·.sending) = some [1] ∧
     ((eng (.frameTxStart ⟨1, 3⟩) s).getLink 1).eg = some { seq := some 7, gen := none, cls := 3, startCyc := 100 }) := by
  refine ⟨⟨by decide, ?_, ⟨[9], by decide +kernel⟩, by decide +kernel, by decide +kernel, by decide +kernel⟩, by decide +kernel⟩
  intro k h1 h2
  have h : ∀ k : Fin 8, 3 < k.val → (tx0 fr2 [(11, [7, 9])]).block.eng.queue 1 k.val = [] := by decide +kernel
  exact h ⟨k, h2⟩ h1
theorem witness_tx_begins :
    (let x := snd (fun x => { x with started := false, rd := 16 })
     let s := tx0 { fr2 with queued := [], sending := [1] } [] { x with freeCyc := 21 } 500
     (s.block.eng.layer 1).st = 0 ∧ 21 - 1 + 12 * byteCycles s.block.eng 1 ≤ 500 ∧
     ((eng (.frameTxStart ⟨1, 3⟩) s).getLink 1).eg = (snd (fun x => { x with rd := 16, startCyc := 500, phase := 3 })).eg ∧
     (s.block.eng.setLink 1 { x with freeCyc := 22 }).linkState 1 = 2 ∧
     ((eng (.frameTxStart ⟨1, 3⟩) (withEng s (s.block.eng.setLink 1 { x with freeCyc := 22 }))).getLink 1).eg = x.eg) := by decide +kernel
theorem witness_tx_end :
    (let s := tx0 { fr2 with queued := [], sending := [1] } [] (snd id) (90 + 72 * 40)
     (90 + (8 + fr2.len) * byteCycles s.block.eng 1 ≤ s.block.eng.clk.cycle) ∧
     ((eng (.frameTxEnd 1) s).getLink 1).eg = none ∧ ((eng (.frameTxEnd 1) s).getLink 1).freeAt = s.block.eng.t80 ∧
     (eng (.frameTxEnd 1) s).ctr 0 1 2 = 1 ∧ (eng (.frameTxEnd 1) s).ctr 0 1 3 = 64) := by decide +kernel
def onReed (e : Eng) : Eng := e.setFld F.LNK_CFG_MODE 1 3
theorem witness_bad_tail :
    (let s := tx0 { fr2 with bad := true, sending := [1] } [] (snd (fun x => { x with ct := true }))
     fr2.inPort / 8 = 1 / 8 ∧ goes (.badTail 1) s (withEng s (s.block.eng.setLink 1
       (snd (fun x => { x with ct := true, abort := true, tail := true, abortAt := 100 })))) = true ∧
     goes (.badTail 1) (withEng s (onReed s.block.eng)) (withEng s ((onReed s.block.eng).setLink 1
       (snd (fun x => { x with ct := true, abort := true, tail := true, abortAt := 100, buf := [0x80000] })))) = true ∧
     (let s := tx0 { fr2 with bad := true, sending := [1] } [] (snd (fun x => { x with ct := true, started := false }))
      ((eng (.badTail 1) s).getLink 1).eg = none ∧ (eng (.badTail 1) s).ctr 0 1 10 = 1)) := by decide +kernel
def late0 (c : Nat) : State := withEng (tx0 { fr2 with launch := some 5 } [(11, [7, 9])]) { (tx0 { fr2 with launch := some 5 } [(11, [7, 9])]).block.eng with
  clk := { cycle := 100, sun := BitVec.ofNat 100 c <<< 20 } }
theorem witness_deadline : (late0 (5 + 40 * 2 ^ 20)).block.eng.t80 = 5 + 2 * txClock (late0 6).block.eng 1 * 2 ^ 20 ∧
    (late0 6).block.eng.val .LNK_LATEMAX 1 = 0 ∧ (late0 6).block.eng.frame 7 = some { fr2 with launch := some 5 } ∧
    (eng (.launchDeadline 1) (late0 (5 + 40 * 2 ^ 20))).ctr 0 1 12 = 1 ∧ (eng (.launchDeadline 1) (late0 (5 + 40 * 2 ^ 20))).queue 1 3 = [9] := by decide +kernel
theorem witness_beat_read :
    (let x : Link := snd (fun x => { x with rd := 48 })
     let s := tx0 { fr2 with sending := [1] } [] x 38
     (s.block.eng.clk.cycle - s.block.eng.clk.roundBase) % 32 = 4 * (1 % 8) + 2 ∧ s.block.eng.frameCell { fr2 with sending := [1] } 48 = some 0 ∧
     (s.block.eng.cell 0).seq = 7 ∧ s.block.eng.ecc = [] ∧
     ((eng (.beatRead 1) s).getLink 1).eg = (snd (fun x => { x with rd := 64, out := List.replicate 16 0 })).eg ∧
     ((eng (.beatRead 1) (withEng s (onReed s.block.eng))).getLink 1).eg =
       (snd (fun x => { x with rd := 64, buf := List.replicate 7 0 ++ [0x30000] })).eg) := by decide +kernel

theorem witness_cell_release :
    (let s := tx0 { fr2 with done := true, relAt := 100, cells := 2 } []
     let s := withEng s (s.block.eng.setCell 0 { owner := .frame, seq := 7, next := some 5 })
     (eng (.cellChainRelease 7) s).sw.free.returned = [0] ∧ ((eng (.cellChainRelease 7) s).cell 0).owner = .free ∧
     (eng (.cellChainRelease 7) s).frame 7 = some { fr2 with done := true, relAt := 101, cells := 1, head := 5 }) ∧
    (eng (.cellChainRelease 7) (tx0 { fr2 with done := true, relAt := 100 } [])).frame 7 = none := by decide +kernel
/-- Bucket 3 is enabled at rate 7; bucket 4 is not. -/
def bucket0 : State := withEng (lk 1 2) { (regs (lk 1 2).block.eng [(.SLU_TBCFG, 3, 1), (.SLU_TBRATE, 3, 7), (.SLU_TBRATE, 4, 7)]) with
  sw := { buckets := [(3, 100), (4, 100)] } }
theorem witness_refill : (eng .tokenRefill bucket0).sw.refillAt = 4 ∧ Tab.get 0 (eng .tokenRefill bucket0).sw.buckets 3 = 107 ∧
    Tab.get 0 (eng .tokenRefill bucket0).sw.buckets 4 = 100 := by decide +kernel

/-! ### Threads and cells, the forwarding table, the Warden, schedule layers -/

/-- Switch state and cells with registers, at cycle 100. -/
def swr (w : Switch) (l : List (Reg × Nat × Nat) := []) (c : Tab Cell := []) (cyc : Nat := 100) : State :=
  mk { regs (linkUp 1 1 eng0) l with sw := w, cells := c, clk := { cycle := cyc } }
theorem witness_alloc : mayWrite (swr {}).block.eng keeper .BSN_ALLOC 0 1 = true ∧
    goes (.bsnAlloc keeper 1) (swr {}) (done (swr {}) keeper (withAllocs (swr {}).block.eng [{ why := .thread 1, n := 1, c7 := false, till := 103 }])) = true ∧
    mayWrite (swr {}).block.eng keeper .BSN_ALLOC 0 0x82 = true ∧
    (eng (.bsnAlloc keeper 0x82) (swr {})).sw.allocs = [{ why := .thread 1, n := 2, c7 := true, till := 104 }] := by decide +kernel
/-- One cell of three is taken: the next, and the refusal. -/
def part0 : Alloc := { why := .thread 1, n := 3, c7 := false, cells := [9], till := 105 }
theorem witness_alloc_step : (if part0.c7 then 0 < (swr {}).block.eng.freeCells else 4096 - (swr {}).block.eng.h7 < (swr {}).block.eng.freeCells) ∧
    (swr {}).block.eng.sw.free.pop = some (0, { fresh := 1 }) ∧
    ((swr {} [] [(9, { owner := .thread 1 })]).block.eng.allocStep part0).1 = { part0 with cells := [9, 0] } ∧
    ((swr {} [] [(9, { owner := .thread 1 })]).block.eng.allocStep part0).2.cells = [(0, { owner := .thread 1 }), (9, { owner := .thread 1, next := some 0 })] := by
  decide +kernel
def full0 : State := swr { free := { fresh := 16384, returned := [1, 2] } } [] [(9, { owner := .thread 1 })]
theorem witness_alloc_refused : full0.block.eng.freeCells ≤ 4096 - full0.block.eng.h7 ∧
    (full0.block.eng.allocStep part0).1 = { part0 with ok := some false, cells := [] } ∧
    (full0.block.eng.allocStep part0).2.sw.free = { front := [9], fresh := 16384, returned := [1, 2] } ∧
    ((full0.block.eng.allocStep part0).2.cell 9).owner = .free := by decide +kernel
def told (ok : Bool) (l : List Nat) : State := swr { allocs := [{ part0 with ok := some ok, cells := l, till := 100 }] }
theorem witness_alloc_done : (told true [9]).block.eng.sw.allocs.find? (fun x => decide (x.why = .thread 1)) = some { part0 with ok := some true, cells := [9], till := 100 } ∧
    (told true [9]).block.eng.awake = true ∧ (eng (.allocDone 1) (told true [9])).sw.allocs = [] ∧
    (eng (.allocDone 1) (told true [9])).flag F.BSN_AHEAD_VALID 1 = true ∧ (eng (.allocDone 1) (told true [9])).fld F.BSN_AHEAD_HEAD 1 = 9 ∧
    (eng (.allocDone 1) (told false [])).flag F.BSN_AHEAD_VALID 1 = false := by decide +kernel
def mine : Tab Cell := [(4, { owner := .thread 1 }), (5, { owner := .thread 1 })]
theorem witness_relink : mayWrite (swr {} [(.BSN_CHAIN0, 1, 4)] mine).block.eng keeper .BSN_CHAIN1 0 5 = true ∧
    goes (.chainRelink keeper 5) (swr {} [(.BSN_CHAIN0, 1, 4)] mine) (done (swr {} [(.BSN_CHAIN0, 1, 4)] mine) keeper
      ((swr {} [(.BSN_CHAIN0, 1, 4)] mine).block.eng.setCell 4 { owner := .thread 1, next := some 5 })) = true ∧
    mayWrite (swr {} [(.BSN_CHAIN0, 1, 4)] mine).block.eng keeper .BSN_CHAIN1 0 0x80000 = true ∧ (swr {} [] mine).block.eng.sw.drops = [] ∧
    goes (.chainRelink keeper 0x80000) (swr {} [(.BSN_CHAIN0, 1, 4)] mine) (done (swr {} [(.BSN_CHAIN0, 1, 4)] mine) keeper
      ((swr {} [(.BSN_CHAIN0, 1, 4)] mine).block.eng.setCell 4 { owner := .thread 1 })) = true := by decide +kernel
/-- Cells 4 and 5 as a chain of thread 1. -/
def pair : Tab Cell := [(4, { owner := .thread 1, next := some 5 }), (5, { owner := .thread 1 })]
theorem witness_bsn_release : mayWrite (swr {} [] pair).block.eng keeper .BSN_RELEASE 0 4 = true ∧
    chainOf (swr {} [] pair).block.eng 1 [4, 5] ∧
    goes (.bsnRelease keeper 4) (swr {} [] pair) (done (swr {} [] pair) keeper (withDrops (swr {} [] pair).block.eng [(101, [4, 5])])) = true ∧
    mayWrite (swr {} [] pair).block.eng keeper .BSN_RELEASE 0 7 = true ∧ ((swr {} [] pair).block.eng.cell 7).owner = .free ∧
    (eng (.bsnRelease keeper 7) (swr {} [] pair)).fld F.WRD_CNT1_DFREES 0 = 1 ∧ (eng (.bsnRelease keeper 7) (swr {} [] pair)).flag F.WRD_STAT_DFREE 0 = true := by
  refine ⟨by decide +kernel, ⟨⟨by decide +kernel, ?_⟩, by decide +kernel, ⟨by decide +kernel, ?_⟩, by decide +kernel⟩, by decide +kernel⟩ <;>
    exact fun d h => absurd h (by rw [show (swr {} [] pair).block.eng.sw.drops = [] from rfl]; simp)
theorem witness_drops_step :
    (let e := (swr { drops := [(100, [4, 5])] } [] pair).block.eng
     e.dropsStep.sw.drops = [(100, [5])] ∧ e.dropsStep.sw.free = { returned := [4] } ∧ (e.dropsStep.cell 4).owner = .free) ∧
    (swr { drops := [(100, [5])] } [] pair).block.eng.dropsStep.sw.drops = [] := by decide +kernel
def inj0 : State := swr {} [(.BSN_INJ1, 1, 4 * 64 + 3 * 8), (.BSN_INJ2, 1, 128), (.BSN_INJ3, 1, 2), (.BSN_NEXTSEQ, 0, 77)] mine
theorem witness_inject : mayWrite inj0.block.eng keeper .BSN_INJGO 0 1 = true ∧ inj0.block.eng.fld F.BSN_INJ1_HEAD 1 = 4 ∧ inj0.block.eng.fld F.BSN_INJ1_CLASS 1 = 3 ∧
    inj0.block.eng.linkState 1 = 2 ∧ inj0.block.eng.entriesUsed = 0 ∧
    (eng (.frameInject keeper 1) inj0).queue 1 3 = [77] ∧ (eng (.frameInject keeper 1) inj0).reg .BSN_NEXTSEQ 0 = 78 ∧
    ((eng (.frameInject keeper 1) inj0).frame 77).map (fun f => (f.head, f.cells, f.len, f.queued, f.ended)) = some (4, 1, 128, [1], true) ∧
    ((eng (.frameInject keeper 1) inj0).cell 4).owner = .frame := by decide +kernel
def trap1 : State := swr { traps := [[7, 4, 1, 3, 64], [8, 5, 1, 3, 64]] } [(.BSN_TRAPTID, 0, 1)] mine
theorem witness_trap_pop : mayRead trap1.block.eng keeper .BSN_TRAP0 0 = true ∧ (eng (.trapPop keeper) trap1).sw.traps = [[8, 5, 1, 3, 64]] ∧
    (eng (.trapPop keeper) trap1).cells = mine := by decide +kernel

/-- Key 5 is staged; the entry holds port 1. -/
def fwd0 (op : Nat) (t : Tab FwdEntry) (clr : Bool := false) : State :=
  swr { fwdOp := some (op, clr, 84), fwd := t } [(.FWD_ENT0, 0, 0xE6000), (.FWD_ENT1, 0, 5), (.FWD_ENT5, 0, 2)]
def bkt : Nat := 4 * (fwd0 1 []).block.eng.fwdBucket 5
def ent (k : Nat) : FwdEntry := ⟨0xC2000, k, 9⟩
theorem witness_fwd_start : mayWrite (swr {} [(.FWD_ENT4, 0, 4)]).block.eng keeper .FWD_OP 0 0x11 = true ∧
    (eng (.fwdInsert keeper 0x11) (swr {} [(.FWD_ENT4, 0, 4)])).sw = { fwdOp := some (1, true, 100) } ∧
    mayWrite (swr {}).block.eng keeper .FWD_OP 0 4 = true ∧ (eng (.fwdRead keeper 4) (swr {})).sw = { fwdOp := some (4, false, 100) } := by decide +kernel
theorem witness_fwd_insert : keyStaged (fwd0 1 []).block.eng = 5 ∧
    (let e := eng .fwdOpResult (fwd0 1 [(bkt, ent 1)])
     fwdEntry e (bkt + 1) = ⟨0xA6000, 5, 2⟩ ∧ fwdEntry e bkt = ent 1 ∧ e.fld F.FWD_OSTAT_RESULT 0 = 0 ∧ e.sw.fwdOp = none ∧ e.fld F.FWD_IDX_INDEX 0 = (bkt + 1) % 8192) ∧
    (let e := eng .fwdOpResult (fwd0 1 [(bkt, ent 1), (bkt + 1, ent 5)])
     fwdEntry e (bkt + 1) = ⟨0xA6000, 5, 2⟩ ∧ e.fld F.FWD_OSTAT_RESULT 0 = 1) ∧
    (let s := fwd0 1 [(bkt, ent 1), (bkt + 1, ent 2), (bkt + 2, ent 3), (bkt + 3, ent 4)]
     (eng .fwdOpResult s).sw.fwd = s.block.eng.sw.fwd ∧ (eng .fwdOpResult s).fld F.FWD_OSTAT_RESULT 0 = 2) := by decide +kernel
theorem witness_fwd_delete :
    (let e := eng .fwdOpResult (fwd0 2 [(bkt, ent 1), (bkt + 1, ent 5)])
     (fwdEntry e (bkt + 1)).w0.getLsbD 19 = false ∧ fwdEntry e bkt = ent 1 ∧ e.fld F.FWD_OSTAT_RESULT 0 = 0) ∧
    (eng .fwdOpResult (fwd0 2 [(bkt, ent 1)])).fld F.FWD_OSTAT_RESULT 0 = 3 ∧ (eng .fwdOpResult (fwd0 3 [(bkt, ent 1)])).fld F.FWD_OSTAT_RESULT 0 = 3 := by decide +kernel
theorem witness_fwd_find :
    (let e := eng .fwdOpResult (fwd0 3 [(bkt + 1, ent 5)] true)
     e.reg .FWD_ENT0 0 = 0xC2000 ∧ e.reg .FWD_ENT5 0 = 9 ∧ e.fld F.FWD_IDX_INDEX 0 = (bkt + 1) % 8192 ∧ (fwdEntry e (bkt + 1)).w0.getLsbD 18 = false) ∧
    (let s := fwd0 4 [(3, ent 6)]
     let s := withEng s (regs s.block.eng [(.FWD_IDX, 0, 3)])
     (eng .fwdOpResult s).reg .FWD_ENT1 0 = 6 ∧ (eng .fwdOpResult s).reg .FWD_ENT0 0 = 0xC2000 ∧ (eng .fwdOpResult s).sw.fwd = s.block.eng.sw.fwd) := by decide +kernel
def note0 : State := swr { notices := [[1, 2, 3, 4, 5], [6, 7, 8, 9, 10]] } [(.FWD_CLSTID, 0, 1)]
theorem witness_notice : mayRead note0.block.eng keeper .FWD_NOTE0 0 = true ∧ (eng (.noticePop keeper) note0).sw.notices = [[6, 7, 8, 9, 10]] ∧
    ((eng (.noticePop keeper) note0).getLatch 1).notice = [2, 3, 4, 5] := by decide +kernel

def fr5 (c : Nat) (d : Bool) : Frame := { head := 0, cells := 1, inPort := 0, cls := 0, dueAt := some c, committed := d, verdict := { mask := 2, cls := 4 } }
def ovr0 (act c : Nat) (d : Bool) : State := swr { frames := [(7, fr5 c d)] } [(.FWD_CLSTID, 0, 1), (.FWD_OVR1, 0, act * 2 ^ 15 + 5 * 2 ^ 17), (.FWD_OVR2, 0, 6)]
theorem witness_override : mayWrite (ovr0 2 120 false).block.eng keeper .FWD_OVR0 0 7 = true ∧ (ovr0 2 120 false).block.eng.fld F.FWD_OVR1_ACT 0 = 2 ∧
    (eng (.overridePorts keeper 7) (ovr0 2 120 false)).frame 7 = some { fr5 120 false with override := some (2, { mask := 6, cls := 5, trap := false }) } ∧
    (eng (.overrideDrop keeper 7) (ovr0 1 120 false)).frame 7 = some { fr5 120 false with override := overriding (ovr0 1 120 false).block.eng (fr5 120 false) 1 } ∧
    (eng (.overrideKeep keeper 7) (ovr0 0 120 false)).frame 7 = some (fr5 120 false) ∧
    (eng (.overrideTrap keeper 7) (ovr0 3 120 false)).frame 7 = some { fr5 120 false with override := overriding (ovr0 3 120 false).block.eng (fr5 120 false) 3 } ∧
    (eng (.overrideDrop keeper 7) (ovr0 1 100 false)).fld F.FWD_OVRSTAT_RESULT 0 = 1 ∧ (eng (.overrideDrop keeper 7) (ovr0 1 120 true)).ctr 1 0 3 = 1 ∧
    (eng (.overrideDrop keeper 7) (ovr0 1 100 false)).frame 7 = some (fr5 100 false) ∧
    (eng (.overrideDrop keeper 6) (ovr0 1 100 false)).fld F.FWD_OVRSTAT_RESULT 0 = 2 := by decide +kernel

theorem witness_warden : mayWrite (swr {}).block.eng keeper .WRD_CTL 0 3 = true ∧ (eng (.wardenNow keeper 3) (swr {})).sw.warden = { pass := some 100, lastStart := 100 } ∧
    (eng (.wardenNow keeper 3) (swr { warden := { pass := some 90 } })).fld F.WRD_SKIPS_COUNT 0 = 1 ∧
    (eng (.wardenNow keeper 3) (swr { warden := { pass := some 90 } })).sw.warden = { pass := some 90 } ∧
    (swr {} [] [] 65536).block.eng.flag F.WRD_CTL_EN 0 = true ∧
    goes .auditTimeout (swr {} [] [] 65536) (withEng (swr {} [] [] 65536) { (swr {} [] [] 65536).block.eng with sw := { warden := { pass := some 65536, lastStart := 65536 } } }) =
      true := by decide +kernel
/-- Cycle c of a pass: cells 0 and 1 are free and in the free list, 2 in neither, 3 in use and in the list, 4 in use without a holder. -/
def audit0 (c : Nat) : State := swr { warden := { pass := some 100, dfrees := 3 }, free := { fresh := 6, returned := [1, 0, 3] } } []
  [(3, { owner := .thread 2 }), (4, { owner := .frame, seq := 9 }), (5, { owner := .frame, seq := 8, suspect := some 8 })] (100 + c)
theorem witness_audit_step :
    (audit0 2).block.eng.sw.free.has 2 = false ∧ (audit0 3).block.eng.sw.free.has 3 = true ∧ (audit0 4).block.eng.sw.free.has 4 = false ∧
    (audit0 4).block.eng.liveCells = [] ∧
    (audit0 2).block.eng.auditStep.sw.free.returned = [1, 0, 3, 2] ∧ (audit0 2).block.eng.auditStep.fld F.WRD_CNT2_LOST 0 = 1 ∧
    (audit0 3).block.eng.auditStep.sw.free.voided = [3] ∧ (audit0 3).block.eng.auditStep.fld F.WRD_CNT2_CROSS 0 = 1 ∧
    (audit0 4).block.eng.auditStep.cell 4 = { owner := .frame, seq := 9, suspect := some 9 } ∧
    (audit0 5).block.eng.auditStep.sw.free.returned = [1, 0, 3, 5] ∧ (audit0 5).block.eng.auditStep.fld F.WRD_CNT1_LEAKS 0 = 1 ∧
    ((audit0 5).block.eng.auditStep.cell 5).owner = .free := by decide +kernel
theorem witness_audit : (audit0 16384).block.eng.awake = true ∧ (eng .auditPassEnd (audit0 16384)).sw.warden = {} ∧
    (eng .auditPassEnd (audit0 16384)).reg .WRD_AUDITS 0 = 1 ∧ (eng .auditPassEnd (audit0 16384)).sw.free.returned = [1, 0, 3] := by decide +kernel

/-- The layer of link 1, selected by the Keeper. -/
def sch0 (y : Layer) (l : List (Reg × Nat × Nat) := []) (c : Nat := 100) (w : Switch := {}) (b : Tab SchBuf := []) (k : Tab Cell := []) : State :=
  mk { regs (linkUp 1 1 eng0) ((.SCH_LSEL, 0, 1) :: l) with sch := { layers := [(1, y)], bufs := b, store := [(5, [1, 2, 3])] }, sw := w, cells := k, clk := { cycle := c, sun := BitVec.ofNat 100 (c * 2 ^ 41) } }
theorem witness_sch_entry : mayWrite (sch0 {} [(.SCH_ESEL, 0, 6), (.SCH_ENT0, 0, 9)]).block.eng keeper .SCH_EOP 0 1 = true ∧
    (eng (.schEntryWrite keeper 1) (sch0 {} [(.SCH_ESEL, 0, 6), (.SCH_ENT0, 0, 9)])).sch.store = [(5, [1, 2, 3]), (6, [9, 0, 0])] ∧
    (sch0 {} [(.SCH_ESEL, 0, 5)]).block.eng.schEntry 5 = [1, 2, 3] ∧
    (eng (.schEntryRead keeper 2) (sch0 {} [(.SCH_ESEL, 0, 5)])).reg .SCH_ENT2 0 = 3 := by decide +kernel
theorem witness_row_apply : (sch0 {}).block.eng.place keeper .SCH_LCTL 0 = 1 ∧ mayWrite (sch0 {}).block.eng keeper .SCH_LCTL 0 4 = true ∧
    (sch0 {}).block.eng.rowSetOk 1 (rowsNamed (sch0 {}).block.eng 1) (sch0 {}).block.eng.tick.set = true ∧
    goes (.rowSetApply keeper 4) (sch0 {}) (done (sch0 {}) keeper ((sch0 {}).block.eng.setLayer 1 { check := some (rowsNamed (sch0 {}).block.eng 1, 119, true) })) = true := by
  decide +kernel
def rows1 : RowSet := ⟨5, 0, 2⟩
/-- A pending set whose take-over is not due with EN = 0, since its checks end in this cycle; one whose take-over is due. -/
def notYet : State := sch0 { pend := some (rows1, 1600, 0) }
def dueSet : State := sch0 { pend := some (rows1, 0, 0) }
theorem witness_row_cancel : mayWrite notYet.block.eng keeper .SCH_LCTL 0 8 = true ∧ notYet.block.eng.takeoverDue 1 = false ∧
    goes (.rowSetCancel keeper 8) notYet (done notYet keeper (notYet.block.eng.setLayer 1 {})) = true ∧ dueSet.block.eng.takeoverDue 1 = true ∧
    (eng (.rowSetCancel keeper 8) dueSet).layer 1 = { force := some rows1 } := by decide +kernel
/-- The same with slack 1 in force, ticks running. -/
def sch1 (y : Layer) (l : List (Reg × Nat × Nat) := []) (st : List (Nat × List Word) := []) (b : Tab SchBuf := []) (w : Switch := {}) : State :=
  let s := sch0 y ((.TIK_STAT, 0, 2) :: l) 100 w b
  withEng s { s.block.eng with tick := { set := { s := 1 } }, sch := { s.block.eng.sch with store := st } }
theorem witness_schedule_en : mayWrite (sch1 { force := some rows1 }).block.eng keeper .SCH_LCTL 0 1 = true ∧
    ((eng (.scheduleEnSet keeper 1) (sch1 { force := some rows1 })).layer 1).st = 2 ∧ ((eng (.scheduleEnSet keeper 1) (sch1 { force := some rows1 })).layer 1).enter = true ∧
    (let s := sch1 { force := some rows1 }
     let s := withEng s ((s.block.eng.setFld F.SCH_LCFG_SYNC 1 1).setFld F.FWD_PCFG_KIND 1 1)
     mayWrite s.block.eng keeper .SCH_LCTL 0 1 = true ∧ ((eng (.scheduleEnSet keeper 1) s).layer 1).st = 1) ∧
    (eng (.scheduleEnClear keeper 0) (sch0 { st := 2 } [(.SCH_LCTL, 1, 1)])).layer 1 = { st := 2, offDue := true, offAt := 101 } ∧
    mayWrite (sch0 { st := 2 } [(.SCH_LCTL, 1, 1)]).block.eng keeper .SCH_LCTL 0 0 = true := by decide +kernel
theorem witness_row_checks :
    (eng (.rowSetChecksEnd 1) (sch0 { check := some (rows1, 100, true) })).layer 1 = { pend := some (rows1, 1600, 0) } ∧
    (sch0 {}).block.eng.t125 = 1600 ∧ (sch0 {}).block.eng.takeBoundary 1 rows1 = 0 ∧
    (eng (.rowSetChecksEnd 1) (sch0 { check := some (rows1, 100, false) })).layer 1 = {} ∧
    (eng (.rowSetChecksEnd 1) (sch0 { check := some (rows1, 100, false) })).flag F.SCH_LSTAT_APPLY_ERR 1 = true ∧
    goes (.rowSetTakeEffect 1) dueSet (withEng dueSet (dueSet.block.eng.setLayer 1 { force := some rows1 })) = true ∧
    (let s := sch0 { force := some ⟨7, 0, 1⟩, pend := some (rows1, 0, 0), d := -127040 } [(.SCH_LCTL, 1, 1)]
     s.block.eng.flag F.SCH_LCTL_EN 1 = true ∧ s.block.eng.firstCheck 1 rows1 0 ≤ s.block.eng.t125 ∧
     (eng (.rowSetTakeEffect 1) s).layer 1 = { force := some rows1, d := -127040, prev := some (⟨7, 0, 1⟩, 0) }) := by decide +kernel

def com0 : State := sch0 {} [(.SCH_BSEL, 0, 6), (.SCH_BHEAD, 1, 4), (.SCH_BLEN, 1, 128), (.SCH_BCFG, 6, 0x1001), (.BSN_NEXTSEQ, 0, 9)] 100 {} [] mine
theorem witness_buffer : com0.block.eng.place keeper .SCH_BCTL 0 = 6 ∧ mayWrite com0.block.eng keeper .SCH_BCTL 0 1 = true ∧ mayWrite com0.block.eng keeper .SCH_BCTL 0 2 = true ∧
    goes (.bufferClear keeper 2) com0 (done com0 keeper (com0.block.eng.setSchBuf 6 {})) = true ∧
    com0.block.eng.flag F.SCH_BCFG_SRC 6 = false ∧ (eng (.bufferCommit keeper 1) com0).schBuf 6 = { seq := some 9, ready := true, commitAt := 100 } ∧
    ((eng (.bufferCommit keeper 1) com0).frame 9).map (fun f => (f.head, f.cells, f.len, f.cls, f.buffer)) = some (4, 1, 128, 7, [6]) := by decide +kernel

/-- A running layer in state MASTER whose next window, at 1920 units of 125 ps, has the entry (30, w1, w2). -/
def winx (w1 w2 : Nat) (b : Tab SchBuf := []) (w : Switch := {}) : State :=
  sch1 { st := 3, live := true, force := some rows1 } [(.SCH_LCTL, 1, 1)] [(5, [30, word w1, word w2])] b w
def sent (q : Option Nat) (g : Option GenFrame) : Sending := { seq := q, gen := g, cls := 7, startCyc := 0, launch := some (1920 * 2 ^ 17) }
theorem witness_window_exclusive :
    (let s := winx 0x40000 6 [(6, { seq := some 9, ready := true })] { frames := [(9, { head := 4, cells := 1, len := 64, ended := true, inPort := 31, cls := 7, buffer := [6] })] }
     nextStart s.block.eng 1 = 1920 ∧ entType (nextEntry s.block.eng 1) = 1 ∧ entBuf (nextEntry s.block.eng 1) = 6 ∧
     s.block.eng.windowsRun 1 = true ∧ s.block.eng.t125 = 1600 ∧
     ((eng (.windowCheck 1) s).getLink 1).handed = [sent (some 9) none] ∧ ((eng (.windowCheck 1) s).layer 1).w = 1 ∧
     ((eng (.windowCheck 1) s).frame 9).map (fun f => (f.sending, f.launch)) = some ([1], some (1920 * 2 ^ 17))) := by decide +kernel
theorem witness_window_null :
    (let s := winx 0x40000 6
     (s.block.eng.schBuf 6).ready = false ∧ (eng (.windowCheck 1) s).ctr 3 1 2 = 1 ∧ ((eng (.windowCheck 1) s).layer 1).w = 1 ∧
     ((eng (.windowCheck 1) s).getLink 1).handed = [sent none (some ⟨s.block.eng.genBytes 1 false 0 0 6 1920, false⟩)]) ∧
    (let s := winx 0xC0000 0
     ((eng (.windowCheck 1) s).getLink 1).handed = [sent none (some ⟨s.block.eng.genBytes 1 true 0 0 0 1920, true⟩)]) := by decide +kernel
/-- A window whose start has passed is not run. -/
theorem witness_window_skipped :
    (let s := winx 0x40000 6
     let s := withEng s { s.block.eng with clk := { cycle := 130, sun := BitVec.ofNat 100 (130 * 2 ^ 41) } }
     (s.block.eng.layer 1).pend = none ∧ s.block.eng.windowsRun 1 = true ∧ nextStart s.block.eng 1 < s.block.eng.t125 ∧
     (eng (.windowCheck 1) s).ctr 3 1 13 = 1 ∧ ((eng (.windowCheck 1) s).layer 1).w = 1 ∧ ((eng (.windowCheck 1) s).layer 1).skipped = [(0, 0)]) := by decide +kernel
theorem witness_window_queue :
    (let f : Frame := { head := 4, cells := 1, len := 64, ended := true, inPort := 0, cls := 7, queued := [1] }
     let s := winx 0x40000 6 [] { frames := [(9, f)], queues := [(15, [9])] }
     let s := withEng s ((s.block.eng.setFld F.SCH_BCFG_SRC 6 1).setFld F.SCH_BCFG_LINK 6 1)
     f.eligible = true ∧ s.block.eng.queue 1 7 = [9] ∧ entBuf (nextEntry s.block.eng 1) = 6 ∧
     ((eng (.windowCheck 1) s).getLink 1).handed = [sent (some 9) none] ∧ ((eng (.windowCheck 1) s).layer 1).w = 1 ∧
     (eng (.windowCheck 1) s).queue 1 7 = []) := by decide +kernel

/-- A reference, received 5 units after the start of grid frame 0, waits in the LISTEN layer of link 1; `al` is ALIGN. -/
def ref0 : Layer := { st := 1, force := some rows1, refRx := some (List.replicate 40 0, 5 <<< 17) }
def refs (y : Layer) (al : Nat) : State := let s := sch1 y []; withEng s (s.block.eng.setFld F.SCH_LCFG_ALIGN 1 al)
def refEv : Layer := { ref0 with evRef := true }
theorem witness_reference :
    goes (.referenceReceive 1) (refs ref0 1) (withEng (refs ref0 1) ((refs ref0 1).block.eng.setLayer 1 refEv)) = true ∧ (refs ref0 1).block.eng.awake = true ∧
    (refs refEv 1).block.eng.linkState 1 = 2 ∧ (refs refEv 1).block.eng.gridFrame (refs refEv 1).block.eng.t125 = some 0 ∧
    framesNear (refs refEv 1).block.eng 0 = [0, 1] ∧ refLcc (refs refEv 1).block.eng 1 (List.replicate 40 0) = 0 ∧
    refOff (refs refEv 1).block.eng 1 rows1 5 0 0 = 5 ∧ 5 < (refOff (refs refEv 1).block.eng 1 rows1 5 0 1).natAbs ∧
    (((refs refEv 1).block.eng.schEvents 1).layer 1).st = 4 ∧ (((refs refEv 1).block.eng.schEvents 1).layer 1).d = 5 ∧
    (((refs refEv 1).block.eng.schEvents 1).layer 1).ccoff = 0 ∧ (((refs refEv 1).block.eng.schEvents 1).layer 1).refRx = none ∧
    ((refs refEv 1).block.eng.schEvents 1).ctr 3 1 1 = 1 := by decide +kernel
theorem witness_reference_unaligned :
    (((refs refEv 0).block.eng.schEvents 1).layer 1).st = 4 ∧ (((refs refEv 0).block.eng.schEvents 1).layer 1).d = 0 ∧
    (let e := regs (refs refEv 0).block.eng [(.SCH_LOFFMAX, 1, 0)]
     ((e.schEvents 1).layer 1).st = 5) ∧
    (let y := { refEv with d := 32768 }
     let o := refOff (refs y 1).block.eng 1 rows1 5 0 1
     o.natAbs = 98299 ∧ (refOff (refs y 1).block.eng 1 rows1 5 0 0) = -32763 ∧ (((refs y 1).block.eng.schEvents 1).layer 1).st = 4) ∧
    (let y := { refEv with d := -32767, refRx := some (List.replicate 40 0, 1 <<< 17) }
     (((refs y 1).block.eng.schEvents 1).layer 1).st = 4) := by decide +kernel
/-- EN written 0 in this cycle, and a link that is not UP, come before a reference. -/
theorem witness_before : (({ refEv with offAt := 101 } : Layer).offAt = 100 + 1) ∧
    (((refs { refEv with offAt := 101 } 1).block.eng.schEvents 1).layer 1) = { ref0 with refRx := none, offAt := 101 } ∧
    (let e := (refs { refEv with evMiss := true } 1).block.eng.setFld F.LNK_STAT_STATE 1 1
     e.linkState 1 = 1 ∧ (e.schEvents 1).layer 1 = ref0) := by decide +kernel
theorem witness_listen :
    goes (.listenTimerExpiry 1) (sch1 { st := 1, listen := some 0 }) (withEng (sch1 { st := 1 }) ((sch1 { st := 1 }).block.eng.setLayer 1 { st := 1, listen := some 0, evExpiry := true })) = true ∧
    (let e := (sch1 { st := 1, listen := some 0, evExpiry := true }).block.eng
     e.fld F.SCH_LCFG_MPRI 1 = 15 ∧ ((e.schEvents 1).layer 1).st = 1 ∧ ((e.schEvents 1).layer 1).listen = some 17 ∧ e.fld F.SCH_LCFG_LISTEN 1 = 2) ∧
    (let e := (sch1 { st := 1, listen := some 0, evExpiry := true }).block.eng.setFld F.SCH_LCFG_MPRI 1 3
     ((e.schEvents 1).layer 1).st = 3 ∧ ((e.schEvents 1).layer 1).listen = none) := by decide +kernel
/-- Window 1 of the frame begins at 640; a FOLLOWER has settled none. -/
def miss9 (m : Nat) (ev : Bool) : State :=
  sch1 { st := 4, live := true, force := some rows1, missRun := m, evMiss := ev } [(.SCH_LCTL, 1, 1)] [(5, [0, 0xC0000, 0]), (6, [10, 0x40000, 1])]
theorem witness_ref_miss :
    goes (.refWindowMiss 1) (miss9 0 false) (withEng (miss9 0 true) ((miss9 0 true).block.eng.setLayer 1 ((miss9 0 true).block.eng.layer 1))) = true ∧
    ((miss9 0 true).block.eng.rxWindow 1 (miss9 0 true).block.eng.t125).map (fun x => (x.1, x.2.1)) = some (0, 1) ∧
    (miss9 0 true).block.eng.windowsRun 1 = true ∧ ((miss9 0 true).block.eng.layer 1).skipped = [] ∧ ((miss9 0 true).block.eng.layer 1).refDone = 0 ∧
    ((miss9 0 true).block.eng.schEvents 1).ctr 3 1 7 = 1 ∧ (((miss9 0 true).block.eng.schEvents 1).layer 1).refDone = 1 ∧
    (((miss9 0 true).block.eng.schEvents 1).layer 1).st = 4 ∧ (((miss9 2 true).block.eng.schEvents 1).layer 1).st = 1 ∧
    (miss9 2 true).block.eng.fld F.SCH_LCFG_MISSMAX 1 = 3 := by decide +kernel
/-- The second grid frame has begun. -/
def grid0 (y : Layer) : State :=
  let s := sch1 y []
  withEng s { s.block.eng with clk := { cycle := 4100, sun := 4100 * 2 ^ 41 } }
theorem witness_grid : (grid0 {}).block.eng.gridFrame (grid0 {}).block.eng.t125 = some 1 ∧
    ((eng (.gridFrameBoundary 1) (grid0 { st := 2, offDue := true })).layer 1).st = 0 ∧ ((eng (.gridFrameBoundary 1) (grid0 { st := 2, offDue := true })).layer 1).offDue = false ∧
    ((eng (.gridFrameBoundary 1) (grid0 { st := 2, enter := true, force := some rows1 })).layer 1).live = true ∧
    ((eng (.gridFrameBoundary 1) (grid0 { st := 2, enter := true, force := some rows1 })).layer 1).j0 = 1 ∧
    ((eng (.gridFrameBoundary 1) (grid0 { st := 2, enter := true, force := some rows1 })).layer 1).st = 2 ∧
    goes (.gridFrameBoundary 1) (grid0 { st := 1, listen := some 3 }) (withEng (grid0 { st := 1, listen := some 3 })
      ((grid0 { st := 1, listen := some 3 }).block.eng.setLayer 1 { st := 1, fb := 1, listen := some 2 })) = true := by decide +kernel

/-! ### Reeds and coders -/

/-- Reed 0 of link 0 runs the word w at address 5 in cycle 100. -/
def rs (w : Nat) (f : Reed → Reed := id) (l : List (Reg × Nat × Nat) := []) (x : Link := {}) : State :=
  mk { regs eng0 ((.REED_PINS, 0, 0xFFFF) :: (.LNK_BIND, 0, 0x210) :: (.COD_POLY0, 0, 0x11DB7) :: (.COD_POLY1, 0, 0x04C) :: (.COD_SEED0, 0, 0x12345) ::
      (.COD_SEED1, 0, 0xFFF) :: (.REED_DIVI, 0, 4) :: l) with
    clk := { cycle := 100 }, links := [(0, x)],
    reeds := [(0, f { st := 2, pc := 5, bank0 := [(5, word w)], rxw := 0x12345, txw := 0xF0F0F, qa := 0x0A5C3, qb := 0x81003, crc := 0xABCDEF01, atime := 2 ^ 60 })] }

def rd (s : State) (k : Nat) : Reed := (arrived s).reed k
def gO (s : State) (c : Nat) (r : Reed) : Reed := goOn (arrived s) c r
def issuesB (s : State) (k : ReedId) (w : Word) : Bool := @decide (issues (arrived s) k w) (by unfold issues; infer_instance)
def isWordB (o : ReedOp) (w : Word) : Bool := @decide (o.isWord w) (by cases o <;> (dsimp only [ReedOp.isWord]; infer_instance))
def readyB (s : State) (w : Word) : ReedOp → Bool
  | .sin => @decide (ReedOp.ready s.block.eng 0 w (rd s 0) .sin) (by dsimp only [ReedOp.ready]; infer_instance)
  | .sout => @decide (ReedOp.ready s.block.eng 0 w (rd s 0) .sout) (by dsimp only [ReedOp.ready, mayDrive]; infer_instance)
  | .waite => decide ((rd s 0).ev ≠ 0)
  | .setpLevel | .setpEnable => (s.block.eng.reg .REED_PINS 0).getLsbD (fieldOf w 12 9)
  | .setpMasked | .setpEnables => (List.range 16).all (fun p => !(rd s 0).qa.getLsbD p || (s.block.eng.reg .REED_PINS 0).getLsbD p)
  | .pullm => (rd s 0).mbx.any (fun x => decide (x.2 < s.block.eng.clk.cycle))
  | .postPin => decide ((rd s 0).acts.length < 4) && (s.block.eng.reg .REED_PINS 0).getLsbD (fieldOf w 12 9)
  | .postOstart | .postFire => decide ((rd s 0).acts.length < 4)
  | _ => true
def op (o : ReedOp) (w : Nat) (f : Reed → Reed := id) (l : List (Reg × Nat × Nat) := []) : Bool :=
  let s := rs w f l
  issuesB s 0 (word w) && isWordB o (word w) && readyB s (word w) o &&
    goes (o.cmd 0) s (withEng s ((arrived s).setReed 0 (gO s 1 (o.does (arrived s) 0 (word w) (rd s 0)))))
theorem witness_reed_nop : op .nop 0 = true := by decide +kernel
def ib (r : Reed) : Reed := { r with istage := [true, false, true, true, false, true], ipath := [(97, [true]), (99, [false])] }
theorem witness_reed_sin : op .sin 0x09000 ib = true ∧ op .sin 0x09000 ib [(.REED_CFG, 0, 0x90)] = true ∧ op .sin 0x09000 ib [(.REED_CFG, 0, 0x10)] = true ∧
    op .sin 0x08C00 ib [(.REED_CFG, 0, 0x4080)] = true := by decide +kernel
theorem witness_reed_sout : op .sout 0x11000 = true ∧ op .sout 0x11000 (fun r => { r with markOut := 1 }) [(.REED_CFG, 0, 0x8)] = true ∧
    op .sout 0x10C00 id [(.REED_CFG, 0, 0x148)] = true := by decide +kernel
theorem witness_reed_moves : op .mov 0x1F400 = true ∧ op .mov 0x1FC00 = true ∧ op .ldi 0x25FFF = true ∧ op .ldh 0x2FFC0 = true := by decide +kernel
theorem witness_reed_logic : op .and 0x34C00 = true ∧ op .or 0x34C80 = true ∧ op .xor 0x34D00 = true ∧ op .not 0x34F80 = true := by decide +kernel
theorem witness_reed_arith : op .add 0x34D80 = true ∧ op .sub 0x34E00 = true ∧ op .shl 0x34E80 = true ∧ op .shr 0x34F00 = true ∧
    op .shl 0x34A80 (fun r => { r with qa := 21 }) = true ∧ op .shr 0x34B00 (fun r => { r with qa := 21 }) = true ∧ op .shi 0x3C980 = true ∧ op .shi 0x3D980 = true := by
  decide +kernel
theorem witness_reed_waite : op .waite 0x58000 (fun r => { r with ev := 3 }) = true := by decide +kernel
theorem witness_reed_setp : op .setpLevel 0x60700 = true ∧ op .setpMasked 0x62000 = true ∧ op .setpEnable 0x64600 = true ∧ op .setpEnables 0x66000 = true := by
  decide +kernel
theorem witness_reed_pullm : op .pullm 0x74000 (fun r => { r with mbx := some (9, 99) }) = true := by decide +kernel
theorem witness_reed_crc : op .init 0x90000 = true ∧ op .feed 0x928E0 = true ∧ op .feed 0x928E0 id [(.COD_CRCCFG, 0, 15)] = true := by decide +kernel
theorem witness_reed_time : op .tld 0xA0000 (fun r => { r with capt := 0x123456789 }) = true ∧ op .tld 0xA2000 (fun r => { r with flt := 0x123456789 }) = true ∧
    op .tld 0xA4000 = true ∧ op .tld 0xA6000 (fun r => { r with tset := 0x123400000 }) = true ∧ op .tadd 0xA8FFF = true ∧ op .tadd 0xA9003 = true ∧
    op .tadd 0xAE800 (fun r => { r with qa := 0xFFFFE }) = true := by decide +kernel
theorem witness_reed_post : op .postPin 0xB0700 = true ∧ op .postOstart 0xB2000 (fun r => { r with frame := some (some 7) }) = true ∧ op .postFire 0xB4005 = true ∧
    op .mark 0xB8000 (fun r => { r with capt := 99 }) = true ∧ op .mark 0xBC000 = true := by decide +kernel
/-- At TOP: BOTTOM next; with a swap pending, ENTRY of the other bank. -/
def atTop (r : Reed) : Reed := { r with wrap0 := 0x22C5, wrap1 := 0x31234, bank1 := [(3, 9)] }
theorem witness_reed_wrap : op .mov 0x1F400 atTop = true ∧ op .mov 0x1F400 (fun r => { atTop r with swap := true }) = true ∧
    (rd (post (.reedMov 0) (rs 0x1F400 atTop)) 0).pc = 11 := by decide +kernel

/-- The reed goes to r, nothing else changes. -/
def reedGoes (c : Instr) (s : State) (r : Reed) : Bool := goes c s (withEng s ((arrived s).setReed 0 r))
theorem witness_reed_jump : issuesB (rs 0x4002A) 0 0x4002A = true ∧
    reedGoes (.reedJmp 0) (rs 0x4002A) { rd (rs 0x4002A) 0 with pc := 42, ready := 101 } = true ∧
    reedGoes (.reedJmp 0) (rs 0x4082A) (gO (rs 0x4082A) 1 (rd (rs 0x4082A) 0)) = true ∧
    reedGoes (.reedJmp 0) (rs 0x4782A (fun r => { r with late := true })) { rd (rs 0x4782A) 0 with pc := 42, ready := 101 } = true ∧
    reedGoes (.reedJmp 0) (rs 0x42D6A) (gO (rs 0x42D6A) 1 (rd (rs 0x42D6A) 0)) = false := by decide +kernel
theorem witness_reed_jump_pin : reedGoes (.reedJmp 0) (rs 0x42AAA id [] { pins3 := 0x20 }) { rd (rs 0x42AAA id [] { pins3 := 0x20 }) 0 with pc := 42, ready := 101 } = true ∧
    jmpHolds (rs 0x42AAA id [] { pins3 := 0x20 }).block.eng 0 (rd (rs 0) 0) 5 5 = true := by decide +kernel
theorem witness_reed_djnz : reedGoes (.reedDjnz 0) (rs 0x4802A) { rd (rs 0x4802A) 0 with qa := 0x0A5C2, pc := 42, ready := 101 } = true ∧
    reedGoes (.reedDjnz 0) (rs 0x4C02A (fun r => { r with qb := 1 })) (gO (rs 0x4C02A) 1 { rd (rs 0x4C02A) 0 with qb := 0 }) = true := by decide +kernel
theorem witness_reed_waits : reedGoes (.reedNop 0) (rs 0x9) { rd (rs 0x9) 0 with waitCode := 10, waitUntil := 110 } = true ∧
    reedGoes (.reedWaitp 0) (rs 0x52000) { rd (rs 0x52000) 0 with waitCode := 3 } = true := by decide +kernel
theorem witness_reed_fire : (let s := rs 0xC0005
    let e := eng (.reedFire 0) s
    s.block.eng.muted 5 = false ∧ Tab.get 0 s.block.eng.cwy.last 20 ≠ 101 ∧ Tab.get 0 s.block.eng.cwy.unmuted 5 ≠ 101 ∧
    Tab.get 0 s.block.eng.cwy.count 5 + 1 ≤ s.block.eng.fld F.CWY_FLOOD_LIMIT 0 ∧ e.reed 0 = gO s 1 (rd s 0) ∧ e.flag F.CWY_CHCFG_DECL 5 = true ∧
    e.cwy.inflight = s.block.eng.cwy.inflight ++ [⟨5, 0, 100, BitVec.ofNat 80 s.block.eng.t80, false⟩]) := by decide +kernel
def stopped0 (e : Eng) (cause : Nat) : Bool := @decide (stoppedWith e 0 cause) (by unfold stoppedWith; infer_instance)
theorem witness_reed_stop : stopped0 (eng (.reedStopInsn 0) (rs 0xC8000 ib)) 1 = true ∧ stopped0 (eng (.reedStopInsn 0) (rs 0xD0000 ib)) 3 = true := by decide +kernel

theorem witness_reed_pushf : (eng (.reedPushf 0) (rs 0x6B000)).reed 0 = gO (rs 0x6B000) 1 { rd (rs 0x6B000) 0 with fpush := [0x81003] } ∧
    issuesB (rs 0x6B000) 0 0x6B000 = true ∧ ({ fifo := [5], fpush := [6], tsetNext := some 4 } : Reed).endCycle true = { fifo := [5, 6], tset := 4 } := by decide +kernel
/-- Link 0 in REED mode, UP, its RXR and TXR reed 0. -/
def rlk (w : Nat) (f : Reed → Reed := id) (x : Link := {}) : State :=
  withEng (rs w f [] x) (linkUp 0 3 ((rs w f [] x).block.eng.setReg .LNK_BIND 0 0x210))
theorem witness_reed_mark :
    reedGoes (.reedMark 0) (rlk 0xBC000) (gO (rlk 0xBC000) 1 { rd (rlk 0xBC000) 0 with markOut := 1 }) = true ∧
    reedGoes (.reedMark 0) (rlk 0xB8000 (fun r => { r with capt := 99 })) (gO (rlk 0xB8000) 1 { rd (rlk 0xB8000) 0 with bank0 := [(5, 0xB8000)], capt := 99, markIn := 99 }) =
      true := by decide +kernel
theorem witness_reed_pushs : (let s := rlk 0x7A040 (fun r => { r with markIn := 77 })
    let e := eng (.reedPushs 0) s
    s.block.eng.rxLink 0 = some 0 ∧ s.block.eng.linkState 0 = 2 ∧ issuesB s 0 0x7A040 = true ∧ s.block.eng.sw.free = {} ∧ (ing s.block.eng 0).beats = [] ∧ 2 ≤ s.block.eng.val .LNK_MAXLEN 0 ∧ 0 < s.block.eng.freeCells ∧
    (e.reed 0) = gO s 1 { rd s 0 with markIn := 0 } ∧ (ing e 0).seq = some 0 ∧ (ing e 0).sof = 77 ∧ (ing e 0).hdr = twoOf 0x0A5C3) := by decide +kernel
def snd0 (l : List Word) (st : Bool) : Link := { eg := some { seq := some 4, gen := none, startCyc := 90, cls := 2, started := st, buf := l } }
theorem witness_reed_pulls : (let s := rlk 0x84000 id (snd0 [0x12233, 0x24455] false)
    let e := eng (.reedPulls 0) s
    s.block.eng.txLink 0 = some 0 ∧ (e.getLink 0).eg = some { seq := some 4, gen := none, startCyc := 90, cls := 2, started := true, buf := [0x24455] } ∧
    (e.reed 0) = gO s 1 { rd s 0 with qa := 0x12233, first := true, frame := some none }) ∧
    (let s := rlk 0x84000 id (snd0 [0x84455] true)
    let e := eng (.reedPulls 0) s
    (e.getLink 0).eg = none ∧ (e.reed 0) = gO s 1 { rd s 0 with qa := 0x84455, last := true, bad := true }) := by decide +kernel
theorem witness_reed_drst : (let s := rs 0x9A000 ib [(.REED_PHASE, 0, 3)]
    let e := eng (.reedDrst 0) s
    (rd s 0).dset = false ∧ s.block.eng.flag F.REED_CLK_ISRC 0 = false ∧ (e.reed 0).istage = [] ∧ (e.reed 0).ipath = [] ∧ (e.reed 0).iside.per = 4 * 2 ^ 20 ∧
    (e.reed 0).iside.next = 100 * 2 ^ 20 + 3 * 2 ^ 16 ∧ (e.reed 0).oside = (rd s 0).oside ∧ (e.reed 0).pc = 6) := by decide +kernel

/-- Reed 0 runs CODE of QA on slot 3 with C = 1, the slot in mode m. -/
def cs (m param v : Nat) (c : Coder) : State :=
  rs 0x8A700 (fun r => { r with qa := word v, slots := [(3, c)] }) [(.COD_MODE, 3, m), (.COD_PARAM, 3, param), (.COD_DDIVI, 0, 4), (.COD_CRCCFG, 0, 0x3F)]
/-- The statement on the issue of CODE in mode m. -/
def codeDoes (m param v : Nat) (c : Coder) : Bool :=
  match (codeCmd 0)[m]? with
  | some (cmd, f) =>
    let s := cs m param v c
    let r := rd s 0
    issuesB s 0 0x8A700 && goes cmd s (withEng s (s.block.eng.setReed 0 { r with code := some ⟨101, 3, true, f param v c, r.iside.last⟩, ready := 102 }))
  | none => false
theorem witness_code : (List.range 17).all (fun m => if m = 7 ∨ m = 8 then true else codeDoes m 0x7 0x0B5
    { lock := some 0, lev := true, rd := true, ones := 4, mode := 0, run := 4, prevBit := true }) = true := by decide +kernel
/-- CODE of QA on slot 3 in its second cycle. -/
def pend0 (c : Bool) (req : Option Nat) : CodePend := ⟨100, 3, c, { cdo := 0x77, ck := true, cv := true, feed := [true, false, true], st := { lev := true }, req := req }, 96 * 2 ^ 20⟩
def ends (p : CodePend) : Eng := ((cs 13 0 5 {}).block.eng.setReed 0 { (cs 13 0 5 {}).block.eng.reed 0 with code := some p })
def ended0 : Reed := { rd (cs 13 0 5 {}) 0 with cdo := 0x77, cv := true, ck := true, slots := [(3, { lev := true })], code := none }
theorem witness_code_end : Tab.put ((cs 13 0 5 {}).block.eng.reed 0).slots 3 { lev := true } = [(3, { lev := true })] ∧
    (ends (pend0 true none)).codeEnd 0 = (ends (pend0 true none)).setReed 0 (nextWord (ends (pend0 true none))
      { ended0 with crc := crcFeed 32 0x4C11DB7 true 0xABCDEF01 [true, false, true] }) ∧
    (((ends (pend0 false none)).codeEnd 0).reed 0).crc = 0xABCDEF01 := by decide +kernel
theorem witness_code_request : ((codeCanTx 0 0xC0001 {}).req, (codeCanTx 0 0xE0001 {}).req, (codeCanTx 0 0xF0001 {}).req) = (some 4, some 6, some 7) ∧
    (((ends (pend0 true (some 4))).codeEnd 0).reed 0).dset = true ∧ (((ends (pend0 true (some 6))).codeEnd 0).reed 0).hold = true ∧
    (((ends (pend0 true (some 7))).codeEnd 0).reed 0).hold = false ∧ (((ends (pend0 true (some 5))).codeEnd 0).reed 0).dset = false ∧
    (((ends (pend0 true (some 0))).codeEnd 0).reed 0).dset = false ∧ (((ends (pend0 true (some 0))).codeEnd 0).reed 0).cdo = 0x77 := by decide +kernel
theorem witness_coders : (let o := codeAsyncTx 0x13 0xA5 {}
    (codeAsyncRx 0x13 o.cdo {}).cdo = 0xA5 ∧ (codeAsyncRx 0x13 o.cdo {}).cv = false) ∧
    (codeManRx 0 (codeManTx 0 0xA5 {}).cdo { lock := some 0 }).cdo = 0xA5 ∧ (codeB4b5Rx 0 (codeB4b5Tx 0 0xA5 {}).cdo { lock := some 0 }).cdo = 0xA5 ∧
    (codeB8b10Rx 0 (codeB8b10Tx 0 0xA5 {}).cdo { lock := some 0 }).cdo = 0xA5 ∧ (codeNrziRx 7 (codeNrziTx 7 0xA5 {}).cdo {}).cdo = 0xA5 ∧
    (codeHdlcTx 0 1 { ones := 4 }).ck = true ∧ (codeHdlcTx 0 0 { ones := 4 }).st.ones = 0 := by decide +kernel

/-- Reed 0 in state st, written by the Keeper. -/
def rk (st : Nat) (f : Reed → Reed := id) (l : List (Reg × Nat × Nat) := []) : State :=
  rs 0x1F400 (fun r => f { r with st := st, wrap0 := 0x22C5, wrap1 := 0x31234, bank1 := [(3, 9)] }) l
def startedB (s : State) (e : Eng) (k : Nat) : Bool := @decide (started s.block.eng e k) (by unfold started; infer_instance)
def exchangedB (r x : Reed) : Bool := @decide (exchanged r x) (by unfold exchanged; infer_instance)
theorem witness_reed_start : mayWrite (rk 0).block.eng keeper .REED_CTL 0 1 = true ∧ startedB (rk 0) (eng (.reedStart keeper 0 1) (rk 0)) 0 = true ∧
    startedB (rk 1) (eng (.reedStart keeper 0 1) (rk 1)) 0 = true ∧ goes (.reedStart keeper 0 1) (rk 2) (done (rk 2) keeper (rk 2).block.eng) = true ∧
    mayWrite (rk 0).block.eng keeper .REED_CTL 0 2 = true ∧
    goes (.reedArm keeper 0 2) (rk 0) (done (rk 0) keeper ((rk 0).block.eng.setReed 0 { (rk 0).block.eng.reed 0 with st := 1 })) = true ∧
    mayWrite (rk 2).block.eng keeper .REED_CTL 0 4 = true ∧ stopped0 (eng (.reedHalt keeper 0 4) (rk 2 ib)) 2 = true ∧ stopped0 (eng (.reedHalt keeper 0 4) (rk 1)) 2 = true := by
  decide +kernel
theorem witness_reed_halt_order : (rk 2 (fun r => { r with startAt := 101, startOf := (0, 7) })).block.eng.clk.cycle + 1 = 101 ∧
    ((eng (.reedHalt keeper 0 4) (rk 2 (fun r => { r with startAt := 101, startOf := (0, 7) }))).reed 0).st = 0 ∧
    ((eng (.reedHalt keeper 0 4) (rk 2 (fun r => { r with startAt := 101, startOf := (0, 7) }))).reed 0).pc = 7 ∧
    goes (.reedStart keeper 0 1) (rk 0 (fun r => { r with haltAt := 101 })) (done (rk 0 (fun r => { r with haltAt := 101 })) keeper
      (rk 0 (fun r => { r with haltAt := 101 })).block.eng) = true := by decide +kernel
theorem witness_reed_swap : mayWrite (rk 0).block.eng keeper .REED_CTL 0 8 = true ∧
    exchangedB ((rk 0).block.eng.reed 0) ((eng (.reedSwap keeper 0 8) (rk 0)).reed 0) = true ∧
    exchangedB ((rk 1).block.eng.reed 0) ((eng (.reedSwap keeper 0 8) (rk 1)).reed 0) = true ∧
    (eng (.reedSwap keeper 0 8) (rk 2)).reed 0 = { (rk 2).block.eng.reed 0 with swap := true, swapAt := 101 } ∧
    mayWrite (rk 2).block.eng keeper .REED_CTL 0 16 = true ∧ exchangedB ((rk 0).block.eng.reed 0) ((eng (.reedForce keeper 0 16) (rk 0)).reed 0) = true ∧
    (eng (.reedForce keeper 0 16) (rk 2)).reed 0 = { (rk 2).block.eng.reed 0 with force := true, swap := false } := by decide +kernel
theorem witness_reed_force : (let s := rk 2 (fun r => { r with force := true, waitCode := 3 })
    let e := s.block.eng.forceEnd 0
    exchangedB (s.block.eng.reed 0) (e.reed 0) = true ∧ (e.reed 0).pc = 0x31 ∧ (e.reed 0).waitCode = 0 ∧ (e.reed 0).force = false ∧ (e.reed 0).ready = 102 ∧
    e.flag F.REED_STAT_ABANDON 0 = true) ∧
    ((((rk 2 (fun r => { r with force := true, ready := 107 })).block.eng.forceEnd 0).reed 0).ready = 107) ∧
    (rk 2).block.eng.forceEnd 0 = (rk 2).block.eng := by decide +kernel
theorem witness_reed_sync : (let s := withEng (rk 1 id [(.REED_CFG, 0, 0x20)]) ((rk 1 id [(.REED_CFG, 0, 0x20)]).block.eng.setReed 3 { st := 1 })
    let e := eng (.reedSyncGo keeper 0 0x200) s
    mayWrite s.block.eng keeper .REED_SYNC 0 0x200 = true ∧ startedB s e 0 = true ∧ e.reed 3 = s.block.eng.reed 3) := by decide +kernel
def fif (r : Reed) : Reed := { r with fifo := [7, 8], mbx := some (3, 90) }
theorem witness_reed_mailbox : mayWrite (rk 2).block.eng keeper .REED_MBX 0 5 = true ∧
    goes (.reedMbxWrite keeper 0 5) (rk 2) (done (rk 2) keeper ((rk 2).block.eng.setReed 0 { (rk 2).block.eng.reed 0 with mbx := some (5, 100) })) = true ∧
    (eng (.reedMbxWrite keeper 0 5) (rk 2 fif)).reed 0 = (rk 2 fif).block.eng.reed 0 ∧ (eng (.reedMbxWrite keeper 0 5) (rk 2 fif)).flag F.REED_STAT_MB_OVF 0 = true ∧
    (let s := rk 2 fif [(.REED_OWN, 0, 1)]
     mayRead s.block.eng keeper .REED_FIFO 0 = true ∧ (eng (.reedFifoRead keeper 0) s).sys.ans = (keeper.key, 0, 7) ∧ (eng (.reedFifoRead keeper 0) s).reed 0 = { s.block.eng.reed 0 with fifo := [8], fpops := 1 }) := by
  decide +kernel
theorem witness_reed_program : (let s := rk 2 id [(.REED_PADDR, 0, 63)]
    mayWrite s.block.eng keeper .REED_PDATA 0 0x77 = true ∧ (eng (.programWrite keeper 0 0x77) s).fld F.REED_PADDR_ADDR 0 = 0 ∧
    (eng (.programWrite keeper 0 0x77) s).reed 0 = { s.block.eng.reed 0 with bank1 := Tab.put (s.block.eng.reed 0).bank1 63 0x77 }) ∧
    (let s := rk 2 id [(.REED_TSET, 1, 0x00003), (.REED_TSET, 2, 1), (.REED_TSET, 3, 2)]
    mayWrite s.block.eng keeper .REED_TSET 0 0xE0001 = true ∧
    (eng (.tsetCommit keeper 0 0xE0001) s).reed 0 = { s.block.eng.reed 0 with tsetNext := some (0xE0000 + 3 * 2 ^ 20 + 2 ^ 40 + 2 ^ 61) }) := by decide +kernel
/-- Slots 3 and 5 of reed 0 with states; slot 3 selected by the Keeper. -/
def sl (r : Reed) : Reed := { r with slots := [(3, { lev := true }), (5, { rd := true })] }
def slk : State := rk 0 sl [(.COD_SEL, 0, 3)]
theorem witness_reed_slots : mayWrite slk.block.eng keeper .COD_CTL 0 1 = true ∧ slk.block.eng.place keeper .COD_CTL 0 = 0 ∧ slk.block.eng.fld F.COD_SEL_SLOT 0 = 3 ∧
    ((eng (.slotReset keeper 1) slk).reed 0).slots = [(5, { rd := true })] ∧
    goes (.slotResetAll keeper 2) slk (done slk keeper (slk.block.eng.setReed 0 { slk.block.eng.reed 0 with slots := [] })) = true ∧
    mayWrite slk.block.eng keeper .COD_MODE 0 9 = true ∧ slk.block.eng.place keeper .COD_MODE 0 = 3 ∧ (eng (.codModeWrite keeper 9) slk).fld F.COD_MODE_MODE 3 = 9 ∧ (eng (.codModeWrite keeper 9) slk).reg .COD_PARAM 3 = 0 ∧
    Tab.get {} ((eng (.codModeWrite keeper 9) slk).reed 0).slots 3 = {} := by decide +kernel

/-- Reed 0 of link 0 runs; its next input and output ticks fall into cycle 100. -/
def tks (f : Reed → Reed := id) (l : List (Reg × Nat × Nat) := []) : State :=
  rs 0x52A00 (fun r => f { r with iside := { next := 100 * 2 ^ 20 + 3 * 2 ^ 16, per := 5 * 2 ^ 20 }, oside := { next := 100 * 2 ^ 20, per := 4 * 2 ^ 20 + 7 } }) l
theorem witness_input_tick : (let s := tks id [(.REED_CFG, 0, 0x30000)]
    let e := eng (.inputTick 0 0x8 3) s
    s.block.eng.reedLink 0 = some 0 ∧ (e.getLink 0).pins = 8 ∧ (e.reed 0).ipath = [(100, [true])] ∧ (e.reed 0).lastSample = true ∧
    (e.reed 0).iside = { next := 105 * 2 ^ 20 + 3 * 2 ^ 16, last := 100 * 2 ^ 20 + 3 * 2 ^ 16, per := 5 * 2 ^ 20 }) := by decide +kernel
theorem witness_output_tick : (let s := tks (fun r => { r with ostage := [true, false], levels := 0x11, enables := 0x20 }) [(.REED_CFG, 0, 0x1400)]
    let e := eng (.outputTick 0 0) s
    (e.reed 0).ostage = [false] ∧ (e.reed 0).levels = 0x31 ∧ (e.reed 0).oside = { next := 104 * 2 ^ 20 + 7, last := 100 * 2 ^ 20, per := 4 * 2 ^ 20 + 7 }) := by decide +kernel
/-- A clock pin chosen for the input side: pin 4, rising edge. -/
theorem witness_input_pin : (let s := tks id [(.REED_CLK, 0, 0x11)]
    let s := withEng s (((s.block.eng.setFld F.REED_CLK_ISRC 0 1).setFld F.REED_CLK_IPIN 0 4).setFld F.REED_CLK_IEDGE 0 0)
    let e := eng (.inputTick 0 0x10 6) s
    s.block.eng.flag F.REED_CLK_ISRC 0 = true ∧ s.block.eng.fld F.REED_CLK_IPIN 0 = 4 ∧ (s.block.eng.getLink 0).chg ≠ 1607 ∧
    (s.block.eng.levelsWith 0 0x10).testBit 4 = true ∧ (s.block.eng.reed 0).iside.after = 0 ∧
    (e.reed 0).ipath.length = 1 ∧ (e.reed 0).iside.last = 1606 * 2 ^ 16) := by decide +kernel
theorem witness_reed_wait_end : (let s := tks (fun r => { r with waitCode := 3 })
    let e := eng (.reedWaitEnd 0 0 15) s
    fieldOf (Tab.get 0 (s.block.eng.reed 0).bank0 5) 14 13 = 1 ∧ fieldOf (Tab.get 0 (s.block.eng.reed 0).bank0 5) 12 9 = 5 ∧
    (e.reed 0).hit.map (fun x => (x.1, x.2.1)) = some (100, 1615 * 2 ^ 16)) ∧
    (let s := tks (fun r => { r with waitCode := 4, ev := 2 })
    ((eng (.reedWaitEnd 0 0 15) s).reed 0).ev = 1 ∧ ((eng (.reedWaitEnd 0 0 15) s).reed 0).waitCode = 0 ∧ ((eng (.reedWaitEnd 0 0 15) s).reed 0).pc = 6) ∧
    (let s := tks (fun r => { r with waitCode := 3, hit := some (98, 1568 * 2 ^ 16, 4321) })
     s.block.eng.waitpEnd 0 = s.block.eng.setReed 0 (gO s 1 { s.block.eng.reed 0 with hit := none })) := by decide +kernel
theorem witness_reed_waitp_edge :
    (let s := rs 0x56A00 (fun r => { r with waitCode := 3, hit := some (98, 1568 * 2 ^ 16, 4321) })
     (((s.block.eng.waitpEnd 0).reed 0).capt, ((s.block.eng.waitpEnd 0).reed 0).captPos) = (4321, 1568 * 2 ^ 16)) := by decide +kernel
/-- A PIN action for time `t`, with Sundial at 5. -/
def actAt (t : Nat) : State :=
  let s := tks (fun r => { r with acts := [⟨t, 0, 5, true, 0, 94, none⟩] })
  withEng s { s.block.eng with clk := { s.block.eng.clk with sun := 5 <<< 20 } }
theorem witness_reed_action : (actAt 5).block.eng.t80 = 5 ∧ 5 < (actAt 5).block.eng.clk.plainNext.toNat / 2 ^ 20 ∧
    ((eng (.reedActionExecute 0) (actAt 5)).reed 0).acts = [] ∧ ((eng (.reedActionExecute 0) (actAt 5)).reed 0).levels = 0x20 ∧
    ((eng (.reedActionExecute 0) (actAt 5)).reed 0).late = false ∧ ((eng (.reedActionExecute 0) (actAt 4)).reed 0).levels = 0x20 ∧
    ((eng (.reedActionExecute 0) (actAt 4)).reed 0).late = true ∧ (eng (.reedActionExecute 0) (actAt 4)).flag F.REED_STAT_LATE 0 = true ∧
    (eng (.reedActionExecute 0) (actAt 4)).flag F.SUN_STAT_ACT_LATE 0 = true := by decide +kernel
theorem witness_tracker : (let s := tks (fun r => { r with iside := { r.iside with last := 97 * 2 ^ 20 } }) [(.COD_TRK, 0, 1), (.COD_TRKSJW, 0, 8), (.COD_TRKOFF, 0, 80)]
    let e := eng (.trackerCorrection 0 0x1 4) s
    s.block.eng.flag F.COD_TRK_EDGES 0 = false ∧ s.block.eng.flag F.COD_TRK_CANRULE 0 = false ∧ (s.block.eng.getLink 0).chg ≠ 1605 ∧
    (e.reed 0).corrected = true ∧ (e.reed 0).iside = ((s.block.eng.reed 0).iside.skipTo 100).correct 100 (2 ^ 16)) := by decide +kernel

/-! ### Locks and conduits under control; host rings -/

/-- The Keeper selects lock slot 5 (thread 1, slot 1) and conduit 3. -/
def lcs (f : Eng → Eng) : State := mk (f { (regs eng0 [(.LCK_SEL, 1, 5), (.CND_SEL, 1, 3)]) with clk := { cycle := 50 } })
def held1 (w : List (Nat × Nat)) (e : Eng) : Eng := { e with locks := [(5, ⟨false, 0x40000, false⟩), (9, ⟨false, 0x40004, false⟩)], waiters := w }
theorem witness_lock_force : mayWrite (lcs (held1 [])).block.eng keeper .LCK_FCTL 0 1 = true ∧ (lcs (held1 [])).block.eng.val .LCK_SEL keeper.key = 5 ∧
    goes (.lockForce keeper 1) (lcs (held1 [])) (done (lcs (held1 [])) keeper { (lcs (held1 [])).block.eng with closing := [(.force, 1, 5)] }) = true ∧
    (let e := { (lcs (held1 [])).block.eng with closing := [(.force, 1, 5)] }.closeEnd
     e.locks = [(5, ⟨true, 0x40000, true⟩), (9, ⟨false, 0x40004, false⟩)] ∧ e.fld F.LCK_FSTAT_RESULT 1 = 1 ∧ e.fld F.LCK_CNT_ABANDONS 0 = 1) ∧
    (let e := { (lcs (held1 [(2, 0x40000)])).block.eng with closing := [(.force, 1, 5)] }.closeEnd
     (lcs (held1 [])).block.eng.emptySlot 2 = some 8 ∧ e.locks = [(8, ⟨false, 0x40000, true⟩), (9, ⟨false, 0x40004, false⟩)] ∧ e.waiters = [] ∧
     e.fld F.LCK_FSTAT_RESULT 1 = 2) ∧
    (({ (lcs id).block.eng with closing := [(.force, 1, 5)] }.closeEnd).fld F.LCK_FSTAT_RESULT 1 = 3) := by decide +kernel
def cnd3 (x : Conduit) (e : Eng) : Eng := e.setCnd 3 x
def ctl3 (c : Closing) (x : Conduit) : Eng := { (lcs (cnd3 x)).block.eng with closing := [(c, 1, 3)] }.closeEnd
theorem witness_conduit_control : mayWrite (lcs id).block.eng keeper .CND_CTL 0 1 = true ∧ mayWrite (lcs id).block.eng keeper .CND_CTL 0 2 = true ∧
    goes (.conduitAbort keeper 1) (lcs id) (done (lcs id) keeper { (lcs id).block.eng with closing := [(.abort, 1, 3)] }) = true ∧
    goes (.conduitFlush keeper 2) (lcs id) (done (lcs id) keeper { (lcs id).block.eng with closing := [(.flush, 1, 3)] }) = true ∧
    (let x : Conduit := { opened := some [4], closed := [([1], 3)], taken := 0 }
     (ctl3 .abort x).getCnd 3 = { closed := [([1], 3)], freeing := [51] } ∧ (ctl3 .abort x).fld F.CND_ARES_RESULT 1 = 1 ∧
     (ctl3 .abort x).fld F.CND_CNT_ABORTS 0 = 1 ∧ (ctl3 .flush x).getCnd 3 = { freeing := [51, 51] } ∧ (ctl3 .flush x).fld F.CND_CNT_DISCARDS 0 = 2) ∧
    (let x : Conduit := { closed := [([1], 3)] }
     (ctl3 .abort x).getCnd 3 = x ∧ (ctl3 .abort x).fld F.CND_ARES_RESULT 1 = 0 ∧ (ctl3 .abort { x with closeCyc := 51 }).fld F.CND_ARES_RESULT 1 = 2) := by
  decide +kernel

/-- The Keeper selects ring 3 (TXQ1), of 16 entries at host address 0x4000000, in a state, D = 5; ring 19 has D = 9. -/
def rng (st : Nat) (q : Ring) (l : List (Reg × Nat × Nat) := []) : State :=
  let e := regs eng0 ([(.HRG_RSEL, 1, 3), (.HRG_RBASE0, 3, 0x20000), (.HRG_RSTAT, 3, st), (.HRG_RIDX, 3, 5), (.HRG_RHOST, 3, 5), (.HRG_RCTL, 3, if st = 0 then 0 else 1)] ++ l)
  let e := (e.setFld F.HRG_RCFG_LOG2 3 4).setFld F.HRG_RCFG_LOG2 19 3
  mk { e.setRing 3 q with clk := { cycle := 100 } }
def q1 : Ring := { next := 7, fetched := [(5, [1]), (6, [2])], lost := 2, retry := [⟨1, false, 0x40000A0, 32, [], .fetch 3 5 1⟩] }
theorem witness_ring_enable : (let s := rng 0 q1
    mayWrite s.block.eng keeper .HRG_RCTL 0 1 = true ∧ ringOf s keeper = 3 ∧
    (let e := eng (.ringEnable keeper 1) s
     e.flag F.HRG_RCTL_EN 3 = true ∧ e.ringState 3 = 1 ∧ e.fld F.HRG_RIDX_D 3 = 0 ∧ e.fld F.HRG_RHOST_H 3 = 0 ∧ e.getRing 3 = { lost := 2 })) := by decide +kernel
theorem witness_ring_enable_drains : (let s := rng 0 { outq := [(5, [])], stage := 2 }
    s.block.eng.ringDrains 3 = true ∧ (rng 0 q1).block.eng.ringDrains 3 = false ∧
    goes (.ringEnable keeper 1) s (done s keeper (s.block.eng.setFld F.HRG_RCTL_EN 3 1)) = true) := by decide +kernel
theorem witness_ring_disable : (let s := rng 1 q1
    mayWrite s.block.eng keeper .HRG_RCTL 0 0 = true ∧
    (let e := eng (.ringDisable keeper 0) s
     e.flag F.HRG_RCTL_EN 3 = false ∧ e.ringState 3 = 0 ∧ e.getRing 3 = { next := 7, lost := 2 })) := by decide +kernel
theorem witness_ring_restart : (let s := rng 2 q1
    mayWrite s.block.eng keeper .HRG_RCTL 0 3 = true ∧
    (let e := eng (.ringRestart keeper 3) s
     e.ringState 3 = 1 ∧ e.fld F.HRG_RSTAT_CAUSE 3 = 0 ∧ e.fld F.HRG_RIDX_D 3 = 5 ∧ e.initq = q1.retry ∧ e.getRing 3 = { q1 with retry := [] })) := by decide +kernel
theorem witness_keeper_irq : (let s := keep [(.HRG_ISTAT, 0, 4)]
    mayWrite s.block.eng keeper .HRG_KIRQ 0 1 = true ∧ (eng (.keeperIrq keeper 1) s).reg .HRG_ISTAT 0 = 0x104 ∧ (eng (.keeperIrq keeper 1) s).rings = [] ∧
    (eng (.keeperIrq keeper 1) s).initq = []) := by decide +kernel

def asked (l : List (Reg × Nat × Nat)) (c : Nat) (p : Bool) : State :=
  withEng (keep l) { (keep l).block.eng with sys := { (keep l).block.eng.sys with passReq := p, passAt := if p then 4 else 0 }, clk := { cycle := c } }
theorem witness_knock : goes (.knock true) (asked [] 9 false) (withEng (keep []) { requested (asked [] 9 false).block.eng with
      sys := { (requested (asked [] 9 false).block.eng).sys with knock := true } }) = true ∧
    (requested (asked [] 9 false).block.eng).sys.passAt = 9 ∧ (requested (asked [] 9 true).block.eng).sys.passAt = 4 ∧
    (asked [] 9 true).block.eng.pwr.lvl = 0 ∧ (asked [] 9 true).block.eng.pwr.entry = none ∧
    mayWrite (asked [] 9 true).block.eng keeper .HRG_KNOCK 0 1 = true ∧
    goes (.knockWrite keeper 1) (asked [] 9 true) (done (keep []) keeper (requested (asked [] 9 true).block.eng)) = true := by decide +kernel
theorem witness_knock_low : (let s := withEng (keep []) { (keep []).block.eng with sys := { (keep []).block.eng.sys with knock := true } }
    goes (.knock false) s (keep []) = true) := by decide +kernel
theorem witness_doorbell_poll : (let s := asked [] 65536 false
    s.block.eng.flag F.HRG_CFG_POLL 0 = true ∧ s.block.eng.running = false ∧ (eng .doorbellPoll s).sys.passReq = true ∧ (eng .doorbellPoll s).sys.passAt = 65536 ∧
    (eng .doorbellPoll s).tick.pollBase = 65536) := by
  decide +kernel
theorem witness_doorbell_pass : (let s := asked [(.HRG_DBBASE0, 0, 0x123), (.HRG_DBBASE1, 0, 1)] 5 true
    s.block.eng.engState = 3 ∧ (eng .doorbellPass s).initq = [⟨0x10, false, 0x123 * 128 + 2 ^ 27, 128, [], .doorbell⟩] ∧
    (eng .doorbellPass s).flag F.HRG_STAT_PASS 0 = true ∧ (eng .doorbellPass s).sys.passReq = false) := by decide +kernel

/-- A doorbell block: TXQ1's word as given. -/
def bells (w : Nat) : List Byte := List.replicate 8 0 ++ leBytes 4 w ++ List.replicate 116 0
def passing : Eng → Eng := fun e => { e with initq := [⟨0x10, false, 0, 128, [], .doorbell⟩], matrix := { out := [(1, 1)] } }
theorem witness_doorbell_data : (let s := withEng (rng 1 { next := 5 }) (passing (rng 1 { next := 5 }).block.eng)
    bellWord 3 = 2 ∧ (bells 6).length = 128 ∧ initiatorOf 0x10 = 1 ∧ initiatorOf 1 = 0 ∧
    (let e := eng (.initiatorResponse 0x10 0 (bells 6)) s
     e.ringState 3 = 1 ∧ e.fld F.HRG_RHOST_H 3 = 6 ∧ e.ringState 4 = 0 ∧ e.initq = [⟨1, false, 0x4000000 + 160, 32, [], .fetch 3 5 1⟩]) ∧
    (let e := eng (.initiatorResponse 0x10 0 (bells 22)) s
     e.ringState 3 = 2 ∧ e.fld F.HRG_RSTAT_CAUSE 3 = 3 ∧ (e.reg .HRG_ISTAT 0).getLsbD 5 = true) ∧
    (eng (.initiatorResponse 0x10 0 (bells 65541)) s).ringState 3 = 2 ∧ (eng (.initiatorResponse 0x10 0 (bells 21)) s).ringState 3 = 1) := by decide +kernel
def fetching : State := withEng (rng 1 {}) { (rng 1 {}).block.eng with initq := [⟨1, false, 0x123456789A, 64, [], .fetch 3 65535 2⟩], matrix := { out := [(0, 1)] } }
theorem witness_fetch : (let e := eng (.initiatorResponse 1 0 (List.replicate 32 7 ++ List.replicate 32 8)) fetching
    (e.getRing 3).fetched = [(65535, List.replicate 32 7), (0, List.replicate 32 8)] ∧ e.initq = [] ∧ e.flag F.HRG_STAT_PASS 0 = false) ∧
    (let e := eng (.initiatorResponse 1 1 []) fetching
    e.ringState 3 = 2 ∧ e.fld F.HRG_RSTAT_CAUSE 3 = 1 ∧ (e.reg .HRG_ISTAT 0).getLsbD 5 = true ∧ e.val .HRG_BERR0 0 + e.val .HRG_BERR1 0 * 2 ^ 20 = 0x123456789A ∧
    e.fld F.HRG_BERRSTAT_RING 0 = 3 ∧ e.fld F.HRG_BERRSTAT_CODE 0 = 1 ∧ e.flag F.HRG_BERRSTAT_VALID 0 = true ∧ (e.getRing 3).retry = fetching.block.eng.initq) := by
  decide +kernel
theorem witness_entry_visible : (let s := rng 1 { outq := [(65535, List.replicate 8 3), (0, List.replicate 8 4)], stage := 2 }
    let s := withEng s { s.block.eng with initq := [⟨1, true, 0x4000018, 8, List.replicate 8 3, .entryTail 3⟩], matrix := { out := [(0, 1)] } }
    let e := eng (.initiatorResponse 1 0 []) s
    e.fld F.HRG_RIDX_D 3 = 0 ∧ (e.reg .HRG_ISTAT 0).getLsbD 3 = true ∧ (e.getRing 3).outq = [(0, List.replicate 8 4)]) := by decide +kernel

/-- A TXQ entry: 100 bytes at host address 0x1000, to port 2. -/
def txd (n : Nat) (m : Nat := 4) : List Byte := leBytes 5 0x1000 ++ [0] ++ leBytes 2 n ++ leBytes 4 m ++ List.replicate 20 0
theorem witness_tx_descriptor : (let s := rng 1 { next := 6, fetched := [(5, txd 100)] }
    leAt (txd 100) 6 2 = 100 ∧ leAt (txd 100) 0 5 = 0x1000 ∧ byteAt (txd 100) 5 = 0 ∧ leAt (txd 100) 8 4 = 4 ∧ leAt (txd 100) 22 10 = 0 ∧
    s.block.eng.sw.allocs = [] ∧ goes (.txDescriptor 1) s (withEng s (withAllocs (s.block.eng.setRing 3 { next := 6 })
      [{ why := .tx 3 5 (txd 100), n := 1, c7 := false, till := 103 }])) = true) := by decide +kernel
theorem witness_tx_bad : (let s := rng 1 { next := 6, fetched := [(5, txd 0)] }
    let e := eng (.txDescriptor 1) s
    (Tab.find (e.getRing 3).res 5).map (fun x => (x.1, x.2.1)) = some (7, 24) ∧ e.ctr 2 0 8 = 1 ∧ (e.getRing 3).fetched = [] ∧ e.initq = []) := by decide +kernel
theorem witness_tx_cells : (let e := (rng 1 { next := 6 }).block.eng
    let a : Alloc := { why := .tx 3 5 (txd 300), n := 3, c7 := false, cells := [4, 5, 6], till := 105, ok := some true }
    (e.txCells 3 5 (txd 300) a true).initq = [⟨1, false, 0x1000, 128, [], .txData 3 5 0⟩, ⟨1, false, 0x1080, 128, [], .txData 3 5 128⟩,
      ⟨1, false, 0x1100, 44, [], .txData 3 5 256⟩] ∧ (e.txCells 3 5 (txd 300) a true).initq = txReads 1 5 (txd 300) ∧
    (e.txCells 3 5 (txd 300) a true).getRing 3 = { next := 6, dma := [{ idx := 5, entry := txd 300, cells := [4, 5, 6], len := 300 }] } ∧
    (e.txCells 3 5 (txd 300) a false).getRing 3 = { next := 6, wait := some (5, txd 300, 100) } ∧ (e.txCells 3 5 (txd 300) a false).initq = []) := by decide +kernel
theorem witness_tx_retry : (let s := rng 1 { next := 5, wait := some (5, txd 100, 99) }
    let s := withEng s { s.block.eng with clk := { cycle := 128 } }
    s.block.eng.atRound = true ∧ goes (.txCellRetry 1) s (withEng s (withAllocs s.block.eng
      [{ why := .tx 3 5 (txd 100), n := 1, c7 := false, till := 131 }])) = true) := by decide +kernel
theorem witness_tx_writeback : (let s := rng 1 { next := 6, res := [(5, (7, 24, 0x12345))] }
    let d : List Byte := [0x45, 0x23, 1, 0, 7, 24, 0, 0x80]
    (eng (.txWriteback 1) s).initq = [⟨1, true, 0x4000000 + 160 + 24, 8, d, .entryTail 3⟩] ∧ (eng (.txWriteback 1) s).ctr 2 0 0 = 0 ∧
    Tab.find ((eng (.txWriteback 1) s).getRing 3).res 5 = none) ∧
    (eng (.txWriteback 1) (rng 1 { next := 6, res := [(5, (0, 24, 0x12345))] })).ctr 2 0 0 = 1 := by decide +kernel

/-- An RXQ entry: a buffer of n bytes at host address 0x2000; ring 11 is ACTIVE with q. -/
def rxd (n : Nat) : List Byte := leBytes 5 0x2000 ++ [0] ++ leBytes 2 n ++ List.replicate 24 0
def rx1 (q : Ring) (f : Eng → Eng := id) : State := mk (f ({ (regs eng0 [(.HRG_RSTAT, 11, 1)]) with clk := { cycle := 100 } }.setRing 11 q))
theorem witness_rx_post : bufLen (rxd 200) = 200 ∧
    goes (.rxBufferPost 1) (rx1 { fetched := [(3, rxd 200)] }) (rx1 { bufs := [(3, rxd 200)] }) = true ∧
    ((eng (.rxBufferPost 1) (rx1 { fetched := [(3, rxd 9217)] })).ringState 11, (eng (.rxBufferPost 1) (rx1 { fetched := [(3, rxd 9217)] })).fld F.HRG_RSTAT_CAUSE 11) =
      (2, 3) := by decide +kernel
/-- Frame 7 of 64 bytes in cell 0 heads class 1 at port 24. -/
def rxFrame (e : Eng) : Eng := { e.setCell 0 { owner := .frame, seq := 7 } with
  sw := { frames := [(7, { head := 0, cells := 1, inPort := 1, cls := 1, len := 64, ended := true, written := 64, committed := true, queued := [24] })], queues := [(193, [7])] } }
theorem witness_rx_start : (let s := rx1 { bufs := [(3, rxd 200)] } rxFrame
    let e := eng (.frameTxStart ⟨24, 0⟩) s
    (e.getLink 24).eg.map (fun x => (x.seq, x.cls, x.started)) = some (some 7, 1, false) ∧ e.queue 24 1 = [] ∧ s.block.eng.queue 24 1 = [7]) := by decide +kernel
def rxSend (st : Bool) (e : Eng) : Eng := (rxFrame e).setLink 24 { eg := some { seq := some 7, gen := none, cls := 1, startCyc := 100, started := st } }
theorem witness_rx_write : (let s := rx1 { bufs := [(3, rxd 200)] } (rxSend false)
    let e := eng (.rxFrameWrite 1) s
    (e.getRing 11).bufs = [] ∧ (e.getLink 24).eg = some { seq := some 7, gen := none, cls := 1, startCyc := 100, started := true, rd := 64 } ∧
    e.initq = [⟨9, true, 0x2000, 64, List.replicate 64 0, .rxData 11 3⟩]) := by decide +kernel
theorem witness_rx_end : (let s := rx1 { rx := some ⟨7, 1, 64, 1, []⟩ } (rxSend true)
    let e := eng (.frameTxEnd 24) s
    (e.getLink 24).eg = none ∧ (e.getRing 11).rx = none ∧ e.ctr 2 0 1 = 1) := by decide +kernel

/-! ### Commands of the host, the Ledger -/

/-- A CMDQ entry with its ARGS. -/
def cde (op : Nat) (args : List Nat) : List Byte :=
  let l := [op, 0, 0x34, 0x12] ++ args
  (l ++ List.replicate (32 - l.length) 0).map (BitVec.ofNat 8)
/-- The command at CMDQ index 7 runs in an engine state. -/
def cm (op : Nat) (args : List Nat) (st : CmdStage) (js : Nat := 3) (f : Eng → Eng := id) (data : List Byte := []) : State :=
  let e := (regs eng0 [(.HRG_RSTAT, 0, 1), (.HRG_RSTAT, 1, 1), (.HRG_RIDX, 1, 20), (.HRG_RHOST, 1, 15), (.HRG_EPOCH, 0, 0x1234)]).setFld F.JX_STATE_STATE 0 js
  let k : Keys := { cmds := [{ idx := 7, entry := cde op args, ctr := 900, stage := st, data := data }], nextCpl := 7, l := 800, ceil := 4000 }
  mk (f { e with clk := { cycle := 100 }, keys := k })
/-- The completion that the statements give, at index 20 of CPLQ. -/
def cplB (s : State) (e : Eng) (op : Nat) (args : List Nat) (r : Nat) (res : List Byte) : Bool :=
  @decide (completed s.block.eng e 7 (cde op args) r res) (by unfold completed counted40; infer_instance)
def endsB (x : Instr) (s : State) (op : Nat) (args : List Nat) (r : Nat) (res : List Byte) : Bool :=
  leavesEng x s (fun e => cplB s e op args r res)
theorem test_completion_bytes : cplBytes (cm 1 [] .ready).block.eng 7 (cde 1 []) 0 [0xAB] =
    [1, 0, 0x34, 0x12, 7, 0, 0, 0, 0xAB, 0, 0, 0, 0, 0, 0, 0, 0, 0, 0, 0, 0, 0, 0, 0, 0x34, 0x12, 0, 0, 0, 0, 0, 0] := by decide +kernel

/-- CMDQ holds one fetched entry, index 7. -/
def handing (d : List Byte) : State := mk (({ (cm 1 [] .ready).block.eng with keys := { nextCpl := 7 } }).setRing 0 { fetched := [(7, d)] })
def handsOverB (d : List Byte) : Bool := @decide (handsOver (handing d) 7 d) (by unfold handsOver; infer_instance)
theorem witness_handover : handsOverB (cde 0x40 []) = true ∧
    leavesEng .commandHandover (handing (cde 0x40 [])) (fun e => cplB (handing (cde 0x40 [])) e 0x40 [] 1 [] && decide ((e.getRing 0).fetched = [])) = true ∧
    leavesEng .commandHandover (handing (cde 0x18 [])) (fun e => cplB (handing (cde 0x18 [])) e 0x18 [] 4 [] && decide (e.fld F.KEY_ECNT_AUTHFAIL 0 = 1)) = true ∧
    (eng .commandHandover (handing (cde 1 []))).keys.cmds = [{ idx := 7, entry := cde 1 [], handed := 100 }] := by decide +kernel
def badRes : List Nat := List.replicate 27 0 ++ [1]
theorem witness_handover_reserved : byteAt (cde 1 badRes) 31 = 1 ∧
    leavesEng .commandHandover (handing (cde 1 badRes)) (fun e => cplB (handing (cde 1 badRes)) e 1 badRes 2 []) = true := by decide +kernel
theorem witness_command_take : (let s := cm 0x81 [] .posted 3 (fun e => e.setReg .KEY_CSTAT 0 0x80000)
    mayWrite s.block.eng keeper .KEY_CTAKE 0 1 = true ∧ goes (.commandTake keeper 1) s (done s keeper { s.block.eng with keys := { s.block.eng.keys with taken := true } }) = true ∧
    (let e := { s.block.eng with keys := { s.block.eng.keys with taken := true } }
     e.keysEnd.flag F.KEY_CSTAT_TAKEN 0 = true ∧ e.keysEnd.keys = s.block.eng.keys)) := by
  decide +kernel
/-- Command 7 is posted; CMDQ's next entry, index 8, is an ABORT of it. -/
def aborting : State :=
  let s := cm 0x81 [] .posted 3 (fun e => e.setReg .KEY_CSTAT 0 0x80000)
  withEng s (s.block.eng.setRing 0 { fetched := [(8, cde 3 [7, 0])] })
theorem witness_abort_command : aborting.block.eng.cplFree = true ∧ aborting.block.eng.awake = true ∧ aborting.block.eng.engState = 3 ∧ aborting.block.eng.ringState 0 = 1 ∧
    aborting.block.eng.keys.stopped = [] ∧ aborting.block.eng.flag F.KEY_CSTAT_TAKEN 0 = false ∧ leAt (cde 3 [7, 0]) 4 2 = 7 ∧
    (7 + 65536 - 8) % 65536 ≠ 0 ∧ (8 + 65536 - 7) % 65536 ≤ aborting.block.eng.ringN 0 ∧
    (eng .commandHandover aborting).keys.cmds.map (fun c => (c.idx, c.outcome)) = [(7, none), (8, some 11)] ∧ (eng .commandHandover aborting).keys.abQ = [7] ∧
    (eng .commandHandover aborting).keysEnd.flag F.KEY_CSTAT_ABREQ 0 = true ∧
    (eng .commandHandover aborting).keysEnd.keys.cmds = (eng .commandHandover aborting).keys.cmds := by decide +kernel
theorem witness_abort_late : (let e := (eng .commandHandover aborting).setFld F.KEY_CSTAT_TAKEN 0 1
    e.keys.taken = false ∧ e.keysEnd.flag F.KEY_CSTAT_ABREQ 0 = false ∧ e.keysEnd.keys.cmds.map (fun c => (c.idx, c.outcome)) = [(7, none), (8, some 12)]) := by
  decide +kernel
def emptyB (e : Eng) : Bool := @decide (mailboxEmpty e) (by unfold mailboxEmpty; infer_instance)
theorem witness_command_done : (let s := cm 0xC1 [] .posted 3 (fun e => regs e [(.KEY_CSTAT, 0, 0x80000), (.KEY_CRD, 0, 0xABCD)])
    mayWrite s.block.eng keeper .KEY_CDONE 0 1 = true ∧
    leavesEng (.commandDone keeper 1) s (fun e => cplB s e 0xC1 [] 0 ([0xAB, 0xCD] ++ List.replicate 14 0) && emptyB e && decide (e.keys.l = 900)) = true) := by
  decide +kernel

theorem witness_unit_commands : endsB .cmdNop (cm 1 [] .ready) 1 [] 0 [] = true ∧
    endsB .setLatency (cm 4 [] .ready 1) 4 [] 6 [] = true ∧
    leavesEng .setLatency (cm 4 [1, 2, 3, 4] .ready) (fun e => cplB (cm 4 [1, 2, 3, 4] .ready) e 4 [1, 2, 3, 4] 0 [] &&
      decide (e.val .PWR_TOL0 0 + e.val .PWR_TOL1 0 * 2 ^ 20 = 0x04030201)) = true := by decide +kernel
theorem witness_abort_ends : (let s := cm 3 [5, 0] .ready
    let s := withEng s { s.block.eng with keys := { s.block.eng.keys with cmds := s.block.eng.keys.cmds.map (fun c => { c with outcome := some 12 }) } }
    leavesEng .abort s (fun e => decide ((e.getRing 1).outq = [(20, cplBytes s.block.eng 7 (cde 3 [5, 0]) 0 [12])])) = true) := by decide +kernel
def devData : List Byte := (List.range 24).map (BitVec.ofNat 8) ++ List.replicate 8 0
theorem witness_provision : (let s := cm 5 [] .ready 1 id devData
    let e := eng .provision s
    s.block.eng.flag F.KEY_STAT_PROV 0 = false ∧ s.block.eng.flag F.KEY_STAT_DAMAGED 0 = false ∧
    e.keys.cmds = [{ idx := 7, entry := cde 5 [], ctr := 900, stage := .writing, data := devData }] ∧
    (e.keys.ledq.map (fun w => (w.idx, w.v))).take 6 = (List.range 6).map (fun i => (i, leAt devData (4 * i) 4)) ∧
    (e.keys.ledq.map (fun w => (w.idx, w.v))).reverse.take 2 =
      [(6, 0x5A5A0001), (7, ledgerCheck ((List.range 6).map (fun i => leAt devData (4 * i) 4) ++ [0x5A5A0001]))]) ∧
    endsB .provision (cm 5 [] .ready) 5 [] 6 [] = true := by decide +kernel
theorem witness_key_change : (let e := eng .keyChange (cm 0x11 [2, 9, 0] .ready)
    e.fld F.KEY_GEN_GEN 2 = 9 ∧ e.keys.l = 900 ∧ e.keys.cmds = [{ idx := 7, entry := cde 0x11 [2, 9, 0], ctr := 900, stage := .writing }]) ∧
    endsB .keyChange (cm 0x11 [2, 9, 0] .ready 2) 0x11 [2, 9, 0] 6 [] = true ∧
    endsB .keyChange (cm 0x11 [2, 9, 0] .ready 3 (fun e => e.setFld F.KEY_GEN_GEN 2 9)) 0x11 [2, 9, 0] 7 [] = true := by decide +kernel
theorem witness_reset_engine :
    leavesEng .resetEngine (cm 0x15 [1] .ready) (fun e => cplB (cm 0x15 [1] .ready) e 0x15 [1] 0 [] && decide (e.keys.reset = some (7, 3, false, 900))) = true ∧
    leavesEng .resetEngineNoboot (cm 0x15 [2] .ready) (fun e => cplB (cm 0x15 [2] .ready) e 0x15 [2] 0 [] && decide (e.keys.reset = some (7, 3, true, 900))) = true := by
  decide +kernel
theorem witness_debug_unlock :
    leavesEng .debugUnlock (cm 0x16 [2] .ready) (fun e => cplB (cm 0x16 [2] .ready) e 0x16 [2] 0 [] && decide (e.fld F.HIDE_AUTH_LEVEL 0 = 2) &&
      decide (e.fld F.HIDE_AUTH_PATH 0 = 2) && decide (e.keys.l = 900)) = true ∧
    endsB .debugUnlock (cm 0x16 [2] .ready 3 (fun e => e.setFld F.HIDE_AUTH_PATH 0 1)) 0x16 [2] 6 [] = true := by decide +kernel
theorem witness_ledger_write : (let e := eng .ledgerWrite (cm 0x17 [0, 4, 2, 1, 0, 0, 0, 2, 0, 0, 0x80] .ready)
    e.keys.ledq.map (fun w => (w.idx, w.v)) = [(0x400, 1), (0x401, 0x80000002)] ∧ e.keys.l = 900) ∧
    endsB .ledgerWrite (cm 0x17 [0xFF, 0xF, 2] .ready) 0x17 [0xFF, 0xF, 2] 7 [] = true ∧ endsB .ledgerWrite (cm 0x17 [0, 4, 2] .ready 4) 0x17 [0, 4, 2] 6 [] = true := by
  decide +kernel
theorem witness_counter_seal : endsB .counterSeal (cm 0x18 [] .ready) 0x18 [] 0 [0x84, 3, 0, 0, 0] = true ∧ (eng .counterSeal (cm 0x18 [] .ready)).keys.l = 900 := by
  decide +kernel
theorem witness_maintenance : (let s := cm 0x19 [1] .ready 3 (fun e => (linkUp 3 1 e).setFld F.TIK_CTL_RUN 0 1)
    let e := eng .maintenanceEnter s
    e.engState = 5 ∧ e.flag F.TIK_CTL_RUN 0 = false ∧ e.keys.l = 900 ∧ e.keys.cmds = [{ idx := 7, entry := cde 0x19 [1], ctr := 900, stage := .flushing }] ∧
    (List.range 24).all (fun n => !e.flag F.LNK_CTL_EN n && !e.flag F.SCH_LCTL_EN n) = true) ∧
    endsB .maintenanceEnter (cm 0x19 [1] .ready 1) 0x19 [1] 6 [] = true ∧ endsB .maintenanceLeave (cm 0x19 [0] .ready 3) 0x19 [0] 6 [] = true ∧
    (eng .maintenanceLeave (cm 0x19 [0] .ready 5)).keys.reset = some (7, 5, false, 900) := by decide +kernel

theorem witness_keeper_state : endsB .selftest (cm 6 [1] .posted 3) 6 [1] 6 [] = true ∧ endsB .loadImage (cm 0x10 [] .posted 3) 0x10 [] 6 [] = true ∧
    endsB .scheduleChange (cm 0x13 [] .posted 1) 0x13 [] 6 [] = true ∧ endsB .firmwareCommand (cm 0x80 [] .posted 5) 0x80 [] 6 [] = true ∧
    endsB .linkEnable (cm 0x12 [] .posted 3 (fun e => e.setFld F.KEY_CSTAT_ABREQ 0 1)) 0x12 [] 11 [] = true := by decide +kernel
theorem witness_link_enable : (let s := cm 0x12 [1, 0, 2, 8, 0, 0] .posted 3 (fun e => (linkUp 3 1 e).setFld F.LNK_CFG_MODE 0 1)
    leavesEng .linkEnable s (fun e => cplB s e 0x12 [1, 0, 2, 8, 0, 0] 0 [1, 0, 0] && emptyB e && decide (e.keys.l = 900) && e.flag F.LNK_CTL_EN 0 &&
      !e.flag F.LNK_CTL_EN 3 && !e.flag F.LNK_CTL_EN 17) = true) := by decide +kernel
def sunArgs (kind : Nat) : List Nat := [5, 0, 0, 0, 0, 0, 0, 0, 3, 0, 0, kind]
theorem witness_sundial_set : (let s := cm 0x14 (sunArgs 1) .posted 3 (fun e => { e with clk := { cycle := 100, sun := 7 <<< 40 } })
    (eng .sundialSetStep s).clk.seen = BitVec.ofNat 100 (12 * 2 ^ 40 + 3 * 2 ^ 20) ∧ (eng .sundialSetStep s).keys.cmds = []) ∧
    (let s := cm 0x14 (sunArgs 2) .posted 3
    (eng .sundialSetLoad s).clk.seen = BitVec.ofNat 100 (5 * 2 ^ 40 + 3 * 2 ^ 20) ∧ (eng .sundialSetLoad s).clk.loaded = true ∧
    (eng .sundialSetLoad s).fld F.HRG_RIDX_D 1 = 21) := by decide +kernel
/-- Four rows of one entry, all zero, under ticks of 8 in a frame and cycle counts of 2 bits. -/
def schCmd : State := cm 0x13 [0, 0, 0, 2, 1, 0] .posted 3 (fun e => { e with tick := { e.tick with set := { e.tick.set with m := 2 } } }) (List.replicate 48 0)
theorem witness_schedule_change :
    (let s := schCmd
    let r : RowSet := ⟨0, 2, 1⟩
    let e := eng .scheduleChange s
    r.size = 4 ∧ (s.block.eng.layer 0).pend = none ∧ (e.layer 0).check = some (r, 128, true) ∧ e.flag F.KEY_CSTAT_TAKEN 0 = true ∧
    Tab.get [] e.sch.store 3 = [0, 0, 0]) := by decide +kernel
theorem witness_selftest : (let e := eng .selftest (cm 6 [3] .posted 5)
    e.sys.bist = some (3, 18000100) ∧ e.flag F.KEY_CSTAT_TAKEN 0 = true ∧ e.keys.cmds = [{ idx := 7, entry := cde 6 [3], ctr := 900, stage := .testing }]) := by decide +kernel
theorem witness_load_image : (let s := cm 0x10 [0xF0, 0x10, 0, 0, 0, 100, 0, 0] .posted 1
    let e := eng .loadImage s
    100 ≤ 128 * s.block.eng.freeCells ∧ s.block.eng.keys.img = none ∧ e.engState = 2 ∧
    e.keys.img = some { boot := false, addr := 0x10F0, total := 100, cells := [], got := 0, phase := 1 } ∧
    e.sw.allocs = [{ why := .image, n := 1, c7 := false, till := 103 }]) ∧
    (let s := cm 0x10 [0, 0, 0, 0, 0, 100, 0, 0] .posted 1 (fun e => { e with sw := { free := { fresh := 16384 } } })
     endsB .loadImage s 0x10 [0, 0, 0, 0, 0, 100, 0, 0] 8 [] = true) ∧
    endsB .loadImage (cm 0x10 [0, 0, 0, 0, 0, 39] .posted 1) 0x10 [0, 0, 0, 0, 0, 39] 7 [] = true := by decide +kernel
theorem witness_firmware : (let s := cm 0xC5 [] .posted 3 (fun e => regs e [(.KEY_CRD, 7, 0x0102)])
    leavesEng .firmwareCommandCritical s (fun e => cplB s e 0xC5 [] 0 (List.replicate 14 0 ++ [1, 2]) && emptyB e && decide (e.keys.l = 900)) = true) ∧
    (let s := cm 0x85 [] .posted 3 (fun e => regs e [(.KEY_CRES, 0, 0x85)])
    (eng .firmwareCommand s).keys.l = 800 ∧ (eng .firmwareCommand s).keys.cmds = []) := by decide +kernel

theorem witness_ldg_write : (let s := keep [(.LDG_ADDR, 1, 0x345), (.LDG_WD0, 0, 0x12345), (.LDG_WD1, 0, 0xFFF)]
    mayWrite s.block.eng keeper .LDG_CTL 0 1 = true ∧ (eng (.ldgWrite keeper 1) s).keys.ledAt = 1 ∧ (eng (.ldgWrite keeper 1) s).keys.ledq = [⟨0x345, 0xFFF12345, .keeper⟩]) := by
  decide +kernel
theorem witness_ldg_done : (let s := mk { eng0 with keys := { ledq := [⟨0x345, 5, .keeper⟩], ledAt := 1 }, clk := { cycle := 512 } }
    s.block.eng.keys.ledAt + 511 ≤ s.block.eng.clk.cycle ∧ s.block.eng.flag F.LDG_STAT_WERR 0 = false) := by decide +kernel
theorem witness_ldg_read : (let s := mk { eng0 with clk := { cycle := 100 } } { ledger := [(0x62, 9), (0x81, 8)] }
    mayWrite s.block.eng keeper .LDG_ADDR 0 0x62 = true ∧ Tab.find (eng (.ledgerReadStart keeper 0x62) s).sys.ldgRead 1 = some (0x62, 100) ∧
    (let later (a : Nat) : State := withEng s { s.block.eng with clk := { cycle := 116 }, sys := { s.block.eng.sys with ldgRead := [(1, (a, 100))] } }
     Tab.find (eng (.ledgerReadDone keeper) (later 0x62)).sys.ldgShown 1 = some 9 ∧ Tab.find (eng (.ledgerReadDone keeper) (later 0x81)).sys.ldgShown 1 = some 0)) := by
  decide +kernel
theorem witness_hours : (let s := mk { eng0 with sys := { eng0.sys with hourNs := 3600000000002 } }
    let e := eng .hours s
    e.sys.hourNs = 2 ∧ (e.keys.ledq.map (fun w => (w.idx, w.v))).take 1 = [(0x60, 1)] ∧ (e.keys.ledq.map (fun w => w.idx)) = [0x60, 0x61, 0x62]) := by decide +kernel

/-! ### Power, reset and start-up -/

/-- Thread 1 waits in WTK, the host tolerates 100,000 ns, power states to NAP are allowed, in a power state. -/
def pw (p : Pwr) (l : List (Reg × Nat × Nat) := []) (x : Thr := { st := .wait, wait := .wtk }) : State :=
  mk { (regs (thr1 (fun _ => x)) ([(.PWR_CTL, 0, 3), (.PWR_TOL0, 0, 100000)] ++ l)) with clk := { cycle := 1000 }, pwr := p }
theorem witness_power_entry : (pw {}).block.eng.mayEnter 4 = false ∧ (pw {}).block.eng.mayEnter 3 = true ∧
    (eng .powerStateEntry (pw {})).pwr = { entry := some (3, 3000) } ∧ (eng .powerStateEntry (pw {} [(.PWR_CTL, 0, 2)])).pwr.entry = some (2, 1016) ∧
    (eng .powerStateEntry (pw {} [(.PWR_CTL, 0, 1)])).pwr.entry = none := by decide +kernel
theorem witness_power_entry_end : (eng .powerEntryEnd (pw { entry := some (3, 1000) })).pwr = { lvl := 3, since := 1000 } ∧
    (eng .powerEntryEnd (pw { entry := some (4, 1000) })).flag F.SUN_STAT_REFMODE 0 = true := by decide +kernel
theorem witness_power_exit : (eng .powerExitStart (pw { lvl := 3, wake := 4 })).pwr.exit = some 21000 ∧
    (eng .powerExitStart (pw { lvl := 2, wake := 4 })).pwr.exit = some 1500 ∧ (eng .powerExitStart (pw { lvl := 2, wake := 4, since := 1000 })).pwr.exit = none ∧
    (let e := { (pw { lvl := 4, exit := some 9000, relock := some 1000 }).block.eng.setFld F.SUN_STAT_REFMODE 0 1 with freeCtr := 0 }
     e.relockDue.pwr.relock = none ∧ e.relockDue.flag F.SUN_STAT_REFMODE 0 = false) ∧ (eng .powerExitStart (pw { lvl := 3, wake := 4 } [(.PWR_WSRC, 0, 1)])).reg .PWR_WSRC 0 = 5 ∧
    (eng .powerExitEnd (pw { lvl := 3, exit := some 1000 })).pwr = {} := by decide +kernel
theorem witness_host_wake : mayWrite (pw {}).block.eng .host .PWR_WAKE 0 1 = true ∧
    goes (.hostWake .host 1) (pw {}) (done (pw {}) .host (pw {}).block.eng) = true ∧ (eng (.hostWake .host 1) (pw { lvl := 3 })).pwr = { lvl := 3, wake := 16 } := by
  decide +kernel
theorem witness_link_wake : (let s := pw { lvl := 3 } [(.PWR_LWAKE0, 0, 2)]
    let s := withEng s ((linkUp 1 1 s.block.eng).setLink 1 { pins := 0 })
    let e := eng (.linkWake 1 0x100) s
    s.block.eng.linkMode 1 = 1 ∧ s.block.eng.lwake 1 = true ∧ s.block.eng.flag F.SCH_LCTL_EN 1 = false ∧ e.pwr = { lvl := 3, wake := 4 } ∧ e.val .PWR_LWCNT 0 = 1 ∧
    (e.getLink 1).ext = 0x100 ∧ s.block.eng.flag F.LNK_CTL_EN 1 = true ∧ (s.block.eng.getLink 1).pins.testBit 8 = false) := by decide +kernel
theorem idle_wtk : ∀ t, 1 ≤ t → t ≤ 63 → pavOf t = 0 → idleThr (pw {}).block.eng.clk.cycle ((pw {}).block.eng.getThr t) := by
  intro t h1 h2 _
  have h : (∀ t : Fin 64, t.val ≠ 1 → (pw {}).block.eng.getThr t.val = {}) ∧ (pw {}).block.eng.getThr 1 = { st := .wait, wait := .wtk } := by decide +kernel
  rcases Nat.decEq t 1 with n | n
  · rw [show (pw {}).block.eng.getThr t = {} from h.1 ⟨t, by omega⟩ n]
    exact ⟨rfl, .inl rfl, .inl rfl⟩
  · rw [n, h.2]
    exact ⟨rfl, .inl rfl, .inr (.inr ⟨rfl, fun r a g hh => nomatch hh⟩)⟩
theorem witness_barrel_gate : 1 ≤ (pw {}).block.eng.fld F.PWR_CTL_MAXST 0 ∧ 20 ≤ (pw {}).block.eng.tolerance ∧ goes (.barrelGate 0) (pw {}) (withEng (pw {}) ((pw {}).block.eng.setBrl 0 { (pw {}).block.eng.getBrl 0 with gated := true })) = true ∧
    (eng (.barrelUngate 0) (pw {} [] { st := .run })).getBrl 0 = { (pw {}).block.eng.getBrl 0 with gated := false } := by decide +kernel

/-- The engine has run: registers, a thread, a frame, memory differ from reset. -/
def ran (f : Eng → Eng := id) : State :=
  mk (f { ((regs eng0 [(.HRG_EPOCH, 0, 65535), (.RST_CNT, 0, 7), (.RST_CAUSE, 0, 0x18), (.THR_FCAUSE, 2, 2)]).setThr 2 { st := .wait, pc := 9 }) with clk := { cycle := 5000, sun := 77 } })
    { data := [(0x10004, 5)], basin := [(9, 9)], ledger := [(0x300, 4)] }
def engResetB (s : State) (cause : Nat) (c : Instr) : Bool :=
  let m' := (post c s).block.mem
  let e' := eng c s
  decide (e'.engState = 0 ∧ e'.pwr.lvl = 0 ∧ e'.getThr 1 = { st := .run, pc := 0xFC000 } ∧ e'.getThr 2 = {}) &&
    decide (m'.basin = [] ∧ m'.data = [] ∧ m'.code = [] ∧ m'.ledger = s.block.mem.ledger) &&
    decide (e'.fld F.RST_CAUSE_LAST 0 = cause ∧ (e'.fld F.RST_CAUSE_SEEN 0).testBit (cause - 1) = true ∧ e'.flag F.RST_STAT_INIT 0 = true ∧ e'.sys.initAt = 5000) &&
    decide (e'.fld F.HRG_EPOCH_EPOCH 0 = 0 ∧ e'.reg .RST_CNT 0 = 8 ∧ e'.clk = { s.block.eng.clk with owner := 0, owed := [] } ∧ e'.tick = {} ∧ e'.reeds = [] ∧ e'.sw = {} ∧ e'.cells = [])
def fullResetB (s : State) (cause : Nat) (c : Instr) : Bool :=
  let m' := (post c s).block.mem
  let e' := eng c s
  decide (e'.engState = 0 ∧ e'.pwr.lvl = 0 ∧ e'.getThr 1 = { st := .run, pc := 0xFC000 } ∧ e'.getThr 2 = {}) &&
    decide (m'.basin = [] ∧ m'.data = [] ∧ m'.code = [] ∧ m'.ledger = s.block.mem.ledger) &&
    decide (e'.fld F.RST_CAUSE_LAST 0 = cause ∧ e'.fld F.RST_CAUSE_SEEN 0 = 2 ^ (cause - 1) ∧ e'.flag F.RST_STAT_PLLLOCK 0 = false ∧ e'.clk.sun = 0 ∧
      e'.fld F.HRG_EPOCH_EPOCH 0 = 0)
theorem witness_full_reset : fullResetB (ran id) 1 (.powerOnReset true) = true ∧ (eng (.powerOnReset true) (ran id)).sys.porHeld = true ∧
    fullResetB (ran id) 2 .blockResetAssert = true ∧ (eng .blockResetAssert (ran id)).sys.held = true ∧ (eng .blockResetRelease (ran id)).sys.held = false := by decide +kernel
def porNow (e : Eng) : Eng := { e with sys := { e.sys with porHeld := true } }
theorem witness_held_reset : goes .blockResetAssert (ran porNow) (withEng (ran porNow)
      { (ran porNow).block.eng with sys := { (ran porNow).block.eng.sys with held := true } }) = true ∧
    (eng (.powerOnReset false) (ran porNow)).sys.porHeld = false := by decide +kernel
/-- The watchdog has run out in this cycle; `l` register values, `w` what is left of its period. -/
def wd (w : Nat) : State := ran (fun e => { regs e [(.RST_WDCTL, 0, 0x11)] with sys := { e.sys with wdLeft := w, wdHit := true } })
def engResetBl (b b' : Block) (cause : Nat) : Bool :=
  decide (b'.eng.engState = 0 ∧ b'.eng.pwr.lvl = 0 ∧ b'.eng.getThr 1 = { st := .run, pc := 0xFC000 } ∧ b'.eng.getThr 2 = {}) &&
    decide (b'.mem.basin = [] ∧ b'.mem.data = [] ∧ b'.mem.code = [] ∧ b'.mem.ledger = b.mem.ledger) &&
    decide (b'.eng.fld F.RST_CAUSE_LAST 0 = cause ∧ (b'.eng.fld F.RST_CAUSE_SEEN 0).testBit (cause - 1) = true ∧ b'.eng.flag F.RST_STAT_INIT 0 = true ∧
      b'.eng.sys.initAt = 5000)
theorem witness_watchdog : (wd 0).block.eng.anyHalted = false ∧ (wd 0).block.eng.sys.resetAt = 0 ∧
    (wd 0).block.eng.flag F.RST_WDCTL_EN 0 = true ∧ (wd 0).block.eng.sys.wdFrozen = false ∧ engResetBl (wd 0).block (wd 0).block.wdEnd 4 = true ∧
    (wd 7).block.wdEnd = { (wd 7).block with eng := { (wd 7).block.eng with sys := { (wd 7).block.eng.sys with wdHit := false } } } ∧
    (let s := ran (fun e => { regs e [(.RST_WDCTL, 0, 0x11)] with sys := { e.sys with wdLeft := 0 } })
     goes .watchdogExpiry s (withEng s { s.block.eng with sys := { s.block.eng.sys with wdHit := true } }) = true) := by decide +kernel
def seen1 (e : Eng) : Eng :=
  { e.setRing 1 { outq := [(3, List.replicate 8 0)], stage := 2 } with
    initq := [⟨0x11, true, 0x18, 8, List.replicate 8 0, .entryTail 1⟩], matrix := { out := [(1, 1)] }, keys := { l := 5, shown := [(3, cde 0x15 [1])], reset := some (3, 3, true, 9) } }
theorem witness_completion_reset : engResetB (ran seen1) 3 (.initiatorResponse 0x11 0 []) = true ∧
    (eng (.initiatorResponse 0x11 0 []) (ran seen1)).sys.noboot = true ∧ (eng (.initiatorResponse 0x11 0 []) (ran seen1)).keys.l = 9 := by decide +kernel
def bist0 (e : Eng) : Eng := { e with sys := { e.sys with bist := some (3, 5000) } }
theorem witness_bist_end : engResetB (ran bist0) 6 (.bistEnd 1 4 0x123456 2) = true ∧
    (eng (.bistEnd 1 4 0x123456 2) (ran bist0)).sys.bistRes = some [1, 4, 0x56, 0x34, 0x12, 2] := by decide +kernel

theorem witness_pll_lock : (let s : State := State.reset
    let s := withEng s { s.block.eng with clk := { cycle := 40, sun := 9 } }
    let e := eng .pllLock s
    s.block.eng.flag F.RST_STAT_PLLLOCK 0 = false ∧ e.flag F.RST_STAT_PLLLOCK 0 = true ∧ e.flag F.RST_STAT_INIT 0 = true ∧ e.clk.sun = 0 ∧ e.clk.roundBase = 40 ∧
    e.sys.initAt = 40 ∧ e.keys.l = e.keys.ceil ∧ s.block.mem.counterRec = none ∧ e.keys.l = 0 ∧ e.flag F.KEY_STAT_PROV 0 = false) := by decide +kernel
theorem witness_init_end : (let s := mk { (regs eng0 []).setFld F.RST_STAT_INIT 0 1 with clk := { cycle := 80000 } }
    (eng .memoryInitEnd s).flag F.RST_STAT_INIT 0 = false ∧ (eng .memoryInitEnd (withEng s { s.block.eng with clk := { cycle := 79999 } })).flag F.RST_STAT_INIT 0 = true) := by
  decide +kernel
/-- The engine in RESET after a reset of a cause, memory initialised. -/
def boot (cause auto : Nat) : State :=
  let e := regs (eng0.setFld F.JX_STATE_STATE 0 0) [(.RST_CAUSE, 0, 64 * cause), (.JX_BOOT_CTL, 0, 2 * auto), (.JX_BOOT_ADDR0, 0, 3)]
  mk { e with sys := { e.sys with bootAt := 9 } }
theorem witness_boot : (boot 6 0).block.eng.fld F.RST_CAUSE_LAST 0 = 6 ∧ (boot 6 1).block.eng.flag F.JX_BOOT_CTL_AUTO 0 = true ∧
    (eng .bootDecision (boot 6 0)).engState = 5 ∧ (eng .bootDecision (boot 2 1)).engState = 1 ∧ (eng .bootDecision (boot 4 0)).engState = 1 ∧
    (eng .bootDecision (boot 4 1)).engState = 2 ∧ (eng .bootDecision (boot 4 1)).initq = [⟨0x10, false, 384, 32, [], .image 0⟩] := by decide +kernel
theorem witness_boot_go : mayWrite (setup [(.JX_BOOT_ADDR0, 0, 3)]).block.eng .host .JX_BOOT_CTL 0 1 = true ∧
    (eng (.bootGo .host 1) (setup [(.JX_BOOT_ADDR0, 0, 3)])).engState = 2 ∧
    (eng (.bootGo .host 1) (setup [(.JX_BOOT_ADDR0, 0, 3)])).initq = [⟨0x10, false, 384, 32, [], .image 0⟩] := by decide +kernel
theorem witness_watchdog_registers : mayWrite (keep []).block.eng keeper .RST_WDKICK 0 1 = true ∧ (eng (.watchdogKick keeper 1) (keep [(.RST_WDCTL, 0, 0x31)])).sys.wdLeft = 3 * 65536 ∧
    mayWrite (keep []).block.eng keeper .RST_WDCTL 0 0x51 = true ∧ (eng (.watchdogEnable keeper 0x51) (keep [])).reg .RST_WDCTL 0 = 0x51 ∧
    (eng (.watchdogEnable keeper 0x51) (keep [])).sys.wdLeft = 5 * 65536 := by decide +kernel
theorem witness_bist_go : (let s := cm 6 [3] .posted 5 (fun e => (e.setReg .KEY_CSTAT 0 0x80600).setFld F.KEY_CSTAT_TAKEN 0 1)
    mayWrite s.block.eng keeper .RST_BISTCTL 0 7 = true ∧ (eng (.bistGo keeper 7) s).sys.bist = some (3, 18000100)) := by decide +kernel
/-- The scrubber: it is the turn of word 5 of memory 2 and of word 6 of memory 4; thread 2 has issued in this cycle. -/
def scr (ecc : List (Nat × Bool)) : State := mk { (regs eng0 [(.RST_SCRUB, 0, 1)]).setThr 2 { issued := 101 } with
  ecc := ecc, sys := { scrub := [(2, (5, 100)), (4, (6, 90))] }, clk := { cycle := 100 } }
theorem witness_scrub : (scr []).block.eng.flag F.RST_SCRUB_EN 0 = true ∧ (scr []).block.eng.engState = 3 ∧ Tab.get (0, 0) (scr []).block.eng.sys.scrub 2 = (5, 100) ∧
    goes (.scrubVisit 2 5) (scr []) (withEng (scr []) { (scr []).block.eng with closing := [(.scrub, 2, 5)] }) = true ∧ pavOf 2 + 4 = 4 ∧
    ((scr []).block.eng.scrubDo 4 6) = { (scr []).block.eng with closing := [(.scrub, 4, 6)] } := by decide +kernel
def quiet (ecc : List (Nat × Bool)) : Eng := (scr ecc).block.eng.setThr 2 {}
theorem witness_scrub_word : (quiet []).thr.all (fun x => x.2.issued != 101) = true ∧
    ((quiet []).scrubDo 2 5).ecc = [] ∧ Tab.get (0, 0) ((quiet []).scrubDo 2 5).sys.scrub 2 = (6, 164) ∧
    ((quiet [(2 * 2 ^ 20 + 5, false)]).scrubDo 2 5).ecc = [] ∧ ((quiet [(2 * 2 ^ 20 + 5, false)]).scrubDo 2 5).fld F.JX_ECCCNT_CORR 0 = 1 ∧
    ((quiet [(2 * 2 ^ 20 + 5, true)]).scrubDo 2 5).ecc = [(2 * 2 ^ 20 + 5, true)] ∧ ((quiet [(2 * 2 ^ 20 + 5, true)]).scrubDo 2 5).fld F.JX_ECCCNT_UNCORR 0 = 1 ∧
    ((quiet [(2 * 2 ^ 20 + 5, true)]).scrubDo 2 5).val .JX_ECCADDR 0 = 5 ∧ ((quiet [(2 * 2 ^ 20 + 5, true)]).scrubDo 2 5).fld F.JX_ECCSRC_MEM 0 = 2 := by decide +kernel

/-! ### The Hide -/

/-- The TAP path holds a level; registers; thread 5 selected. -/
def hd (level : Nat) (l : List (Reg × Nat × Nat) := []) (f : Eng → Eng := id) (m : Mem := {}) : State :=
  mk (f { (regs (eng0.setFld F.KEY_STAT_PROV 0 1) ([(.HIDE_AUTH, 0, if level = 0 then 0 else 4 + level), (.HIDE_HSEL, 0, 5)] ++ l)) with clk := { cycle := 100 } }) m
theorem witness_challenge : mayWrite (hd 0).block.eng .tap .HIDE_CHALCTL 0 2 = true ∧ mayWrite (hd 0).block.eng .host .HIDE_CHALCTL 0 1 = true ∧
    (eng (.challengeRequest .tap 2) (hd 0)).hide.chalPath = 1 ∧ (eng (.challengeRequest .tap 2) (hd 0)).hide.chalLevel = 2 ∧
    (eng (.challengeRequest .tap 2) (hd 0)).flag F.HIDE_AUTHSTAT_CVALID 0 = true ∧ (eng (.challengeRequest .tap 2) (hd 0)).reg .HIDE_AUTH 0 = 0 := by decide +kernel
/-- A challenge for TAP and FULL stands. -/
def chal (l : List (Reg × Nat × Nat) := []) : State :=
  hd 0 l (fun e => { e.setFld F.HIDE_AUTHSTAT_CVALID 0 1 with hide := { chal := 0x1122334455667788, chalPath := 1, chalLevel := 2 } })
theorem witness_response_wrong : mayWrite (chal).block.eng .tap .HIDE_RESP 3 0x1234 = true ∧
    leavesEng (.responseCheck .tap 0x1234) chal (fun e => decide (e.reg .HIDE_AUTH 0 = 0 ∧ e.fld F.HIDE_AUTHSTAT_FAILS 0 = 1 ∧
      e.flag F.HIDE_AUTHSTAT_COOL 0 = true ∧ e.hide.coolAt = 1048676 ∧ e.flag F.HIDE_AUTHSTAT_CVALID 0 = false)) = true := by decide +kernel
/-- The words of the right response: of the blank Ledger's key, of generation 0. -/
def chalRight : State := chal [(.HIDE_RESP, 0, 0x57B6), (.HIDE_RESP, 1, 0x832B), (.HIDE_RESP, 2, 0x61F2)]
theorem witness_response_right : leavesEng (.responseCheck .tap 0x3496) chalRight (fun e => decide (e.fld F.HIDE_AUTH_LEVEL 0 = 2 ∧
    e.fld F.HIDE_AUTH_PATH 0 = 1 ∧ e.flag F.HIDE_AUTHSTAT_CVALID 0 = false)) = true := by decide +kernel
def cool (e : Eng) : Eng := { e.setFld F.HIDE_AUTHSTAT_COOL 0 1 with hide := { coolAt := 100 } }
theorem witness_cool : goes .coolExpiry (hd 0 [] cool) (withEng (hd 0 [] cool) ((hd 0 [] cool).block.eng.setFld F.HIDE_AUTHSTAT_COOL 0 0)) = true := by decide +kernel
theorem witness_auth_drop : mayWrite (hd 2).block.eng .tap .HIDE_CHALCTL 0 4 = true ∧
    (let e := eng (.authDrop .tap 4) (hd 2 [(.HIDE_STIMEN, 0, 7)])
     e.reg .HIDE_AUTH 0 = 0 ∧ e.reg .HIDE_STIMEN 0 = 0 ∧ e.reg .HIDE_STIMEN1 0 = 0) := by decide +kernel

def apage : List (Reg × Nat × Nat) := [(.HIDE_AADDR, 0, 0x40002), (.HIDE_ADATA, 0, 0x777), (.HIDE_APAGE, 0, 0x23)]
def begins (c : Instr) (s : State) (y : HideAcc) : Bool := goes c s (done s .tap { s.block.eng with hide := { s.block.eng.hide with acc := some y } })
theorem witness_access_starts : mayWrite (hd 2 apage).block.eng .tap .HIDE_ACMD 0 1 = true ∧ mayWrite (hd 2 apage).block.eng .tap .HIDE_ACMD 0 6 = true ∧
    begins (.hideAccessRead .tap 1) (hd 2 apage) ⟨false, false, 0x40002, 0x777, 2, 3⟩ = true ∧
    begins (.hideAccessWrite .tap 2) (hd 2 apage) ⟨false, true, 0x40002, 0x777, 2, 3⟩ = true ∧
    begins (.hideCodeRead .tap 5) (hd 2 apage) ⟨true, false, 0x40002, 0x777, 2, 3⟩ = true ∧
    begins (.hideCodeWrite .tap 6) (hd 2 apage) ⟨true, true, 0x40002, 0x777, 2, 3⟩ = true := by decide +kernel
theorem witness_access_observe : mayWrite (hd 1 apage).block.eng .tap .HIDE_ACMD 0 1 = true ∧
    begins (.hideAccessRead .tap 1) (hd 1 [(.HIDE_AADDR, 0, 0xCD001)]) ⟨false, false, 0xCD001, 0, 0, 0⟩ = true ∧
    (let e := eng (.hideAccessRead .tap 1) (hd 1 apage)
     e.hide = (hd 1 apage).block.eng.hide ∧ e.fld F.HIDE_ASTAT_RESP 0 = 1 ∧ e.fld F.HIDE_ASTAT_ERR 0 = 3) := by decide +kernel
/-- An access is in progress; all threads of the pavilions below n are HALTED. -/
def acc (y : HideAcc) (n : Nat := 0) (m : Mem := {}) (l : List (Reg × Nat × Nat) := []) : State :=
  hd 2 l (fun e => { e with hide := { acc := some y }, thr := (List.range (21 * n)).map (fun i => (i + 1, ({ st := .halted } : Thr))) }) m
def answers (e : Eng) (resp err : Nat) : Bool := @decide (accAnswered e resp err) (by unfold accAnswered; infer_instance)
theorem witness_access_register : (let y : HideAcc := ⟨false, false, Reg.addr .PWR_TOL0 0, 0, 0, 0⟩
    mayRead (acc y).block.eng .hide .PWR_TOL0 0 = true ∧ 0xC0000 ≤ y.addr ∧ y.addr < 0xF0000 ∧
    (let e := eng .hideAccessDone (acc y 0 {} [(.PWR_TOL0, 0, 0x4321)])
     answers e 0 0 = true ∧ e.val .HIDE_ADATA 0 = 0x4321)) := by decide +kernel
def shm : Mem := { data := [(0x40002, 0x12345), (0x40003, 9)] }
theorem witness_access_data : answers (eng .hideAccessDone (acc ⟨false, false, 0x40002, 0, 0, 0⟩ 2 shm)) 1 3 = true ∧
    (let e := eng .hideAccessDone (acc ⟨false, false, 0x40002, 0, 0, 0⟩ 3 shm)
     answers e 0 0 = true ∧ e.reg .HIDE_ADATA 0 = 0x12345) ∧
    (let u := post .hideAccessDone (acc ⟨false, true, 0x40002, 0x777, 0, 0⟩ 3 shm)
     answers u.block.eng 0 0 = true ∧ u.block.mem = { data := [(0x40002, 0x777), (0x40003, 9)] }) := by decide +kernel
def cdm : Mem := { code := [(0x20010, 0xAB), (0x20011, 0xCD)] }
theorem witness_access_code : answers (eng .hideAccessDone (acc ⟨true, false, 0x10, 0, 1, 0⟩ 1 cdm)) 1 3 = true ∧
    (let e := eng .hideAccessDone (acc ⟨true, false, 0x10, 0, 1, 0⟩ 2 cdm)
     answers e 0 0 = true ∧ e.reg .HIDE_ADATA 0 = 0xABCD) ∧
    (let u := post .hideAccessDone (acc ⟨true, true, 0x10, 0x1234, 1, 0⟩ 2 cdm)
     answers u.block.eng 0 0 = true ∧ u.block.mem = { code := [(0x20010, 0x12), (0x20011, 0x34)] }) := by decide +kernel
def tap (h : Hide) : State := hd 0 [] (fun e => { e with hide := h })
theorem witness_tap : (eng .tapCapture (tap { tapLast := 9 })).hide = { tapLast := 9, tapOut := 9 } ∧
    (eng (.tapUpdate 0x312300045) (tap {})).hide = { tapOut := 0x312300045, tapReq := some 0x312300045 } ∧
    (eng (.tapUpdate 0x412300045) (tap {})).hide = { tapOut := 0x012300045 } ∧
    (eng (.tapUpdate 0x112300045) (tap { tapReq := some 5 })).hide = { tapOut := 0x112300045, tapReq := some 5 } ∧
    (eng .tapReset (tap { tapReq := some 5, tapLast := 7 })).hide = { tapLast := 7 } ∧ (tap { tapReq := some 5 }).block.eng.hide.tapReq = some 5 := by decide +kernel

/-- Threads 5 and 6 run, thread 30 waits in another pavilion. -/
def hts (f : Thr → Thr := id) (l : List (Reg × Nat × Nat) := []) : State :=
  hd 2 l (fun e => ((e.setThr 5 (f { st := .run, pc := 0x200 })).setThr 6 { st := .run }).setThr 30 { st := .wait, wait := .wtk })
def at30 : Thr := { st := .wait, wait := .wtk }
theorem witness_halt : mayWrite hts.block.eng .tap .HIDE_HCTL 0 1 = true ∧ mayWrite hts.block.eng .tap .HIDE_HCTL 0 8 = true ∧ mayWrite hts.block.eng .tap .HIDE_HCTL 0 32 = true ∧
    (let e := eng (.hideHalt .tap 1) hts
     e.getThr 5 = haltedNow 100 { st := .run, pc := 0x200 } ∧ e.getThr 6 = { st := .run } ∧ e.val .HIDE_HCAUSE 5 = 0) ∧
    (let e := eng (.haltpav .tap 8) hts
     e.getThr 5 = haltedNow 100 { st := .run, pc := 0x200 } ∧ e.getThr 6 = haltedNow 100 { st := .run } ∧ e.getThr 30 = at30 ∧ e.val .HIDE_HCAUSE 6 = 64) ∧
    (let e := eng (.haltall .tap 32) hts
     e.getThr 30 = haltedNow 100 at30 ∧ e.getThr 63 = haltedNow 100 {} ∧ e.getThr 0 = {} ∧ e.val .HIDE_HCAUSE 30 = 80) := by decide +kernel
def h5 (x : Thr) : Thr := { x with st := .halted, prev := .run, haltReq := none }
theorem witness_resume : mayWrite (hts h5).block.eng .tap .HIDE_HCTL 0 2 = true ∧ mayWrite (hts h5).block.eng .tap .HIDE_HCTL 0 16 = true ∧
    mayWrite (hts h5).block.eng .tap .HIDE_HCTL 0 64 = true ∧ mayWrite (hts h5).block.eng .tap .HIDE_HCTL 0 4 = true ∧
    (eng (.hideResume .tap 2) (hts h5)).getThr 5 = resumedAt 100 false (h5 { pc := 0x200 }) ∧
    (eng (.resumepav .tap 16) (hts h5)).getThr 5 = resumedAt 100 false (h5 { pc := 0x200 }) ∧
    (eng (.resumeall .tap 64) (hts h5)).getThr 5 = resumedAt 100 false (h5 { pc := 0x200 }) ∧ (eng (.resumeall .tap 64) (hts h5)).getThr 30 = at30 ∧
    (eng (.hideStep .tap 4) (hts h5)).getThr 5 = resumedAt 100 true (h5 { pc := 0x200 }) := by decide +kernel
theorem witness_halted_register : mayWrite (hts h5 [(.HIDE_HIDX, 0, 3)]).block.eng .tap .HIDE_HDATA 0 0x12345 = true ∧
    (eng (.haltedRegisterWrite .tap 0x12345) (hts h5 [(.HIDE_HIDX, 0, 3)])).getThr 5 = h5 { pc := 0x200, g := [(3, 0x12345)] } ∧
    (eng (.haltedRegisterWrite .tap 0x12) (hts h5 [(.HIDE_HIDX, 0, 17)])).getThr 5 = h5 { pc := 0x200, flags := 0x12 } := by decide +kernel
theorem witness_feed_go : (let s := hts h5 [(.HIDE_INSN, 0, 0x1122), (.HIDE_INSN, 1, 0x3300)]
    mayWrite s.block.eng .tap .HIDE_FEED 0 0x13 = true ∧ (eng (.feedGo .tap 0x13) s).hide.feed = some (5, [0x11, 0x22, 0x33]) ∧
    (eng (.feedGo .tap 0x13) s).flag F.HIDE_FSTAT_BUSY 0 = true ∧ (eng (.feedGo .tap 0x13) s).hide.feedAt = 100 ∧
    (eng (.feedGo .tap 0x13) s).hide.feedIss = false ∧ (eng (.feedGo .tap 0x13) s).hide.feedRes = none) := by decide +kernel
/-- Thread 5 is fed bytes in cycle 98; G1 = 0x00F0F, G2 = 3; entry 4 of lane 0, that of cycle 100, is its own. -/
def fed (l : List Byte) (r : Option (Nat × Nat × Nat) := none) : State :=
  let e := (hts (fun x => { h5 x with g := [(1, 0x00F0F), (2, 3)] })).block.eng
  withEng (hts h5) { e.setBrl 0 { e.getBrl 0 with force := [(4, 5)] } with hide := { feed := some (5, l), feedAt := 98, feedRes := r } }
theorem witness_own_entry : ownEntry (fed []).block.eng 5 ∧ (fed []).block.eng.barrelRuns (pavOf 5) = true :=
  ⟨⟨0, by decide, by decide +kernel⟩, by decide +kernel⟩
def feedOk (k : AluOp) : Bool :=
  let s := fed [BitVec.ofNat 8 (0x10 + k.code), 0x12]
  let x := s.block.eng.getThr 5
  let b := s.block.feedStep
  decide (b.mem = s.block.mem ∧ b.eng.hide.feedRes = some (0, 0, 108) ∧ b.eng.getThr 5 = { aluWrites k (.reg 0x12) wWord x with pc := x.pc } ∧
    b.eng.getThr 6 = s.block.eng.getThr 6) && (AluOperand.reg 0x12).ok k.shifts wWord
theorem witness_feed : [AluOp.mov, .adc, .cmp, .mulh].all feedOk = true := by decide +kernel
theorem witness_feed_rejected : ((fed [0xA0]).block.feedStep.eng.hide.feedRes, (fed [0xA0]).block.feedStep.eng.thr) = (some (1, 0, 100), (fed [0xA0]).block.eng.thr) ∧
    (fed [6]).block.feedStep.eng.hide.feedRes = some (1, 0, 100) ∧ (fed [0xF0]).block.feedStep.eng.hide.feedRes = some (1, 0, 100) := by decide +kernel
theorem witness_feed_done : (eng .feedDone (fed [0xA0] (some (1, 0, 100)))).hide.feed = none ∧ (eng .feedDone (fed [0xA0] (some (1, 5, 100)))).fld F.HIDE_FSTAT_RESULT 0 = 1 ∧
    (eng .feedDone (fed [0xA0] (some (1, 5, 100)))).fld F.HIDE_FSTAT_CAUSE 0 = 5 ∧
    goes .feedDone (fed [0xA0] (some (1, 5, 101))) (fed [0xA0] (some (1, 5, 101))) = true := by decide +kernel

/-- Terminal FIFOs of pavilion 0; comparison of thread 1 at level 1. -/
def vt (tx rx : List (Nat × Nat)) (l : List (Reg × Nat × Nat) := []) : State := hd 1 l (fun e => { e with hide := { tx := [(0, tx)], rx := [(0, rx)] } })
theorem witness_terminal_out : mayWrite (vt [] []).block.eng keeper .HIDE_TXD 0 0x41 = true ∧ txOf (eng (.vtTxWrite keeper 0 0x41) (vt [(7, 2)] [])) 0 = [(7, 2), (0x41, 1)] ∧
    (let s := vt (List.replicate 8 (7, 2)) []
     (eng (.vtTxWrite keeper 0 0x41) s).fld F.HIDE_VTSTAT_TXDROP 0 = 1 ∧ (eng (.vtTxWrite keeper 0 0x41) s).hide = s.block.eng.hide) ∧
    mayRead (vt [(7, 2)] []).block.eng .tap .HIDE_TXD 0 = true ∧ txOf (eng (.vtTxRead .tap 0) (vt [(7, 2), (8, 3)] [])) 0 = [(8, 3)] ∧
    (eng (.vtTxRead .tap 0) (vt [(7, 2)] [])).sys.ans = (65, 0, 0x80007) ∧ (eng (.vtTxRead .tap 0) (vt [(7, 2)] [])).fld F.HIDE_TXTID_TID 4 = 2 := by decide +kernel
theorem witness_terminal_in : mayWrite (vt [] []).block.eng .tap .HIDE_RXD 0 0x42 = true ∧
    rxOf (eng (.vtRxWrite .tap 0 0x42) (vt [] [(1, 1)] [(.HIDE_RXTID, 0, 5)])) 0 = [(1, 1), (0x42, 5)] ∧
    (let s := vt [] (List.replicate 4 (1, 1))
     (eng (.vtRxWrite .tap 0 0x42) s).flag F.HIDE_VTSTAT_RXOVF 0 = true ∧ (eng (.vtRxWrite .tap 0 0x42) s).hide = s.block.eng.hide) ∧
    mayRead (vt [] [(9, 1)]).block.eng keeper .HIDE_RXD 0 = true ∧ (eng (.vtRxRead keeper 0) (vt [] [(9, 1)])).sys.ans = (1, 0, 0x80009) ∧
    (eng (.vtRxRead keeper 0) (vt [] [(9, 2)])).sys.ans = (1, 0, 0) ∧ rxOf (eng (.vtRxRead keeper 0) (vt [] [(9, 2)])) 0 = [(9, 2)] := by decide +kernel
/-- Stimulus port 3 in a mode, open to pavilion 0, trace on. -/
def stim (mode : Nat) (h : Hide := { buf := [1], lastCyc := 60 }) (en : Nat := 8) : State :=
  hd 1 [(.HIDE_STIMEN, 0, en), (.HIDE_SPCFG, 3, 0x10 + 4 * mode), (.HIDE_TRCTL, 0, 1), (.HIDE_SPSEL, 0, 3)] (fun e => { e with hide := h })
def openB (s : State) : Bool := @decide (stimOpen s.block.eng 3 1) (by unfold stimOpen; infer_instance)
theorem witness_stimulus : (stim 0).block.eng.hide.packets = [] ∧ mayWrite (stim 0).block.eng keeper .HIDE_STIM 3 0x54321 = true ∧ openB (stim 0) = true ∧ openB (stim 0 {} 0) = false ∧ (stim 0).block.eng.traceOn = true ∧
    (eng (.stimValue keeper 3 0x54321) (stim 0)).hide.packets.map (·.2) = [(0x43, [0x21, 0x43, 5, 1])] ∧
    (eng (.stimValue keeper 3 0x54321) (stim 0)).traceEnd.hide.buf = [1, 0x43, 40, 0, 0x21, 0x43, 5, 1] ∧ (stim 0).block.eng.hide.lost = 0 ∧ (stim 0).block.eng.hide.buf.length + 14 + 4 < 30 ∧
    (let s := stim 0 {} 0
     goes (.stimValue keeper 3 0x54321) s (done s keeper s.block.eng) = true) ∧
    Tab.get 0 (eng (.stimTally keeper 3 0x54321) (stim 1 { tally := [(3, 0xF0000)] })).hide.tally 3 = 0x44321 ∧
    (eng (.stimMark keeper 3 0x54321) (stim 2)).hide.packets.map (·.2) = [(0x20, []), (0x43, [0x21, 0x43, 5, 0x81])] ∧
    (eng (.stimMark keeper 3 0x54321) (stim 2)).traceEnd.hide.buf = [1, 0x20, 0, 0, 0, 0, 0, 0, 0, 0, 0, 0, 0x43, 0, 0, 0x21, 0x43, 5, 0x81] := by decide +kernel
theorem witness_tally_clear : mayWrite (stim 1).block.eng .tap .HIDE_SPCFG 0 0x15 = true ∧
    Tab.get 0 (eng (.tallyClear .tap 0x15) (stim 1 { tally := [(3, 5)] })).hide.tally 3 = 0 := by decide +kernel

/-! ### The whole machine -/

theorem witness_step_front : (keep []).pending = [] ∧
    (let s : State := { keep [] with pending := [.knock true, .knock false] }
     match step s with
     | .next u => decide (u.pending = [.knock false] ∧ u.block.eng.sys.knock = true)
     | _ => false) = true := by decide +kernel
theorem test_no_thread_stops : exec (.nop 0 []) (keep []) = .fault .noThread := rfl
theorem witness_memory_form : Inv (keep []) = true ∧ (match step (keep []) with | .next u => Inv u | _ => false) = true := by decide +kernel
theorem witness_parts : partsOf (.knock true) = some (false, [.pwr, .sys]) ∧ (eng (.knock true) (keep [])).regs = (keep []).block.eng.regs ∧
    (eng (.knock true) (keep [])).sys ≠ (keep []).block.eng.sys := by decide +kernel
theorem witness_write_parts : actionOf (.watchdogKick keeper 1) = some (keeper, .RST_WDKICK, 0, 1, true) ∧ mayWrite (keep []).block.eng keeper .RST_WDKICK 0 1 = true ∧
    ((keep []).block.writeWord keeper .RST_WDKICK 0 1).1 = 0 := by decide +kernel
theorem test_reset_state : Inv State.reset = true ∧ State.reset.pending = [] ∧ State.reset.block.eng.getThr 1 = { st := .run, pc := 0xFC000 } ∧
    State.reset.block.eng.engState = 0 ∧ State.reset.block.eng.flag F.RST_STAT_PLLLOCK 0 = false := by decide +kernel
theorem test_reset_words : resetWords.all (fun x => (List.range x.2.1).all (fun i => State.reset.block.eng.val x.1 i == x.2.2)) = true := by decide +kernel
theorem test_reset_tmr_ofs : (List.range 24).all (fun u => State.reset.block.eng.val .TMR_OFS u == u % 8 * 0x20000) = true := by decide +kernel
theorem test_reset_slots : (List.range 3).all (fun p => (List.range 128).all (fun a => Tab.get 0 (State.reset.block.eng.getBrl p).force a ==
    (if p = 0 ∧ (a = 0 ∨ a = 8 ∨ a = 16 ∨ a = 24) then 1 else 0))) = true := by decide +kernel
theorem witness_identity : (let e := eng (writeId .host 5) (setup [])
     e.sys.ans = (64, 1, 0) ∧ e.flag F.JX_SETUP_ERR_VALID 0 = true ∧ e.fld F.JX_SETUP_ERR_CODE 0 = 1 ∧ e.val .JX_SETUP_EADDR 0 = Reg.addr .JX_ID 0 ∧
     e.reg .JX_ID 0 = (setup []).block.eng.reg .JX_ID 0) ∧
    (let e := eng (writeId keeper 5) (keep [])
     (e.getThr 1).st = .faulted ∧ e.reg .THR_FCAUSE 1 = 2 ∧ e.val .THR_FADDR 1 = Reg.addr .JX_ID 0) := by decide +kernel
theorem witness_parts_first : partsOf (.nop 1 []) = some (true, threadParts) ∧ (eng (.nop 1 []) (keep [])).links = (withEng (keep []) (keep []).block.eng.deliverDue).block.eng.links ∧
    (match exec (.nop 1 []) (keep []) with | .next _ => true | _ => false) = true := by decide +kernel
/-- RATE staged above its range. -/
def badRate (s : State) : State := withEng s (regs s.block.eng [(.SUN_RATE0, 0, 0), (.SUN_RATE1, 0, 0x40000), (.SUN_STAT, 0, 1)])
theorem witness_bad_rate : 1099511627 < (badRate (keep [])).block.eng.stagedRate.toInt ∧
    (let e := eng (.sundialRate keeper 3) (badRate (keep []))
     (e.getThr 1).st = .faulted ∧ e.reg .THR_FCAUSE 1 = 2 ∧ e.val .THR_FADDR 1 = Reg.addr .SUN_CTL 0 ∧ e.clk = (keep []).block.eng.clk ∧ e.reg .SUN_STAT 0 = 1) ∧
    (let e := eng (.sundialRate .host 3) (badRate (setup []))
     e.sys.ans = (64, 1, 0) ∧ e.flag F.JX_SETUP_ERR_VALID 0 = true ∧ e.fld F.JX_SETUP_ERR_CODE 0 = 2 ∧ e.clk = (setup []).block.eng.clk ∧ e.reg .SUN_STAT 0 = 1) := by
  decide +kernel

end Sys2Proof.Tests
end

section
/-! PROOFS. The tick sequencer (02_time_levels.md): what leaves its record and its status register alone, a write of TIK_CTL as a command,
the index that a decision picks, what a launch and the end of ticks leave. -/

namespace Sys2Proof.TickProofs

open Sys2Proof.Machine Sys2Proof.Safety Sys2Proof.Claims

/-! ### What leaves the sequencer's record, the clocks and its status register alone -/

/-- A fold keeps what each of its steps keeps. -/
theorem foldS_keeps {α σ β : Type} (g : σ → β) {f : α → σ → σ} (h : ∀ a s, g (f a s) = g s) (l : List α) (s : σ) :
    g (foldS f l s) = g s := by
  induction l generalizing s with
  | nil => rfl
  | cons a l ih => exact (ih (f a s)).trans (h a s)

/-- A choice keeps what both of its branches keep. -/
theorem ite_keeps {σ β : Type} (g : σ → β) {c : Prop} [Decidable c] {a b s : σ} (ha : g a = g s) (hb : g b = g s) :
    g (if c then a else b) = g s := by
  split
  · exact ha
  · exact hb

/-- The tick sequencer's record, the clocks and the sequencer's status register. -/
def tickView (e : Eng) : Tick × Clk × Word := (e.tick, e.clk, e.reg .TIK_STAT 0)

theorem tick_of_tickView {e e' : Eng} (h : tickView e' = tickView e) : e'.tick = e.tick := congrArg Prod.fst h

theorem running_of_tickView {e e' : Eng} (h : tickView e' = tickView e) : e'.running = e.running :=
  congrArg (fun x : Tick × Clk × Word => decide (bits x.2.2.toNat 1 1 ≠ 0)) h

theorem now_of_tickView {e e' : Eng} (h : tickView e' = tickView e) : e'.now = e.now := congrArg (fun x : Tick × Clk × Word => x.2.1.cycle) h

section Registers

variable (e : Eng) (i n : Nat) {r : Reg} {f : Fld}

/-- A register after TIK_STAT in the list of registers is stored behind it, whatever its index. -/
theorem tickView_setReg (v : Word) (h : 2 < r.ctorIdx) : tickView (e.setReg r i v) = tickView e := by
  have hk : Reg.key .TIK_STAT 0 ≠ r.key i := by
    have hs : Reg.key .TIK_STAT 0 = 2048 := by decide
    rw [hs, Reg.key]
    omega
  simp [tickView, Eng.reg_setReg_ne e v hk]

theorem tickView_setFld (h : 2 < f.reg.ctorIdx) : tickView (e.setFld f i n) = tickView e := tickView_setReg e i _ h

theorem tickView_bumpReg (h : 2 < r.ctorIdx) : tickView (e.bumpReg r i n) = tickView e := tickView_setReg e i _ h

theorem tickView_postBits (h : 2 < r.ctorIdx) : tickView (e.postBits r i n) = tickView e := tickView_setReg e i _ h

theorem tickView_post (h : 2 < f.reg.ctorIdx) : tickView (e.post f i) = tickView e := tickView_setReg e i _ h

end Registers

section Units

variable (e : Eng)

@[simp] theorem tickView_count (b u k n : Nat) : tickView (e.count b u k n) = tickView e := by
  unfold Eng.count
  split <;> rfl

@[simp] theorem tickView_setRing (r : Nat) (x : Ring) : tickView (e.setRing r x) = tickView e := rfl

@[simp] theorem tickView_raise (b : Nat) : tickView (e.raise b) = tickView e := tickView_postBits e _ _ (by decide)

@[simp] theorem tickView_issueTxn (x : Txn) : tickView (e.issueTxn x) = tickView e := by
  unfold Eng.issueTxn
  dsimp only
  split <;> rfl

@[simp] theorem tickView_ringKick (r : Nat) : tickView (e.ringKick r) = tickView e := by
  unfold Eng.ringKick
  dsimp only
  split
  · rfl
  · split
    · rfl
    · split <;> simp

@[simp] theorem tickView_ringPost (r : Nat) (d : List Byte) : tickView (e.ringPost r d) = tickView e := by
  simp [Eng.ringPost, Eng.ringOut, tickView_setFld e r _ (f := F.HRG_RIDX_D) (by decide)]

@[simp] theorem tickView_ringLose (r : Nat) : tickView (e.ringLose r) = tickView e := by
  unfold Eng.ringLose
  dsimp only
  split <;> simp

@[simp] theorem tickView_ringLog (r : Nat) (a b : List Byte) : tickView (e.ringLog r a b) = tickView e := by
  unfold Eng.ringLog
  dsimp only
  split
  · rfl
  · split
    · simp
    · split
      · simp
      · split <;> simp

@[simp] theorem tickView_evq (t s : Nat) (p : List Byte) : tickView (e.evq t s p) = tickView e := tickView_ringLog e _ _ _

@[simp] theorem tickView_fire (ch dom : Nat) : tickView (e.fire ch dom) = tickView e := by
  unfold Eng.fire
  dsimp only
  split
  · rfl
  · split
    · exact tickView_bumpReg _ _ _ (by decide)
    · split
      · rfl
      · rw [tickView_evq, tickView_setFld _ _ _ (by decide), tickView_setFld _ _ _ (by decide), tickView_post _ _ (by decide),
          tickView_postBits _ _ _ (by decide), tickView_bumpReg _ _ _ (by decide)]
        rfl

@[simp] theorem tickView_produce (k dom : Nat) : tickView (e.produce k dom) = tickView e := by
  unfold Eng.produce
  split
  · exact tickView_fire e _ _
  · rfl

/-! ### Layers and links -/

@[simp] theorem tickView_modLayer (n : Nat) (f : Layer → Layer) : tickView (e.modLayer n f) = tickView e := rfl

@[simp] theorem tickView_schState (n st : Nat) : tickView (e.schState n st) = tickView e := by
  unfold Eng.schState
  split
  · rfl
  · simp

@[simp] theorem tickView_toListen (n : Nat) : tickView (e.toListen n) = tickView e := by simp [Eng.toListen]

/-- R224: the layers that leave their windows. -/
@[simp] theorem tickView_schTicksStop : tickView e.schTicksStop = tickView e := by
  refine foldS_keeps tickView (fun n e => ite_keeps tickView rfl ?_) _ _
  rw [tickView_modLayer]
  exact ite_keeps tickView (tickView_toListen e n) rfl

/-- R210: the row sets that are checked again. -/
@[simp] theorem tickView_schRecheck : tickView e.schRecheck = tickView e := by
  refine foldS_keeps tickView (fun n e => ite_keeps tickView rfl (ite_keeps tickView (tickView_modLayer e n _) ?_)) _ _
  rw [tickView_schState, tickView_modLayer, tickView_post _ _ (by decide), tickView_setFld _ _ _ (by decide)]

@[simp] theorem tickView_expiryEvent (n : Nat) : tickView (e.expiryEvent n) = tickView e := by
  unfold Eng.expiryEvent
  split <;> rfl

end Units

section TickAlone

variable (e : Eng)

@[simp] theorem tick_evq (t s : Nat) (p : List Byte) : (e.evq t s p).tick = e.tick := tick_of_tickView (tickView_evq e t s p)

@[simp] theorem tick_produce (k dom : Nat) : (e.produce k dom).tick = e.tick := tick_of_tickView (tickView_produce e k dom)

@[simp] theorem tick_schRecheck : e.schRecheck.tick = e.tick := tick_of_tickView (tickView_schRecheck e)

@[simp] theorem tick_trace (p b : Nat) (l : List Byte) : (e.trace p b l).tick = e.tick := by
  unfold Eng.trace
  split <;> rfl

@[simp] theorem tick_emitTallies : e.emitTallies.tick = e.tick := by
  unfold Eng.emitTallies
  dsimp only
  exact foldS_keeps Eng.tick (fun p e => ite_keeps Eng.tick (tick_trace e _ _ _) rfl) _ _

@[simp] theorem tick_traceLaunch : e.traceLaunch.tick = e.tick := rfl

@[simp] theorem tick_releaseWtk : e.releaseWtk.tick = e.tick := rfl

@[simp] theorem tick_wakeBy (m : Nat) : (e.wakeBy m).tick = e.tick := by
  unfold Eng.wakeBy
  split <;> rfl

@[simp] theorem tick_recordOverruns (l : List Nat) (c : Nat) : (e.recordOverruns l c).tick = e.tick := by
  cases l with
  | nil => rfl
  | cons t l =>
    simp only [Eng.recordOverruns, tick_evq, tick_produce, Eng.bumpReg_tick, Eng.post_tick]
    exact (foldS_keeps Eng.tick (fun t e => Eng.postBits_tick e _ _ _) _ _).trans (ite_keeps Eng.tick rfl rfl)

@[simp] theorem tick_takeTable (p : Nat) : (e.takeTable p).tick = e.tick := by
  cases h : (e.getBrl p).pend <;> simp [Eng.takeTable, h]

@[simp] theorem tick_launchTables (m : Bool) : (e.launchTables m).tick = e.tick := by
  refine foldS_keeps Eng.tick (fun p e => ?_) _ _
  split
  · exact ite_keeps Eng.tick (tick_takeTable e p) rfl
  · rfl

@[simp] theorem tick_linkTicks : e.linkTicks.tick = e.tick := by
  refine foldS_keeps Eng.tick (fun n e => ?_) _ _
  split <;> rfl

@[simp] theorem tick_auditStart : e.auditStart.tick = e.tick := by
  unfold Eng.auditStart
  split
  · rfl
  · split <;> rfl

end TickAlone

/-! ### A write of TIK_CTL as a command -/

section Commands

variable (who : Acc) (v : Word) (s : State)

theorem exec_tickApply : exec (.tickApply who v) s = s.action who .TIK_CTL 0 v (fun v => bit v 1) := rfl

theorem exec_tickCancel : exec (.tickCancel who v) s = s.action who .TIK_CTL 0 v (fun v => bit v 3) := rfl

theorem exec_tickRunSet : exec (.tickRunSet who v) s = s.action who .TIK_CTL 0 v (fun v => bit v 0) := rfl

theorem exec_tickRunClear : exec (.tickRunClear who v) s = s.action who .TIK_CTL 0 v (fun v => !bit v 0) := rfl

/-- A command of a part whose clock runs in RUN and DOZE, in one of the two. -/
theorem onAwake_awake {f : Eng → Eng} (h : s.block.eng.awake = true) : s.onAwake (fun b => b.onEng f) = .next (withEng s (f s.block.eng)) := by
  simp [State.onAwake, h, withEng, Block.onEng, Block.withEng]

theorem exec_tickLaunch (h : s.block.eng.awake = true) : exec .tickLaunch s = .next (withEng s s.block.eng.tickLaunch) := onAwake_awake s h

theorem exec_tickRunningClear (h : s.block.eng.awake = true) :
    exec .tickRunningClear s = .next (withEng s s.block.eng.tickRunningClear) := onAwake_awake s h

end Commands

theorem bit_toNat (v : Word) (i : Nat) : bit v.toNat i = v.getLsbD i := by
  simp [bit, BitVec.getLsbD, Nat.testBit, Nat.and_comm 1, Nat.and_one_is_mod]

/-- A legal action that succeeds is its write, answered DONE. -/
theorem action_legal {who : Acc} {r : Reg} {i : Nat} {v : Word} {s : State} {st : Nat → Bool} {e : Eng} (h : legal s who r i v)
    (hs : st v.toNat = true) (hw : s.block.writeWord who r i v.toNat = (0, e)) : s.action who r i v st = .next (done s who e) := by
  simp only [legal, mayWrite, Bool.and_eq_true, decide_eq_true_eq, beq_iff_eq] at h
  obtain ⟨⟨hf, hw0⟩, hc⟩ := h
  rw [State.action_starts s who r i v st hw0 hs, Block.regWrite_legal _ _ _ _ _ _ hf hc (by rw [hw]), hw]
  rfl

section Fields

variable (e : Eng) (v : Nat)

theorem run_setFld_stat (f : Fld) (n : Nat) (h : f.reg = .TIK_STAT) : (e.setFld f 0 n).flag F.TIK_CTL_RUN 0 = e.flag F.TIK_CTL_RUN 0 := by
  simp only [Eng.flag, Eng.fld_setFld_far e f F.TIK_CTL_RUN 0 0 n (by rw [h]; decide)]

theorem running_setFld_run (n : Nat) : (e.setFld F.TIK_CTL_RUN 0 n).running = e.running := by
  simp only [Eng.running, Eng.flag, Eng.fld_setFld_far e F.TIK_CTL_RUN F.TIK_STAT_RUNNING 0 0 n (by decide)]

/-- A write of TIK_CTL stores its bits, RUN among them. -/
theorem run_store : (e.store .TIK_CTL 0 v).flag F.TIK_CTL_RUN 0 = bit v 0 := by
  have hset : Reg.mask .TIK_CTL (fun x => x == .rw || x == .wo) = 5 := by decide
  have hclr : Reg.mask .TIK_CTL (· == .w1c) = 0 := by decide
  have hval : (e.store .TIK_CTL 0 v).val .TIK_CTL 0 = (e.val .TIK_CTL 0 - (e.val .TIK_CTL 0 &&& 5) + (v &&& 5)) % 2 ^ 20 := by
    simp only [Eng.store, hset, hclr, Eng.val, Eng.reg_setReg]
    simp [word]
  have hlow : ∀ n : Nat, (n &&& 5) % 2 = n % 2 := fun n => by
    have h := Nat.and_mod_two_pow (a := n) (b := 5) (n := 1)
    simpa [Nat.and_one_is_mod] using h
  have hle : e.val .TIK_CTL 0 &&& 5 ≤ e.val .TIK_CTL 0 := Nat.and_le_left
  have hbit : (e.store .TIK_CTL 0 v).fld F.TIK_CTL_RUN 0 = v % 2 := by
    have h1 := hlow v
    have h2 := hlow (e.val .TIK_CTL 0)
    simp only [Eng.fld, hval, bits, Nat.shiftRight_zero]
    omega
  simp only [Eng.flag, hbit, bit, Nat.shiftRight_zero]
  rcases Nat.mod_two_eq_zero_or_one v with h | h <;> simp [h]

theorem pending_store : (e.store .TIK_CTL 0 v).flag F.TIK_STAT_PENDING 0 = e.flag F.TIK_STAT_PENDING 0 := by
  simp only [Eng.flag, Eng.fld, Eng.val, Eng.store, Eng.reg_setReg_ne e (r := .TIK_CTL) (q := .TIK_STAT) (i := 0) (j := 0) _ (by decide)]
  rfl

@[simp] theorem tick_store : (e.store .TIK_CTL 0 v).tick = e.tick := rfl

end Fields

section Control

variable {e e' : Eng} {v : Nat}

theorem ns_eq : e.ns = e.clk.sun.toNat / 2 ^ 40 := Nat.shiftRight_eq_div_pow _ _

theorem t80_eq : e.t80 = e.clk.sun.toNat / 2 ^ 20 := Nat.shiftRight_eq_div_pow _ _

/-- A write with APPLY that leaves RUN as it is. -/
theorem wrTikCtl_apply (hc : bit v 3 = false) (ha : bit v 1 = true) (h : e.tickApply (bit v 2) = (0, e'))
    (hr : bit v 0 = e'.flag F.TIK_CTL_RUN 0) : e.wrTikCtl v = (0, e'.store .TIK_CTL 0 v) := by
  simp [Eng.wrTikCtl, hc, ha, h, hr]

/-- A write with CANCEL that leaves RUN as it is. -/
theorem wrTikCtl_cancel (hc : bit v 3 = true) (ha : bit v 1 = false) (h : e.tickCancel = e') (hr : bit v 0 = e'.flag F.TIK_CTL_RUN 0) :
    e.wrTikCtl v = (0, e'.store .TIK_CTL 0 v) := by
  simp [Eng.wrTikCtl, hc, ha, h, hr]

theorem wrTikCtl_set (hc : bit v 3 = false) (ha : bit v 1 = false) (h0 : bit v 0 = true) (hr : e.flag F.TIK_CTL_RUN 0 = false) :
    e.wrTikCtl v = (0, e.tickArm.store .TIK_CTL 0 v) := by
  simp [Eng.wrTikCtl, hc, ha, h0, hr]

theorem wrTikCtl_clear (hc : bit v 3 = false) (ha : bit v 1 = false) (h0 : bit v 0 = false) (hr : e.flag F.TIK_CTL_RUN 0 = true) :
    e.wrTikCtl v = (0, e.tickDisarm.store .TIK_CTL 0 v) := by
  simp [Eng.wrTikCtl, hc, ha, h0, hr]

/-- R43: legal settings whose budgets are met pass the checks. -/
theorem tickApply_passes (w : Bool) (hp : 128 ≤ e.stagedTicks.p) (hp' : e.stagedTicks.p ≤ 1562500) (hs : e.stagedTicks.s ≤ e.stagedTicks.p / 16)
    (hb : e.budgetsMet e.stagedTicks = true) :
    e.tickApply w = (0, { e with tick := { e.tick with pend := some (e.stagedTicks, w), takeNext := !e.flag F.TIK_CTL_RUN 0 } }.setFld
      F.TIK_STAT_PENDING 0 1) := by
  unfold Eng.tickApply
  dsimp only
  rw [if_neg (by omega), if_neg (by simp [hb])]

theorem launchPlan_noBoundary (h : noBoundary e) : e.launchPlan = none := by
  unfold Eng.launchPlan
  split
  · rfl
  · next d hd => exact if_pos (Or.inl (h d hd))

theorem tickRunningClear_noBoundary (h : noBoundary e) : e.tickRunningClear = e := by
  unfold Eng.tickRunningClear
  split
  · rfl
  · next d hd => exact if_pos (Or.inl (h d hd))

/-- R44: with no boundary due, CANCEL discards the pending settings. -/
theorem tickCancel_discards (h : noBoundary e) (hp : e.tick.pend ≠ none) :
    e.tickCancel = { e with tick := { e.tick with pend := none, takeNext := false } }.setFld F.TIK_STAT_PENDING 0 0 := by
  simp [Eng.tickCancel, launchPlan_noBoundary h, tickRunningClear_noBoundary h, hp]

theorem tickTake_none (h : e.tick.pend = none) : e.tickTake = e := by simp [Eng.tickTake, h]

/-- R46: while ticks run, clearing RUN leaves the stop to a boundary. -/
theorem tickDisarm_running (h : e.running = true) :
    e.tickDisarm = { e.setFld F.TIK_CTL_RUN 0 0 with tick := { e.tick with armed := none, stopping := true } } := by
  have hr : (e.setFld F.TIK_CTL_RUN 0 0).running = true := (running_setFld_run e 0).trans h
  unfold Eng.tickDisarm
  dsimp only
  rw [hr, Bool.or_true]
  exact if_pos hr

/-- R46: an armed sequencer is disarmed. -/
theorem tickDisarm_idle (h : e.running = false) (hp : e.tick.pend = none) :
    e.tickDisarm = { e.setFld F.TIK_CTL_RUN 0 0 with tick := { e.tick with armed := none } } := by
  have hr : (e.setFld F.TIK_CTL_RUN 0 0).running = false := (running_setFld_run e 0).trans h
  unfold Eng.tickDisarm
  dsimp only
  rw [hr, Bool.or_false]
  refine (if_neg ?_).trans (tickTake_none hp)
  exact Bool.eq_false_iff.1 hr

end Control

/-- Settles O19: each command is the write of its word, which arms, disarms, applies or cancels as its bits say. -/
theorem tickControlArmsAndApplies : Obligations.TickControlArmsAndApplies := by
  intro who v s hl e set
  simp only [← bit_toNat]
  refine ⟨fun ha hc hr hp hp' hs hb => ?_, fun hc ha hr hn hp => ?_, fun h0 ha hc hr => ?_, fun h0 ha hc hr => ?_⟩
  · have hw := wrTikCtl_apply hc ha (tickApply_passes (bit v.toNat 2) hp hp' hs hb) (hr.trans (run_setFld_stat _ _ _ rfl).symm)
    refine ⟨_, (exec_tickApply who v s).trans (action_legal hl ha hw), ?_, ?_⟩
    · rw [pending_store, Eng.flag_setFld _ _ _ _ (by decide)]
      rfl
    · rw [tick_store, Eng.setFld_tick, hr]
  · have hw := wrTikCtl_cancel hc ha (tickCancel_discards hn hp) (hr.trans (run_setFld_stat _ _ _ rfl).symm)
    refine ⟨_, (exec_tickCancel who v s).trans (action_legal hl hc hw), ?_, ?_⟩
    · rw [pending_store, Eng.flag_setFld _ _ _ _ (by decide)]
      rfl
    · rw [tick_store, Eng.setFld_tick]
  · refine ⟨_, (exec_tickRunSet who v s).trans (action_legal hl h0 (wrTikCtl_set hc ha h0 hr)), (run_store _ _).trans h0, ?_⟩
    rw [tick_store]
    simp only [Eng.tickArm, ← t80_eq]
    rfl
  · have hidle : (!bit v.toNat 0) = true := by rw [h0]; rfl
    have hexec := (exec_tickRunClear who v s).trans (action_legal hl hidle (wrTikCtl_clear hc ha h0 hr))
    exact ⟨fun hrun => ⟨_, hexec, (run_store _ _).trans h0, by rw [tick_store, tickDisarm_running hrun]⟩,
      fun hrun hp => ⟨_, hexec, (run_store _ _).trans h0, by rw [tick_store, tickDisarm_idle hrun hp]⟩⟩

/-! ### Which index a decision launches -/

section Index

variable {set : TickSet} {t j : Nat}

theorem launchNs_eq (k : Nat) : launchNs set k = set.e + k * (64 * set.p) := by
  rw [launchNs, Nat.mul_assoc, Nat.mul_comm set.p 64]

/-- R46: the index from the setting of RUN on. -/
theorem indexFrom_eq (hp : 128 ≤ set.p) (h : firstFrom set t j) : set.indexFrom t = j := by
  obtain ⟨hj, hle, hlt⟩ := h
  simp only [launchNs_eq] at hle hlt
  unfold TickSet.indexFrom
  dsimp only
  generalize hu : (t + (2 ^ 20 - 1)) / 2 ^ 20 = u
  have hhi : u ≤ set.e + j * (64 * set.p) := by omega
  have hlo : ∀ i, i < j → set.e + i * (64 * set.p) < u := fun i hi => by
    have h := hlt i hi
    omega
  have hidx : (if u ≤ set.e then 0 else (u - set.e + 64 * set.p - 1) / (64 * set.p)) = j := by
    cases j with
    | zero => exact if_pos (by omega)
    | succ i =>
      have h := hlo i (Nat.lt_succ_self i)
      have hj' : (i + 1) * (64 * set.p) = i * (64 * set.p) + 64 * set.p := Nat.succ_mul _ _
      have hj'' : (i + 1 + 1) * (64 * set.p) = i * (64 * set.p) + 64 * set.p + 64 * set.p := by rw [Nat.succ_mul, hj']
      rw [if_neg (by omega)]
      exact Nat.div_eq_of_lt_le (by omega) (by omega)
  rw [hidx, Nat.mod_eq_of_lt hj]

/-- R27: the last index whose launch time has come. -/
theorem indexAt_eq (hj : j < 2 ^ 47) (hle : launchNs set j ≤ t) (hlt : t < launchNs set (j + 1)) : set.indexAt t = j := by
  rw [launchNs_eq] at hle hlt
  have hsucc : (j + 1) * (64 * set.p) = j * (64 * set.p) + 64 * set.p := Nat.succ_mul _ _
  have hdiv : (t - set.e) / (64 * set.p) = j := Nat.div_eq_of_lt_le (by omega) (by omega)
  unfold TickSet.indexAt
  rw [if_neg (by omega), hdiv, Nat.mod_eq_of_lt hj]

end Index

section Plan

variable {e : Eng} {d : Decision} {t j : Nat}

theorem launchPlan_armed (ha : e.awake = true) (hd : decided e d) (hr : e.running = false) (ht : e.tick.armed = some t) :
    e.launchPlan = e.firstPlan d t := by
  obtain ⟨hdec, hb⟩ := hd
  simp [Eng.launchPlan, hdec, hb, Eng.now, ha, hr, ht]

theorem launchPlan_running (ha : e.awake = true) (hd : decided e d) (hr : e.running = true) (hrun : d.run = true) :
    e.launchPlan = e.nextPlan d := by
  obtain ⟨hdec, hb⟩ := hd
  simp [Eng.launchPlan, hdec, hb, Eng.now, ha, hr, hrun]

/-- R46: the first launch in free mode. -/
theorem firstPlan_free (hp : 128 ≤ e.tick.set.p) (hs : e.tick.set.s = 0) (hj : firstFrom e.tick.set t j)
    (hn : launchNs e.tick.set j ≤ e.clk.sun.toNat / 2 ^ 40) : e.firstPlan d t = some ⟨j, false, 0, true, e.tick.set⟩ := by
  have hdue : e.tick.set.launch j ≤ e.ns := by rw [ns_eq]; exact hn
  simp [Eng.firstPlan, indexFrom_eq hp hj, hs, hdue]

/-- R48: a later launch in free mode. -/
theorem nextPlan_free (hs : d.set.s = 0) (hr : d.set.p * 32 ≤ e.clk.cycle - e.tick.base) :
    e.nextPlan d = some ⟨(e.tick.k + 1) % 2 ^ 47, false, 0, false, d.set⟩ := by
  have hround : d.set.p ≤ e.roundsSince e.tick.base := (Nat.le_div_iff_mul_le (by decide)).2 hr
  simp [Eng.nextPlan, hs, hround, tickAfter]

/-- R27, R28: a later launch with S of 1 or more, where the launch time of a later index has come. -/
theorem nextPlan_slack (hs : 1 ≤ d.set.s) (hr : (d.set.p - d.set.s) * 32 ≤ e.clk.cycle - e.tick.base) (hk : e.tick.k < j)
    (hj : j < 2 ^ 47) (hle : launchNs d.set j ≤ d.now + 16) (hlt : d.now + 16 < launchNs d.set (j + 1)) :
    e.nextPlan d = some ⟨j, false, j - (e.tick.k + 1), false, d.set⟩ := by
  have hround : d.set.p - d.set.s ≤ e.roundsSince e.tick.base := (Nat.le_div_iff_mul_le (by decide)).2 hr
  have hnext : d.set.launch (e.tick.k + 1) ≤ d.now + 16 := by
    refine Nat.le_trans ?_ hle
    exact Nat.add_le_add_left (Nat.mul_le_mul_right _ (Nat.mul_le_mul_right _ hk)) _
  unfold Eng.nextPlan
  dsimp only
  rw [if_neg (by omega), if_neg (by omega), if_pos hnext, indexAt_eq hj hle hlt]

end Plan

/-! ### What a launch leaves -/

section Launch

variable {e : Eng} {pl : LaunchPlan}

/-- The sequencer's record after the launch of index k with no settings pending (R29, R33). -/
def launchedTick (e : Eng) (k : Nat) : Tick :=
  { e.tick with k := k, armed := none, base := e.clk.cycle, count := (e.tick.count + 1) % 2 ^ 40,
                launch := BitVec.ofNat 80 (e.clk.sun.toNat / 2 ^ 20) }

/-- R42: a launch with no settings pending takes none. -/
theorem launch_takes_none (hp : e.tick.pend = none) : (e.launch pl).2.1 = false := by
  simp [Eng.launch, hp]

/-- R29, R33: the record that a launch makes is the one the parts of its boundary cycle leave. Each stage of the cycle is compared with the
stage before it and then forgotten, so that no comparison reaches through the earlier ones. -/
theorem tick_launch (hp : e.tick.pend = none) (hs : pl.set = e.tick.set) : (e.launch pl).2.2.tick = launchedTick e pl.k := by
  unfold Eng.launch
  extract_lets old ns ovs opos takes set fresh k realign late slip skip lateNs pos isFrame isMatrix dev count tick eZero eTick ePend eRun ePos
    eDev eLate eSlip eSkip eRealign eTrace eOvr pwr eWtk eTickFired eFrameFired eMatrixFired eFired
  have htakes : takes = false := by simp [takes, old, hp]
  have hset : set = e.tick.set := by simp [set, old, hp]
  have hk : k = pl.k := by simp [k, fresh, htakes, hset, hs]
  have htick : tick = launchedTick e pl.k := by simp [tick, launchedTick, htakes, hset, hk, count, old, Eng.now, t80_eq]
  clear_value tick
  have hpend : ePend.tick = tick := by
    simp only [ePend, htakes]
    rfl
  clear_value ePend
  have hlate : eLate.tick = ePend.tick := by simp only [eLate, eDev, ePos, eRun, Eng.setReg_tick, Eng.setFld_tick]
  clear_value eLate
  have hslip : eSlip.tick = eLate.tick := ite_keeps Eng.tick ((Eng.bump_tick _ _ _ _).trans (Eng.post_tick _ _ _)) rfl
  clear_value eSlip
  have hskip : eSkip.tick = eSlip.tick := ite_keeps Eng.tick ((Eng.bump_tick _ _ _ _).trans (Eng.post_tick _ _ _)) rfl
  clear_value eSkip
  have hrealign : eRealign.tick = eSkip.tick := ite_keeps Eng.tick (Eng.post_tick _ _ _) rfl
  clear_value eRealign
  have hovr : eOvr.tick = eRealign.tick := by simp only [eOvr, eTrace, tick_recordOverruns, tick_traceLaunch, tick_emitTallies, tick_trace]
  clear_value eOvr
  have hwtk : eWtk.tick = eOvr.tick := by simp only [eWtk, apply_ite Eng.tick, tick_releaseWtk, tick_wakeBy, ite_self]
  clear_value eWtk
  have hfired : eFired.tick = eWtk.tick := by
    simp only [eFired, eMatrixFired, eFrameFired, eTickFired, apply_ite Eng.tick, tick_produce, ite_self]
  calc eFired.tick = eRealign.tick := hfired.trans (hwtk.trans hovr)
    _ = tick := hrealign.trans (hskip.trans (hslip.trans (hlate.trans hpend)))
    _ = launchedTick e pl.k := htick

/-- R33, R410: a launch's record, and the doorbell pass that it requests. -/
theorem tickLaunch_leaves (h : e.launchPlan = some pl) (hp : e.tick.pend = none) (hs : pl.set = e.tick.set) :
    e.tickLaunch.tick = { launchedTick e pl.k with dec := none } ∧ e.tickLaunch.sys.passReq = true := by
  have htook := launch_takes_none (pl := pl) hp
  have htick := tick_launch hp hs
  simp only [Eng.tickLaunch, h]
  generalize e.launch pl = x at htook htick ⊢
  obtain ⟨isMatrix, took, e1⟩ := x
  obtain rfl : took = false := htook
  replace htick : e1.tick = launchedTick e pl.k := htick
  simp only [Eng.requestPass, Bool.false_eq_true, if_false, apply_ite Eng.tick, tick_auditStart, tick_linkTicks, tick_launchTables, ite_self, htick,
    and_self]

end Launch

/-! ### The end of ticks -/

section Stop

variable (e : Eng)

theorem running_tickTake : e.tickTake.running = e.running := by
  unfold Eng.tickTake
  split
  · rw [running_of_tickView (tickView_schRecheck _)]
    simp only [Eng.running, Eng.flag, Eng.fld_setFld_ne _ F.TIK_STAT_PENDING F.TIK_STAT_RUNNING 0 0 (by decide) rfl (by decide)]
    rfl
  · rfl

theorem now_tickTake : e.tickTake.now = e.now := by
  unfold Eng.tickTake
  split
  · rw [now_of_tickView (tickView_schRecheck _)]
    rfl
  · rfl

theorem pend_tickTake : e.tickTake.tick.pend = none := by
  unfold Eng.tickTake
  split
  · rw [tick_schRecheck]
    rfl
  · assumption

theorem set_tickTake {set : TickSet} {w : Bool} (h : e.tick.pend = some (set, w)) : e.tickTake.tick.set = set := by
  simp [Eng.tickTake, h]

/-- R42, R46, R372, R410: ticks end. -/
theorem ticksEnd_leaves : e.ticksEnd.running = false ∧ e.ticksEnd.tick.floodBase = e.now ∧ e.ticksEnd.tick.pollBase = e.now ∧
    e.ticksEnd.tick.dec = none ∧ e.ticksEnd.tick.pend = none ∧ e.ticksEnd.tick.set = (e.setFld F.TIK_STAT_RUNNING 0 0).tickTake.tick.set := by
  have hview : tickView (foldS (fun n e => e.expiryEvent n) (List.range 24) (e.setFld F.TIK_STAT_RUNNING 0 0).tickTake.schTicksStop) =
      tickView (e.setFld F.TIK_STAT_RUNNING 0 0).tickTake :=
    (foldS_keeps tickView (fun n e => tickView_expiryEvent e n) _ _).trans (tickView_schTicksStop _)
  have hrun : (e.setFld F.TIK_STAT_RUNNING 0 0).running = false := by
    rw [Eng.running, Eng.flag_setFld _ _ _ _ (by decide)]
    rfl
  unfold Eng.ticksEnd
  dsimp only
  generalize foldS _ _ _ = x at hview ⊢
  have hnow : x.now = e.now := (now_of_tickView hview).trans (now_tickTake _)
  have htick : x.tick = (e.setFld F.TIK_STAT_RUNNING 0 0).tickTake.tick := tick_of_tickView hview
  refine ⟨?_, hnow, hnow, rfl, ?_, ?_⟩
  · exact (running_of_tickView hview).trans ((running_tickTake _).trans hrun)
  · exact (congrArg Tick.pend htick).trans (pend_tickTake _)
  · exact congrArg Tick.set htick

theorem tickRunningClear_due {e : Eng} {d : Decision} (hd : decided e d) (hrun : d.run = false) (hr : e.running = true) :
    e.tickRunningClear = e.ticksEnd := by
  obtain ⟨hdec, hb⟩ := hd
  simp [Eng.tickRunningClear, hdec, hb, Eng.now, hrun, hr]

end Stop

/-- Settles O20: each of the three cases fixes what the decision plans, and the launch of that plan and the end of ticks keep the
sequencer's record through every other unit. -/
theorem ticksLaunchAndStop : Obligations.TicksLaunchAndStop := by
  refine ⟨?_, ?_⟩
  · intro s d j e set ha hd hp hpend hcase
    obtain ⟨pl, hpl, rfl, hset⟩ : ∃ pl, e.launchPlan = some pl ∧ pl.k = j ∧ pl.set = e.tick.set := by
      rcases hcase with ⟨hr, hs, ⟨t, ht, hj⟩, hn⟩ | ⟨hr, hrun, hset, hs, hround, rfl⟩ | ⟨hr, hrun, hset, hs, hround, hk, hj, hle, hlt⟩
      · exact ⟨_, (launchPlan_armed ha hd hr ht).trans (firstPlan_free hp hs hj hn), rfl, rfl⟩
      · exact ⟨_, (launchPlan_running ha hd hr hrun).trans (nextPlan_free (hset ▸ hs) (hset ▸ hround)), rfl, hset⟩
      · have hplan := nextPlan_slack (e := e) (d := d) (hset ▸ hs) (hset ▸ hround) hk hj (hset ▸ hle) (hset ▸ hlt)
        exact ⟨_, (launchPlan_running ha hd hr hrun).trans hplan, rfl, hset⟩
    obtain ⟨htick, hpass⟩ := tickLaunch_leaves hpl hpend hset
    refine ⟨_, exec_tickLaunch s ha, ?_⟩
    rw [htick]
    exact ⟨rfl, rfl, rfl, rfl, rfl, hpass, rfl⟩
  · intro s d e ha hd hrun hr
    obtain ⟨hrunning, hflood, hpoll, hdec, hpend, hset⟩ := ticksEnd_leaves e
    refine ⟨_, exec_tickRunningClear s ha, ?_⟩
    rw [tickRunningClear_due hd hrun hr]
    exact ⟨hrunning, hflood, hpoll, hdec, hpend, fun set w h => hset.trans (set_tickTake _ h)⟩

end Sys2Proof.TickProofs
end
